-- ==== Sys2Proof/Word.lean ====
section
/-! DEFINITION. The words of the part: bytes, and the 32-bit running time in units of 10 ms (00_scope.md, Time). -/

namespace Sys2Proof

/-- One byte of a frame, a request or a table entry. -/
abbrev Byte := BitVec 8

/-- The running time, a count of 10 ms units that wraps at 2^32 (00_scope.md, Time). -/
abbrev Time := BitVec 32

/-- The running time `units` units of 10 ms after `t`. -/
def Time.plus (t : Time) (units : Nat) : Time := t + BitVec.ofNat 32 units

/-- The number of units from `a` to `b`, taken modulo 2^32 (R122, R138). -/
def Time.since (b a : Time) : Nat := (b - a).toNat

/-- `t` lies at or after `now`, the two being less than half the range of the count apart. -/
def Time.notBefore (t now : Time) : Bool := decide ((t - now).toNat < 2 ^ 31)

/-- `k n`, written so that an evaluation works `n` out before it goes on with `k`. -/
def forced {α : Type} (n : Nat) (k : Nat → α) : α :=
  match n with
  | 0 => k 0
  | m + 1 => k (m + 1)

@[simp] theorem forced_eq {α : Type} (n : Nat) (k : Nat → α) : forced n k = k n := by
  cases n <;> rfl

end Sys2Proof
end

