-- ==== Sys2Proof/Machine/Codes.lean ====
section
/-! DEFINITION. The named values of the manual and their codes (13.2, 13.4, 13.6). -/

namespace Sys2Proof

/-- Unit kinds (R19), coded by 13.6. -/
inductive UnitKind where
  | none | lfu | tu | lu | iu | du | mt
  deriving DecidableEq, Repr

def UnitKind.code : UnitKind → Byte
  | .none => 0 | .lfu => 1 | .tu => 2 | .lu => 3 | .iu => 4 | .du => 5 | .mt => 6

/-- The kind a byte names; a byte that names none reads as NONE (log entry 32). -/
def UnitKind.ofByte (b : Byte) : UnitKind :=
  if b = 1 then .lfu else if b = 2 then .tu else if b = 3 then .lu
  else if b = 4 then .iu else if b = 5 then .du else if b = 6 then .mt else .none

/-- The number of channels of a kind (R20). -/
def UnitKind.channels : UnitKind → Nat
  | .lfu => 8 | .tu => 4 | .lu => 8 | .iu => 2 | .du => 16 | .mt => 0 | .none => 0

/-- The highest number of the objects that the channels of a kind serve (R20). -/
def UnitKind.objects : UnitKind → Nat
  | .lfu => 48 | .tu => 24 | .lu => 16 | .iu => 4 | .du => 64 | .mt => 0 | .none => 0

/-- Unit states (R21), coded by 13.6. -/
inductive UnitState where
  | probing | active | silent | absent | mismatch
  deriving DecidableEq, Repr

def UnitState.code : UnitState → Nat
  | .probing => 1 | .active => 2 | .silent => 3 | .absent => 4 | .mismatch => 5

/-- Track states (R38). -/
inductive TrackState where
  | clear | occupied | pickingUp | suspect | failed
  deriving DecidableEq, Repr

def TrackState.code : TrackState → Nat
  | .clear => 1 | .occupied => 2 | .pickingUp => 3 | .suspect => 4 | .failed => 5

/-- Failure causes of a track (R38). -/
inductive FailCause where
  | feed | noise | unit
  deriving DecidableEq, Repr

def FailCause.code : FailCause → Nat
  | .feed => 1 | .noise => 2 | .unit => 3

/-- Lever positions (R70). -/
inductive Position where
  | normal | reverse | mid | fault | unknown
  deriving DecidableEq, Repr

def Position.code : Position → Nat
  | .normal => 1 | .reverse => 2 | .mid => 3 | .fault => 4 | .unknown => 5

/-- Release states (R70). -/
inductive Release where
  | nLocked | nFree | strokeN | rLocked | rFree | strokeR | unknown
  deriving DecidableEq, Repr

def Release.code : Release → Nat
  | .nLocked => 1 | .nFree => 2 | .strokeN => 3 | .rLocked => 4 | .rFree => 5 | .strokeR => 6 | .unknown => 7

/-- Lock outputs (R70). -/
inductive Lock where
  | locked | free
  deriving DecidableEq, Repr

def Lock.code : Lock → Nat
  | .locked => 0 | .free => 1

/-- Lever kinds (R69). -/
inductive LeverKind where
  | signal | points | spare
  deriving DecidableEq, Repr

/-- The lever kind a byte names; any byte but those of SIGNAL and POINTS reads as SPARE, which is never released
(log entry 32). -/
def LeverKind.ofByte (b : Byte) : LeverKind :=
  if b = 1 then .signal else if b = 2 then .points else .spare

/-- Instrument states: own states, far states and commutator positions (R133). -/
inductive Instrument where
  | unknown | blocked | clear | onLine
  deriving DecidableEq, Repr

def Instrument.code : Instrument → Nat
  | .unknown => 0 | .blocked => 1 | .clear => 2 | .onLine => 3

/-- The instrument state of a code; a code that names none reads as UNKNOWN (R180 for code 0). -/
def Instrument.ofCode (n : Nat) : Instrument :=
  if n = 1 then .blocked else if n = 2 then .clear else if n = 3 then .onLine else .unknown

/-- Proving progress (R133): NONE is `seen 0`, 1 to 3 are the arrival tracks seen in order, and PROVEN. -/
inductive Progress where
  | seen (n : Nat)
  | proven
  deriving DecidableEq, Repr

def Progress.code : Progress → Nat
  | .seen n => n | .proven => 4

/-- Section directions (R132). -/
inductive Direction where
  | inbound | outbound | single
  deriving DecidableEq, Repr

/-- The direction a byte names; any byte but those of INBOUND and SINGLE reads as OUTBOUND (log entry 32). -/
def Direction.ofByte (b : Byte) : Direction :=
  if b = 1 then .inbound else if b = 3 then .single else .outbound

/-- Lamp states (R147); the three classes of a report are OUT, LIT and SHORT. -/
inductive LampState where
  | out | lit | short | unknown
  deriving DecidableEq, Repr

def LampState.code : LampState → Nat
  | .out => 1 | .lit => 2 | .short => 3 | .unknown => 4

/-- Lamp alarms (R147). -/
inductive Alarm where
  | quiet | alarm | accepted | recovered
  deriving DecidableEq, Repr

def Alarm.code : Alarm → Nat
  | .quiet => 1 | .alarm => 2 | .accepted => 3 | .recovered => 4

/-- Faults of a diagram output (R158). -/
inductive OutputFault where
  | none | openCircuit | short
  deriving DecidableEq, Repr

def OutputFault.code : OutputFault → Nat
  | .none => 0 | .openCircuit => 1 | .short => 2

/-- The fault of a 2-bit code; code 3 is read as SHORT (R180). -/
def OutputFault.ofCode (n : Nat) : OutputFault :=
  if n = 0 then .none else if n = 1 then .openCircuit else .short

/-- Modes of a diagram output (R154). -/
inductive Mode where
  | off | steady | flashSlow | flashFast
  deriving DecidableEq, Repr

def Mode.code : Mode → Nat
  | .off => 0 | .steady => 1 | .flashSlow => 2 | .flashFast => 3

def Mode.ofCode (n : Nat) : Mode :=
  if n = 1 then .steady else if n = 2 then .flashSlow else if n = 3 then .flashFast else .off

/-- Bell code classes (R118) and UNKNOWN (R125). -/
inductive BellClass where
  | callAttention | offer | entering | trainOut | cancel | obstruction | obstructionRemoved | testing | plain | unknown
  deriving DecidableEq, Repr

def BellClass.code : BellClass → Nat
  | .callAttention => 1 | .offer => 2 | .entering => 3 | .trainOut => 4 | .cancel => 5
  | .obstruction => 6 | .obstructionRemoved => 7 | .testing => 8 | .plain => 9 | .unknown => 10

def BellClass.ofByte (b : Byte) : BellClass :=
  if b = 1 then .callAttention else if b = 2 then .offer else if b = 3 then .entering else if b = 4 then .trainOut
  else if b = 5 then .cancel else if b = 6 then .obstruction else if b = 7 then .obstructionRemoved
  else if b = 8 then .testing else if b = 9 then .plain else .unknown

/-- Exchange origins (R125). -/
inductive Origin where
  | theySent | weSent
  deriving DecidableEq, Repr

def Origin.code : Origin → Nat
  | .theySent => 1 | .weSent => 2

/-- Exchange statuses (8.5). -/
inductive ExStatus where
  | awaiting | misrepeated | acknowledged | expired
  deriving DecidableEq, Repr

def ExStatus.code : ExStatus → Nat
  | .awaiting => 1 | .misrepeated => 2 | .acknowledged => 3 | .expired => 4

/-- The two recognisers of a section (8.2). -/
inductive Side where
  | incoming | here
  deriving DecidableEq, Repr

/-- A recogniser in the detail of CODE_INVALID: incoming 0, local 1 (13.6). -/
def Side.code : Side → Nat
  | .incoming => 0 | .here => 1

/-- Block lines (00_scope.md); lines are coded 0 for A and 1 for B (13.4). -/
inductive Line where
  | a | b
  deriving DecidableEq, Repr

def Line.code : Line → Nat
  | .a => 0 | .b => 1

/-- The line a section table byte names: 0 is A, every other byte reads as B (log entry 32). -/
def Line.ofByte (x : Byte) : Line := if x = 0 then .a else .b

/-- Link states of a line (R112). -/
inductive Link where
  | down | up
  deriving DecidableEq, Repr

/-- Start sequence of a line (R116). -/
inductive StartSeq where
  | idle | sendingBreak | sendingIdle
  deriving DecidableEq, Repr

def StartSeq.code : StartSeq → Nat
  | .idle => 0 | .sendingBreak => 1 | .sendingIdle => 2

/-- Part states (12.1). -/
inductive PartState where
  | starting | unconfigured | running | switching | tripped
  deriving DecidableEq, Repr

def PartState.code : PartState → Nat
  | .starting => 1 | .unconfigured => 2 | .running => 3 | .switching => 4 | .tripped => 5

/-- Reset kinds (R175). -/
inductive ResetKind where
  | power | pin | restart
  deriving DecidableEq, Repr

def ResetKind.code : ResetKind → Nat
  | .power => 1 | .pin => 2 | .restart => 3

/-- Trip causes (R176). -/
inductive TripCause where
  | lockEcho | multiViolation | storeFail
  deriving DecidableEq, Repr

def TripCause.code : TripCause → Nat
  | .lockEcho => 1 | .multiViolation => 2 | .storeFail => 3

/-- Frame kinds (R2), coded by 13.2. -/
inductive FrameKind where
  | lockSet | bellRing | repeaterSet | identProbe | diagramSet | maintReply | eventNotice
  | leverReport | trackSample | lampReport | instrReport | diagReport | ident | maintRequest
  deriving DecidableEq, Repr

def FrameKind.code : FrameKind → Nat
  | .lockSet => 1 | .bellRing => 2 | .repeaterSet => 3 | .identProbe => 4 | .diagramSet => 5 | .maintReply => 6
  | .eventNotice => 7 | .leverReport => 8 | .trackSample => 9 | .lampReport => 10 | .instrReport => 11
  | .diagReport => 12 | .ident => 13 | .maintRequest => 14

/-- The class of a kind in the outbound queue (R2); the kinds that only units send have none and never stand there. -/
def FrameKind.cls : FrameKind → Nat
  | .lockSet => 1 | .bellRing => 2 | .repeaterSet => 2 | .identProbe => 3 | .diagramSet => 3 | .maintReply => 4
  | .eventNotice => 4 | _ => 4

/-- The least payload length of a kind, given by its code (13.2); a code that names no kind requires none. -/
def payloadLength (kind : Nat) : Nat :=
  if kind = 1 then 1 else if kind = 2 then 2 else if kind = 3 then 4 else if kind = 5 then 16 else if kind = 6 then 4
  else if kind = 8 then 8 else if kind = 9 then 24 else if kind = 10 then 12 else if kind = 11 then 3
  else if kind = 12 then 4 else if kind = 13 then 6 else if kind = 14 then 2 else 0

/-- The command that carries the state of a unit of the kind, and is refreshed (R11). -/
def UnitKind.refreshed : UnitKind → Option FrameKind
  | .lfu => some .lockSet | .iu => some .repeaterSet | .du => some .diagramSet | _ => .none

/-- The refresh period of the command, in 10 ms units (R11). -/
def FrameKind.period : FrameKind → Nat
  | .diagramSet => 200 | _ => 100

/-- The report kind that a unit of the kind sends (R2). -/
def UnitKind.reports : UnitKind → Option FrameKind
  | .lfu => some .leverReport | .tu => some .trackSample | .lu => some .lampReport
  | .iu => some .instrReport | .du => some .diagReport | _ => .none

/-- Event kinds (12.5). -/
inductive EventKind where
  | frameDropped | commandLost | loopBroken | loopRestored | unitState | foreignRequest
  | trackFailed | trackRecovered | unexpectedOccupation | trackSuspect | trackRestored
  | leverContactFault | strokeLoss | leverViolation | violationCleared
  | linkUp | linkDown | linkNoisy | strokeDropped | strokeUnassigned
  | codeInvalid | codeUnknown | codeReceived | codeSent | codeMisrepeated | codeUnrepeated
  | obstructionSet | obstructionCleared | commutatorRefused | conflictWithdrawn | conflictHeld | blockReleased
  | lampFault | lampRecovered | diagramFault | switchHeld | bankStored | bankSwitched | start | trip | tripRepeated
  deriving DecidableEq, Repr

/-- Event kinds are coded from 1 onward in the order of 12.5 (13.6). -/
def EventKind.code : EventKind → Nat
  | .frameDropped => 1 | .commandLost => 2 | .loopBroken => 3 | .loopRestored => 4 | .unitState => 5
  | .foreignRequest => 6 | .trackFailed => 7 | .trackRecovered => 8 | .unexpectedOccupation => 9
  | .trackSuspect => 10 | .trackRestored => 11 | .leverContactFault => 12 | .strokeLoss => 13
  | .leverViolation => 14 | .violationCleared => 15 | .linkUp => 16 | .linkDown => 17 | .linkNoisy => 18
  | .strokeDropped => 19 | .strokeUnassigned => 20 | .codeInvalid => 21 | .codeUnknown => 22 | .codeReceived => 23
  | .codeSent => 24 | .codeMisrepeated => 25 | .codeUnrepeated => 26 | .obstructionSet => 27
  | .obstructionCleared => 28 | .commutatorRefused => 29 | .conflictWithdrawn => 30 | .conflictHeld => 31
  | .blockReleased => 32 | .lampFault => 33 | .lampRecovered => 34 | .diagramFault => 35 | .switchHeld => 36
  | .bankStored => 37 | .bankSwitched => 38 | .start => 39 | .trip => 40 | .tripRepeated => 41

/-- Reasons of a refused commutator move, in the order of the COMMUTATOR_REFUSED row of 9.8 (13.6). -/
inductive MoveReason where
  | starting | switching | tripped | direction | linkDown | obstructed | farNotBlocked | noOffer | offerExpired
  | acceptance | noCancel | notProven | notAllowed
  deriving DecidableEq, Repr

def MoveReason.code : MoveReason → Nat
  | .starting => 1 | .switching => 2 | .tripped => 3 | .direction => 4 | .linkDown => 5 | .obstructed => 6
  | .farNotBlocked => 7 | .noOffer => 8 | .offerExpired => 9 | .acceptance => 10 | .noCancel => 11
  | .notProven => 12 | .notAllowed => 13

/-- Refusal reasons of a maintenance request (13.6). -/
inductive RefusalReason where
  | busy | readOnly | state | noKey | unchecked | frameNotAtRest | violation | sectionInUse | approachLocked
  | notSuspect | notNormal | notOnLine | undefined
  deriving DecidableEq, Repr

def RefusalReason.code : RefusalReason → Nat
  | .busy => 1 | .readOnly => 2 | .state => 3 | .noKey => 4 | .unchecked => 5 | .frameNotAtRest => 6
  | .violation => 7 | .sectionInUse => 8 | .approachLocked => 9 | .notSuspect => 10 | .notNormal => 11
  | .notOnLine => 12 | .undefined => 13

/-- Check errors (13.6). -/
inductive CheckError where
  | rosterKind | rosterDup | noTerminal | refUndefined | notReciprocal | thresholdOrder | listRange
  | signalNormalList | sectionConflict | timingOrder | codeDup
  deriving DecidableEq, Repr

def CheckError.code : CheckError → Nat
  | .rosterKind => 1 | .rosterDup => 2 | .noTerminal => 3 | .refUndefined => 4 | .notReciprocal => 5
  | .thresholdOrder => 6 | .listRange => 7 | .signalNormalList => 8 | .sectionConflict => 9 | .timingOrder => 10
  | .codeDup => 11

/-- Record and table classes (R162), numbered by 13.4. -/
inductive RecordClass where
  | unit | track | lever | sectionRec | exchange | lamp | output | line | bankState | trip
  | roster | trackTable | leverTable | sectionTable | lampTable | diagramTable | pool | bellCode | lineSettings
  | timing | group
  deriving DecidableEq, Repr

def RecordClass.code : RecordClass → Nat
  | .unit => 1 | .track => 2 | .lever => 3 | .sectionRec => 4 | .exchange => 5 | .lamp => 6 | .output => 7
  | .line => 8 | .bankState => 9 | .trip => 10 | .roster => 11 | .trackTable => 12 | .leverTable => 13
  | .sectionTable => 14 | .lampTable => 15 | .diagramTable => 16 | .pool => 17 | .bellCode => 18
  | .lineSettings => 19 | .timing => 20 | .group => 21

/-- The class of a number (13.4). -/
def RecordClass.ofNat? (n : Nat) : Option RecordClass :=
  [RecordClass.unit, .track, .lever, .sectionRec, .exchange, .lamp, .output, .line, .bankState, .trip,
    .roster, .trackTable, .leverTable, .sectionTable, .lampTable, .diagramTable, .pool, .bellCode, .lineSettings,
    .timing, .group].find? (fun c => c.code == n)

end Sys2Proof
end

