-- ==== Sys2Proof/Syntax.lean ====
section
/-! DEFINITION. The commands of the part: one constructor for each row of the table of operations and events. A command is
an arrival. `dt` is the running time that has passed since the arrival before it, in 10 ms units (log entry 1). -/

namespace Sys2Proof

/-- A frame as received at LOOP-IN (13.2), but for its kind, which its command names. The payload length byte is the
payload's length (log entry 33). -/
structure Frame where
  /-- Byte 0: destination address in bits 0 to 4, taken mark in bit 7. -/
  b0 : Byte
  /-- Byte 1: source address in bits 0 to 4. -/
  b1 : Byte
  /-- Byte 2: sequence number. -/
  seq : Byte
  payload : List Byte
  /-- The CRC field, in the order of its arrival: high byte first (13.2, R182). -/
  crcHigh : Byte
  crcLow : Byte
  deriving DecidableEq, Repr

/-- A MAINT_REQUEST frame as received, but for its request code, which its command names (13.4). -/
structure RequestFrame where
  b0 : Byte
  b1 : Byte
  seq : Byte
  tag : Byte
  params : List Byte
  crcHigh : Byte
  crcLow : Byte
  deriving DecidableEq, Repr

/-- The samples of one character on a block line (R106): three samples of each of the eleven elements, a 1 bit for mark
and a 0 bit for space. The start element's are those of its first half. -/
structure LineSamples where
  start : BitVec 3
  /-- The eight data elements, least significant bit first (13.3). -/
  data : List (BitVec 3)
  markBit : BitVec 3
  stop : BitVec 3
  deriving DecidableEq, Repr

/-- The commands. -/
inductive Instr where
  /-- RETURN (R13): a frame of the given kind code arrives with source address 0. -/
  | ret (dt : Time) (kind : Byte) (f : Frame)
  /-- LEVER_REPORT (R71). -/
  | leverReport (dt : Time) (f : Frame)
  /-- TRACK_SAMPLE (R39). -/
  | trackSample (dt : Time) (f : Frame)
  /-- LAMP_REPORT (R148). -/
  | lampReport (dt : Time) (f : Frame)
  /-- INSTR_REPORT (R137). -/
  | instrReport (dt : Time) (f : Frame)
  /-- DIAG_REPORT (R158). -/
  | diagReport (dt : Time) (f : Frame)
  /-- IDENT (R25). -/
  | ident (dt : Time) (f : Frame)
  /-- READ_RECORD (R162). -/
  | readRecord (dt : Time) (f : RequestFrame)
  /-- LOAD_TABLE (R163). -/
  | loadTable (dt : Time) (f : RequestFrame)
  /-- COPY_BANK (R163). -/
  | copyBank (dt : Time) (f : RequestFrame)
  /-- CHECK_BANK (R164). -/
  | checkBank (dt : Time) (f : RequestFrame)
  /-- SWITCH_BANK (R166); `key` is the level of the KEY pin when the request is taken. -/
  | switchBank (dt : Time) (key : Bool) (f : RequestFrame)
  /-- RESTORE_TRACK (R65). -/
  | restoreTrack (dt : Time) (f : RequestFrame)
  /-- CLEAR_VIOLATION (R82); `key` as for SWITCH_BANK. -/
  | clearViolation (dt : Time) (key : Bool) (f : RequestFrame)
  /-- BLOCK_RELEASE (R142); `key` as for SWITCH_BANK. -/
  | blockRelease (dt : Time) (key : Bool) (f : RequestFrame)
  /-- ACK_ALARMS (R151). -/
  | ackAlarms (dt : Time) (f : RequestFrame)
  /-- SET_GROUP_INTENSITY (R156). -/
  | setGroupIntensity (dt : Time) (f : RequestFrame)
  /-- REPROBE_UNIT (R26). -/
  | reprobeUnit (dt : Time) (f : RequestFrame)
  /-- READ_EVENTS (R179). -/
  | readEvents (dt : Time) (f : RequestFrame)
  /-- RESTART (R172); `key` as for SWITCH_BANK. -/
  | restart (dt : Time) (key : Bool) (f : RequestFrame)
  /-- IDLE_PATTERN_ARRIVAL (R15). -/
  | idlePatternArrival (dt : Time)
  /-- LOOP_WATCH_TIMER_EXPIRY (R15). -/
  | loopWatchTimerExpiry (dt : Time)
  /-- RETURN_TIMER_EXPIRY (R12) of the pending entry with the sequence number. -/
  | returnTimerExpiry (dt : Time) (seq : Byte)
  /-- REFRESH_TIMER_EXPIRY (R11) of the address. -/
  | refreshTimerExpiry (dt : Time) (addr : Nat)
  /-- FRAME_SENT (R10). -/
  | frameSent (dt : Time)
  /-- TRANSMIT_HOLD_EXPIRY (R10). -/
  | transmitHoldExpiry (dt : Time)
  /-- PROBE_WINDOW_EXPIRY (R23) of the unit at the address. -/
  | probeWindowExpiry (dt : Time) (addr : Nat)
  /-- RE_PROBE_TIMER_EXPIRY (R24) of the unit at the address. -/
  | reProbeTimerExpiry (dt : Time) (addr : Nat)
  /-- REPORT_TIMER_EXPIRY (R28) of the unit at the address. -/
  | reportTimerExpiry (dt : Time) (addr : Nat)
  /-- PICK_UP_TIMER_EXPIRY (R48) of the track. -/
  | pickUpTimerExpiry (dt : Time) (track : Nat)
  /-- APPROACH_TIMER_EXPIRY (R84) of the lever. -/
  | approachTimerExpiry (dt : Time) (lever : Nat)
  /-- LINE_CHARACTER (R109): the samples of one character (R106). `markBefore` says that the line has been read at mark
  for one whole element since the character before it (R107). -/
  | lineCharacter (dt : Time) (line : Line) (markBefore : Bool) (samples : LineSamples)
  /-- STROKE_MESSAGE (R119): a valid STROKE of the channel completes on the line. -/
  | strokeMessage (dt : Time) (line : Line) (channel : Fin 2)
  /-- INSTR_MESSAGE (R134): a valid INSTR of the channel completes on the line. -/
  | instrMessage (dt : Time) (line : Line) (channel : Fin 2) (state : Instrument)
  /-- STATUS_MESSAGE (R134): a valid STATUS completes on the line. -/
  | statusMessage (dt : Time) (line : Line) (state0 state1 : Instrument)
  /-- GAP_TIMER_EXPIRY (R109). -/
  | gapTimerExpiry (dt : Time) (line : Line)
  /-- LINK_TIMER_EXPIRY (R112). -/
  | linkTimerExpiry (dt : Time) (line : Line)
  /-- STATUS_TIMER_EXPIRY (R115). -/
  | statusTimerExpiry (dt : Time) (line : Line)
  /-- LINE_MESSAGE_SENT (R114). -/
  | lineMessageSent (dt : Time) (line : Line)
  /-- SENDING_BREAK_END (R116). -/
  | sendingBreakEnd (dt : Time) (line : Line)
  /-- SENDING_IDLE_END (R116). -/
  | sendingIdleEnd (dt : Time) (line : Line)
  /-- END_TIMER_EXPIRY (R123) of a recogniser. -/
  | endTimerExpiry (dt : Time) (sec : Nat) (side : Side)
  /-- REPETITION_TIMER_EXPIRY (R127) of a section's exchange record. -/
  | repetitionTimerExpiry (dt : Time) (sec : Nat)
  /-- START_TIMER_EXPIRY (R173). -/
  | startTimerExpiry (dt : Time)
  /-- STARTUP_CRC_CHECK (R173). -/
  | startupCrcCheck (dt : Time)
  /-- STORE_OPERATION_END (R165); `equal` says that the read-back equals what was written. -/
  | storeOperationEnd (dt : Time) (equal : Bool)
  /-- POWER_RESET (R175). -/
  | powerReset
  /-- RESET_PIN_ASSERTED (R175). -/
  | resetPinAsserted
  /-- RESET_PIN_RELEASED (R175). -/
  | resetPinReleased
  /-- RESTART_RESET (R172). -/
  | restartReset
  /-- BAD_REQUEST (R161): a MAINT_REQUEST frame whose request cannot be read. -/
  | badRequest (dt : Time) (f : Frame)
  /-- DISCARDED_VALID_FRAME (R6): a frame of a kind code that no other command stands for. -/
  | discardedValidFrame (dt : Time) (kind : Byte) (f : Frame)
  deriving DecidableEq, Repr

end Sys2Proof
end

