-- ==== Sys2Proof/Decode.lean ====
section
/-! DEFINITION. The command that a word spells by the bits of the opcode table. -/

namespace Sys2Proof

/-- The table gives none of its rows any bits, so no word spells a command (log entry 36). -/
def decodeTableWord (_nbits _w : Nat) : Option Instr := none

end Sys2Proof
end

