-- ==== Sys2Proof/Machine/Bank.lean ====
section
/-! DEFINITION. The tables of a bank: their entries as LOAD_TABLE writes them, the layout of an entry (13.1), the
CRC-32 of a bank (R182), and what the blocks read from a bank. An entry holds the bytes as given (R163, R180), so
that every value a request can load is a value of the table; a field's meaning is read from them. -/

namespace Sys2Proof

/-- A 2-byte number, high byte first (13.1). -/
def be16 (x : BitVec 16) : List Byte := [x.extractLsb' 8 8, x.extractLsb' 0 8]

/-- A 4-byte number, high byte first (13.1). -/
def be32 (x : BitVec 32) : List Byte :=
  [x.extractLsb' 24 8, x.extractLsb' 16 8, x.extractLsb' 8 8, x.extractLsb' 0 8]

/-- A number sent in 1 byte. -/
def b1 (n : Nat) : Byte := BitVec.ofNat 8 n

/-- A number sent in 2 bytes (13.1). -/
def b2 (n : Nat) : List Byte := be16 (BitVec.ofNat 16 n)

/-- Set/clear flag (13.1). -/
def flagByte (x : Bool) : Byte := if x then 1 else 0

/-- Roster entry (R19). -/
structure RosterEntry where
  kind : Byte := 0
  serial : BitVec 32 := 0
  timeout : Byte := 0
  channels : List (BitVec 7) := List.replicate 16 0
  deriving DecidableEq, Repr, Inhabited

/-- Track table entry (R37). -/
structure TrackEntry where
  fmin : BitVec 16 := 0
  p : BitVec 16 := 0
  d : BitVec 16 := 0
  k : Byte := 0
  nlim : BitVec 16 := 0
  delay : Byte := 0
  proving : Byte := 0
  neighbours : List Byte := List.replicate 3 0
  deriving DecidableEq, Repr, Inhabited

/-- A range of the condition pool (R88). -/
structure ListRange where
  start : BitVec 16 := 0
  count : Byte := 0
  deriving DecidableEq, Repr, Inhabited

/-- Lever table entry (R69). -/
structure LeverEntry where
  kind : Byte := 0
  reverseList : ListRange := {}
  normalList : ListRange := {}
  approach : List Byte := List.replicate 2 0
  approachTime : Byte := 0
  deriving DecidableEq, Repr, Inhabited

/-- Section table entry (R132). -/
structure SectionEntry where
  line : Byte := 0
  channel : Byte := 0
  direction : Byte := 0
  senior : Byte := 0
  exitTrack : Byte := 0
  arrivals : List Byte := List.replicate 3 0
  acceptance : ListRange := {}
  window : BitVec 16 := 0
  deriving DecidableEq, Repr, Inhabited

/-- Lamp table entry (R147). -/
structure LampEntry where
  openLimit : BitVec 16 := 0
  shortLimit : BitVec 16 := 0
  deriving DecidableEq, Repr, Inhabited

/-- Diagram output table entry (R154). -/
structure DiagramEntry where
  source : Byte := 0
  object : Byte := 0
  group : Byte := 0
  deriving DecidableEq, Repr, Inhabited

/-- Condition pool entry (R87). -/
structure PoolEntry where
  kind : Byte := 0
  object : Byte := 0
  second : Byte := 0
  position : Byte := 0
  deriving DecidableEq, Repr, Inhabited

/-- Bell code table entry (R118). -/
structure BellEntry where
  pattern : BitVec 16 := 0
  cls : Byte := 0
  trainClass : Byte := 0
  deriving DecidableEq, Repr, Inhabited

/-- Settings of one line, with the defaults of a bank prepared from empty (R105). -/
structure LineSettings where
  rate : BitVec 16 := 600
  statusInterval : Byte := 5
  linkTimeout : Byte := 3
  deriving DecidableEq, Repr, Inhabited

/-- Bell timing parameters, with the defaults of a bank prepared from empty (R118). -/
structure Timing where
  tg : Byte := 70
  te : BitVec 16 := 200
  tr : Byte := 20
  deriving DecidableEq, Repr, Inhabited

/-- A bank (11.1). The field values here are those of the empty shadow bank (R160). -/
structure Bank where
  roster : List RosterEntry := List.replicate 31 {}
  tracks : List TrackEntry := List.replicate 24 {}
  levers : List LeverEntry := List.replicate 48 {}
  sections : List SectionEntry := List.replicate 4 {}
  lamps : List LampEntry := List.replicate 16 {}
  diagram : List DiagramEntry := List.replicate 64 {}
  pool : List PoolEntry := List.replicate 512 {}
  bells : List BellEntry := List.replicate 32 {}
  lineA : LineSettings := {}
  lineB : LineSettings := {}
  timing : Timing := {}
  groups : List Byte := List.replicate 5 15
  edition : BitVec 16 := 0
  deriving DecidableEq, Repr, Inhabited

/-- The empty bank: the shadow bank after each kind of reset (R160). -/
def Bank.empty : Bank := {}

/-- A bank together with a CRC-32, as the non-volatile storage keeps it (R160). -/
structure BankImage where
  bank : Bank := {}
  crc : BitVec 32 := 0
  deriving DecidableEq, Repr, Inhabited

/-! ### The layout of an entry (13.1, in the order in which the owning chapters list the fields) -/

/-- Sixteen 7-bit fields packed in 14 bytes, channel 0 in the highest 7 bits of the first (13.1). -/
def packChannels (cs : List (BitVec 7)) : List Byte :=
  let n := cs.foldl (fun acc c => acc * 128 + c.toNat) 0
  (List.range 14).map fun i => BitVec.ofNat 8 (n / 2 ^ (8 * (13 - i)))

def unpackChannels (bs : List Byte) : List (BitVec 7) :=
  let n := bs.foldl (fun acc b => acc * 256 + b.toNat) 0
  (List.range 16).map fun i => BitVec.ofNat 7 (n / 2 ^ (7 * (15 - i)))

def RosterEntry.encode (e : RosterEntry) : List Byte :=
  e.kind :: be32 e.serial ++ e.timeout :: packChannels e.channels

def RosterEntry.decode (bs : List Byte) : Option RosterEntry :=
  match bs with
  | k :: s3 :: s2 :: s1 :: s0 :: t :: rest =>
    if rest.length < 14 then none
    else some { kind := k, serial := s3 ++ s2 ++ s1 ++ s0, timeout := t, channels := unpackChannels (rest.take 14) }
  | _ => none

def TrackEntry.encode (e : TrackEntry) : List Byte :=
  be16 e.fmin ++ be16 e.p ++ be16 e.d ++ [e.k] ++ be16 e.nlim ++ [e.delay, e.proving] ++ e.neighbours

def TrackEntry.decode (bs : List Byte) : Option TrackEntry :=
  match bs with
  | f1 :: f0 :: p1 :: p0 :: d1 :: d0 :: k :: n1 :: n0 :: dl :: pr :: x :: y :: z :: _ =>
    some { fmin := f1 ++ f0, p := p1 ++ p0, d := d1 ++ d0, k := k, nlim := n1 ++ n0, delay := dl, proving := pr,
           neighbours := [x, y, z] }
  | _ => none

def ListRange.encode (r : ListRange) : List Byte := be16 r.start ++ [r.count]

def LeverEntry.encode (e : LeverEntry) : List Byte :=
  [e.kind] ++ e.reverseList.encode ++ e.normalList.encode ++ e.approach ++ [e.approachTime]

def LeverEntry.decode (bs : List Byte) : Option LeverEntry :=
  match bs with
  | k :: r1 :: r0 :: rc :: n1 :: n0 :: nc :: x :: y :: t :: _ =>
    some { kind := k, reverseList := ⟨r1 ++ r0, rc⟩, normalList := ⟨n1 ++ n0, nc⟩, approach := [x, y],
           approachTime := t }
  | _ => none

def SectionEntry.encode (e : SectionEntry) : List Byte :=
  [e.line, e.channel, e.direction, e.senior, e.exitTrack] ++ e.arrivals ++ e.acceptance.encode ++ be16 e.window

def SectionEntry.decode (bs : List Byte) : Option SectionEntry :=
  match bs with
  | l :: c :: d :: s :: x :: a0 :: a1 :: a2 :: r1 :: r0 :: rc :: w1 :: w0 :: _ =>
    some { line := l, channel := c, direction := d, senior := s, exitTrack := x, arrivals := [a0, a1, a2],
           acceptance := ⟨r1 ++ r0, rc⟩, window := w1 ++ w0 }
  | _ => none

def LampEntry.encode (e : LampEntry) : List Byte := be16 e.openLimit ++ be16 e.shortLimit

def LampEntry.decode (bs : List Byte) : Option LampEntry :=
  match bs with
  | o1 :: o0 :: s1 :: s0 :: _ => some { openLimit := o1 ++ o0, shortLimit := s1 ++ s0 }
  | _ => none

def DiagramEntry.encode (e : DiagramEntry) : List Byte := [e.source, e.object, e.group]

def DiagramEntry.decode (bs : List Byte) : Option DiagramEntry :=
  match bs with
  | s :: o :: g :: _ => some { source := s, object := o, group := g }
  | _ => none

def PoolEntry.encode (e : PoolEntry) : List Byte := [e.kind, e.object, e.second, e.position]

def PoolEntry.decode (bs : List Byte) : Option PoolEntry :=
  match bs with
  | k :: o :: s :: p :: _ => some { kind := k, object := o, second := s, position := p }
  | _ => none

def BellEntry.encode (e : BellEntry) : List Byte := be16 e.pattern ++ [e.cls, e.trainClass]

def BellEntry.decode (bs : List Byte) : Option BellEntry :=
  match bs with
  | p1 :: p0 :: c :: t :: _ => some { pattern := p1 ++ p0, cls := c, trainClass := t }
  | _ => none

def LineSettings.encode (e : LineSettings) : List Byte := be16 e.rate ++ [e.statusInterval, e.linkTimeout]

def LineSettings.decode (bs : List Byte) : Option LineSettings :=
  match bs with
  | r1 :: r0 :: s :: l :: _ => some { rate := r1 ++ r0, statusInterval := s, linkTimeout := l }
  | _ => none

def Timing.encode (e : Timing) : List Byte := [e.tg] ++ be16 e.te ++ [e.tr]

def Timing.decode (bs : List Byte) : Option Timing :=
  match bs with
  | g :: e1 :: e0 :: r :: _ => some { tg := g, te := e1 ++ e0, tr := r }
  | _ => none

/-- An entry's channel and number lists have the places that 13.1 gives them. -/
def Bank.wf (b : Bank) : Bool :=
  b.roster.length == 31 && b.roster.all (fun e => e.channels.length == 16)
  && b.tracks.length == 24 && b.tracks.all (fun e => e.neighbours.length == 3)
  && b.levers.length == 48 && b.levers.all (fun e => e.approach.length == 2)
  && b.sections.length == 4 && b.sections.all (fun e => e.arrivals.length == 3)
  && b.lamps.length == 16 && b.diagram.length == 64 && b.pool.length == 512 && b.bells.length == 32
  && b.groups.length == 5

/-! ### Entries by number -/

/-- The entry of a number counted from 1, or the entry of zeros where there is none. -/
def entryAt [Inhabited α] (l : List α) (n : Nat) : α := if n = 0 then default else l.getD (n - 1) default

/-- The list with the entry of a number counted from 1 replaced. -/
def setEntry (l : List α) (n : Nat) (x : α) : List α := if n = 0 then l else l.set (n - 1) x

/-- The indexes of a class (R162); LOAD_TABLE's index 1 of BANK_STATE is treated by R163 apart. -/
def RecordClass.indexOk (c : RecordClass) (i : Nat) : Bool :=
  match c with
  | .unit | .roster => decide (1 ≤ i ∧ i ≤ 31)
  | .track | .trackTable => decide (1 ≤ i ∧ i ≤ 24)
  | .lever | .leverTable => decide (1 ≤ i ∧ i ≤ 48)
  | .sectionRec | .exchange | .sectionTable => decide (1 ≤ i ∧ i ≤ 4)
  | .lamp | .lampTable => decide (1 ≤ i ∧ i ≤ 16)
  | .output | .diagramTable => decide (1 ≤ i ∧ i ≤ 64)
  | .line | .lineSettings => decide (i ≤ 1)
  | .bankState | .trip | .timing => decide (i = 0)
  | .pool => decide (i ≤ 511)
  | .bellCode => decide (1 ≤ i ∧ i ≤ 32)
  | .group => decide (1 ≤ i ∧ i ≤ 5)

/-- The contents of one entry of a bank table, in its LOAD_TABLE encoding (R163); none for a class that is no table. -/
def Bank.encodeEntry (b : Bank) (c : RecordClass) (i : Nat) : Option (List Byte) :=
  match c with
  | .roster => some (entryAt b.roster i).encode
  | .trackTable => some (entryAt b.tracks i).encode
  | .leverTable => some (entryAt b.levers i).encode
  | .sectionTable => some (entryAt b.sections i).encode
  | .lampTable => some (entryAt b.lamps i).encode
  | .diagramTable => some (entryAt b.diagram i).encode
  | .pool => some (b.pool.getD i default).encode
  | .bellCode => some (entryAt b.bells i).encode
  | .lineSettings => some (if i = 0 then b.lineA else b.lineB).encode
  | .timing => some b.timing.encode
  | .group => some [entryAt b.groups i]
  | _ => none

/-- The length of an entry of a bank table; 0 for a class that is no table. -/
def RecordClass.entryLength : RecordClass → Nat
  | .roster => 20 | .trackTable => 14 | .leverTable => 10 | .sectionTable => 13 | .lampTable => 4
  | .diagramTable => 3 | .pool => 4 | .bellCode => 4 | .lineSettings => 4 | .timing => 4 | .group => 1 | _ => 0

/-- The bank with one entry written as given (R163); none where the contents are shorter than the entry or the class
is no table. Contents beyond the entry's length are disregarded (R180). -/
def Bank.loadEntry (b : Bank) (c : RecordClass) (i : Nat) (bs : List Byte) : Option Bank :=
  match c with
  | .roster => (RosterEntry.decode bs).map fun e => { b with roster := setEntry b.roster i e }
  | .trackTable => (TrackEntry.decode bs).map fun e => { b with tracks := setEntry b.tracks i e }
  | .leverTable => (LeverEntry.decode bs).map fun e => { b with levers := setEntry b.levers i e }
  | .sectionTable => (SectionEntry.decode bs).map fun e => { b with sections := setEntry b.sections i e }
  | .lampTable => (LampEntry.decode bs).map fun e => { b with lamps := setEntry b.lamps i e }
  | .diagramTable => (DiagramEntry.decode bs).map fun e => { b with diagram := setEntry b.diagram i e }
  | .pool => (PoolEntry.decode bs).map fun e => { b with pool := b.pool.set i e }
  | .bellCode => (BellEntry.decode bs).map fun e => { b with bells := setEntry b.bells i e }
  | .lineSettings =>
    (LineSettings.decode bs).map fun e => if i = 0 then { b with lineA := e } else { b with lineB := e }
  | .timing => (Timing.decode bs).map fun e => { b with timing := e }
  | .group => bs.head?.map fun x => { b with groups := setEntry b.groups i x }
  | _ => none

/-! ### CRC-32 (R182) -/

/-- The generator of R182 below x^32: 26, 23, 22, 16, 12, 11, 10, 8, 7, 5, 4, 2, 1, 0. -/
def crc32Generator : Nat := 0x04C11DB7

/-- One bit fed to the CRC-32 register. -/
def crc32Bit (reg bit : Nat) : Nat :=
  let shifted := (reg * 2) % 2 ^ 32
  if (reg / 2 ^ 31 + bit) % 2 = 1 then Nat.xor shifted crc32Generator else shifted

/-- The low `k` bits of `n` fed to the CRC-32 register, least significant bit first (R182). -/
def crc32Bits : Nat → Nat → Nat → Nat
  | 0, _, reg => reg
  | k + 1, n, reg => forced (crc32Bit reg (n % 2)) fun r => crc32Bits k (n / 2) r

/-- Bytes fed to the CRC-32 register in order, each least significant bit first (R182). -/
def crc32Feed : List Byte → Nat → Nat
  | [], reg => reg
  | b :: bs, reg => forced (crc32Bits 8 b.toNat reg) fun r => crc32Feed bs r

/-- The 32 bits of a register in the opposite order. -/
def reflect32 (n : Nat) : Nat :=
  (List.range 32).foldl (fun acc i => acc * 2 + n / 2 ^ i % 2) 0

/-- CRC-32: register preset to all ones, each byte fed least significant bit first, the result reflected and then
complemented (R182). -/
def crc32 (bs : List Byte) : BitVec 32 :=
  BitVec.ofNat 32 (2 ^ 32 - 1 - reflect32 (crc32Feed bs (2 ^ 32 - 1)))

/-- The bytes that the CRC-32 of a bank covers: every entry of classes 11 to 21, in order of class and then of index,
followed by the edition (R182). -/
def Bank.bytes (b : Bank) : List Byte :=
  b.roster.flatMap RosterEntry.encode ++ b.tracks.flatMap TrackEntry.encode ++ b.levers.flatMap LeverEntry.encode
  ++ b.sections.flatMap SectionEntry.encode ++ b.lamps.flatMap LampEntry.encode
  ++ b.diagram.flatMap DiagramEntry.encode ++ b.pool.flatMap PoolEntry.encode ++ b.bells.flatMap BellEntry.encode
  ++ b.lineA.encode ++ b.lineB.encode ++ b.timing.encode ++ b.groups ++ be16 b.edition

/-- The CRC-32 over a bank's contents (R160, R182). -/
def Bank.crc32 (b : Bank) : BitVec 32 := Sys2Proof.crc32 b.bytes

/-! ### What the blocks read -/

/-- The numbers of a number list: its places that are not 0 (13.1; log entry 22). -/
def numbersOf (bs : List Byte) : List Nat := (bs.map BitVec.toNat).filter (· ≠ 0)

/-- Loop addresses of field units, 1..31. -/
def addresses : List Nat := List.range' 1 31

def Bank.rosterAt (b : Bank) (a : Nat) : RosterEntry := entryAt b.roster a

/-- The roster kind of an address; NONE for an address without an entry. -/
def Bank.kindAt (b : Bank) (a : Nat) : UnitKind := UnitKind.ofByte (b.rosterAt a).kind

/-- The objects that the channels of the unit at an address serve, 0 for an unused channel (R19, R20). -/
def Bank.channelObjects (b : Bank) (a : Nat) : List Nat :=
  ((b.rosterAt a).channels.take (b.kindAt a).channels).map BitVec.toNat

/-- The address and channel that serve object `n` of the type that units of kind `k` serve (R20). -/
def Bank.assignment (b : Bank) (k : UnitKind) (n : Nat) : Option (Nat × Nat) :=
  if 1 ≤ n ∧ n ≤ k.objects then
    addresses.findSome? fun a =>
      if b.kindAt a = k then ((b.channelObjects a).findIdx? (· == n)).map fun c => (a, c) else none
  else none

/-- An object is defined when one channel of the roster assigns it (R20). -/
def Bank.defined (b : Bank) (k : UnitKind) (n : Nat) : Bool := (b.assignment k n).isSome

/-- The defined objects of a type, by number. -/
def Bank.objects (b : Bank) (k : UnitKind) : List Nat := (List.range' 1 k.objects).filter (b.defined k)

/-- The assigned channels of the unit at an address, each with the object it serves. -/
def Bank.assignedChannels (b : Bank) (a : Nat) : List (Nat × Nat) :=
  ((b.channelObjects a).zipIdx.map fun p => (p.2, p.1)).filter fun p => p.2 ≠ 0

def Bank.trackEntry (b : Bank) (t : Nat) : TrackEntry := entryAt b.tracks t
def Bank.leverEntry (b : Bank) (l : Nat) : LeverEntry := entryAt b.levers l
def Bank.sectionEntry (b : Bank) (n : Nat) : SectionEntry := entryAt b.sections n
def Bank.lampEntry (b : Bank) (p : Nat) : LampEntry := entryAt b.lamps p
def Bank.diagramEntry (b : Bank) (o : Nat) : DiagramEntry := entryAt b.diagram o
def Bank.lineSettings (b : Bank) (l : Line) : LineSettings :=
  match l with
  | .a => b.lineA
  | .b => b.lineB

/-- The terminal's address: the address of the roster's MT entry (R19). -/
def Bank.terminal (b : Bank) : Option Nat := addresses.find? fun a => b.kindAt a = .mt

def TrackEntry.neighbourNumbers (e : TrackEntry) : List Nat := numbersOf e.neighbours
def TrackEntry.provingOn (e : TrackEntry) : Bool := e.proving = 1
def LeverEntry.approachTracks (e : LeverEntry) : List Nat := numbersOf e.approach
def SectionEntry.arrivalTracks (e : SectionEntry) : List Nat := numbersOf e.arrivals
def SectionEntry.lineOf (e : SectionEntry) : Line := Line.ofByte e.line
def SectionEntry.dir (e : SectionEntry) : Direction := Direction.ofByte e.direction

/-- An exit track is used by OUTBOUND and SINGLE sections only (R132, R135). -/
def SectionEntry.exitOf (e : SectionEntry) : Option Nat :=
  if e.dir = .inbound ∨ e.exitTrack = 0 then none else some e.exitTrack.toNat

/-- The defined section bound to a channel of a line (R119, R134; log entry 32 where two are). -/
def Bank.sectionAt (b : Bank) (l : Line) (ch : Nat) : Option Nat :=
  (b.objects .iu).find? fun n => (b.sectionEntry n).lineOf = l ∧ (b.sectionEntry n).channel.toNat = ch

/-- The defined sections bound to a line. -/
def Bank.sectionsOn (b : Bank) (l : Line) : List Nat :=
  (b.objects .iu).filter fun n => (b.sectionEntry n).lineOf = l

/-- The pool entries that a range covers, by index (R88). -/
def Bank.covered (b : Bank) (r : ListRange) : List (Nat × PoolEntry) :=
  (List.range' r.start.toNat r.count.toNat).map fun i => (i, b.pool.getD i default)

/-- The four 4-bit group fields of a bell pattern, group 1 first (13.1). -/
def patternFields (p : BitVec 16) : List Nat :=
  let n := p.toNat
  [n / 4096 % 16, n / 256 % 16, n / 16 % 16, n % 16]

/-- The groups of a pattern: its fields up to the last that is not 0 (13.1; log entry 29). -/
def patternGroups (p : BitVec 16) : List Nat := ((patternFields p).reverse.dropWhile (· == 0)).reverse

/-- The 2 bytes of a bell pattern as a number (13.1). -/
def patternCode (groups : List Nat) : Nat :=
  groups.getD 0 0 * 4096 + groups.getD 1 0 * 256 + groups.getD 2 0 * 16 + groups.getD 3 0

/-- An entry is empty when every byte of it is 0 (R118, R160; log entry 29). -/
def BellEntry.isEmpty (e : BellEntry) : Bool := e.pattern = 0 && e.cls = 0 && e.trainClass = 0

/-- The entry of the bell code table that holds a pattern (R125). -/
def Bank.bellEntry (b : Bank) (groups : List Nat) : Option BellEntry :=
  b.bells.find? fun e => !e.isEmpty && patternGroups e.pattern == groups

end Sys2Proof
end

