-- ==== Sys2Proof/Config.lean ====
section
/-! DEFINITION. What the manual fixes once for the whole part (capacities and durations, in 10 ms units), and the free
values: constants without a body for what the manual leaves open. -/

namespace Sys2Proof.Config

/-- The outbound queue holds up to 24 frames (R8). -/
def outQueueMax : Nat := 24
/-- The pending-return list holds up to 8 entries (R12). -/
def pendingMax : Nat := 8
/-- The event queue holds at most 64 entries (R178). -/
def eventMax : Nat := 64
/-- A line's transmit queue holds at most 16 messages (R113). -/
def lineQueueMax : Nat := 16

/-- Return timer, 20 ms (R12). -/
def returnTime : Nat := 2
/-- Loop watch timer, 20 ms (R15). -/
def watchTime : Nat := 2
/-- The transmitter takes no frame for 20 ms after a reset (R10). -/
def holdTime : Nat := 2
/-- Probe window, 100 ms (R22). -/
def probeTime : Nat := 10
/-- Re-probe timer, 10 s (R24). -/
def reprobeTime : Nat := 1000
/-- Start timer, 2 s (R173). -/
def startTime : Nat := 200

/-- FREE VALUE (log entry 12). What the non-volatile storage holds after a store whose read-back differs (R170: what the
storage holds is not known) or that a reset cuts short (R167: old, new or partly written). The argument counts the
occasions. -/
opaque storageUnknown : Nat → BankImage

/-- FREE VALUE (log entry 19). Whether the time to expiry that a line record shows for a running gap timer, whose two character
times are no whole number of 10 ms units, counts its odd part as a unit: by the line's rate and the units since the timer
started. -/
opaque gapRoundsUp : Nat → Nat → Bool

/-- FREE VALUE (log entry 25). The mode code of a diagram output of source LINE whose object is neither line. -/
opaque noLineMode : Byte → BitVec 2

end Sys2Proof.Config
end

