-- ==== Sys2Proof/Machine/State.lean ====
section
/-! DEFINITION. The state of the part, as plain data, and the state after power-on. -/

namespace Sys2Proof.Machine

/-- Records by object number or loop address: numbers strictly rising, one record each. -/
abbrev Recs (α : Type) := List (Nat × α)

/-- A frame in the outbound queue (1.4). Its class is its kind's, its age its place in the queue. -/
structure OutFrame where
  kind : FrameKind
  dest : Nat
  payload : List Byte := []
  /-- The frame is the DONE reply of a RESTART (R172). -/
  restart : Bool := false
  deriving DecidableEq, Repr

/-- The frame that the LOOP-OUT transmitter is sending (R10). -/
structure Sending where
  seq : Byte
  kind : FrameKind
  dest : Nat
  restart : Bool
  /-- The frame as its bytes leave LOOP-OUT (R2, 13.2). -/
  bytes : List Byte
  deriving DecidableEq, Repr

/-- An entry of the pending-return list (1.6). The timer is idle until the frame's last byte has left (R12). -/
structure PendingReturn where
  seq : Byte
  kind : FrameKind
  dest : Nat
  payload : List Byte
  timer : Option Time
  deriving DecidableEq, Repr

inductive LoopState where
  | broken | up
  deriving DecidableEq, Repr

/-- Unit record (2.2). A running timer is given by its expiry time. -/
structure UnitRec where
  state : UnitState := .probing
  probeCount : Nat := 0
  probeWindow : Option Time := none
  reprobe : Option Time := none
  report : Option Time := none
  obsKind : Option Byte := none
  obsSerial : Option (BitVec 32) := none
  obsEdition : Option Byte := none
  started : Bool := false
  /-- The faults of a DU's outputs, by channel (R158). -/
  faults : List OutputFault := List.replicate 16 .none
  deriving DecidableEq, Repr

/-- Track record (R38). -/
structure TrackRec where
  state : TrackState := .occupied
  cause : Option FailCause := none
  s : Nat := 0
  q : Nat := 0
  noisy : Nat := 0
  good : Nat := 0
  timer : Option Time := none
  exitSeen : Bool := false
  provedOnce : Bool := false
  unexpected : Bool := false
  deriving DecidableEq, Repr

/-- Lever record (R70). An active approach lock is given by its timer's expiry time. -/
structure LeverRec where
  position : Position := .unknown
  catchUp : Bool := false
  release : Release := .unknown
  lock : Lock := .locked
  violation : Bool := false
  strokeLoss : Bool := false
  /-- STROKE_LOSS has been raised in the stroke begun last: it is raised at most once in a stroke (R79; log entries 7 and
  35). -/
  lossTold : Bool := false
  approach : Option Time := none
  deriving DecidableEq, Repr

/-- Messages of a block line (R108). -/
inductive LineMsg where
  | stroke (channel : Nat)
  | instr (channel : Nat) (state : Instrument)
  | status (state0 state1 : Instrument)
  deriving DecidableEq, Repr

/-- Receiver of a line (R105, R109): HUNT, or ASSEMBLE with the header's code and the states received so far. -/
inductive Receiver where
  | hunt
  | assemble (header : Nat) (got : List Instrument)
  deriving DecidableEq, Repr

/-- Line record (R105). -/
structure LineRec where
  /-- The rate, status interval and link timeout in force; absent while the rate is unset (R117). -/
  settings : Option LineSettings := none
  receiver : Receiver := .hunt
  /-- The running time at which the gap timer was last started, while it runs (log entry 19). -/
  gapStart : Option Time := none
  discardRun : Nat := 0
  noisyReported : Bool := false
  link : Link := .down
  linkTimer : Option Time := none
  firstHeard : Option Time := none
  queue : List LineMsg := []
  statusTimer : Option Time := none
  startSeq : StartSeq := .idle
  /-- The message that the transmitter is sending (R114). -/
  sending : Option LineMsg := none
  /-- The receiver waits for one whole element of mark (R107). -/
  markHold : Bool := false
  deriving DecidableEq, Repr

/-- Recogniser (8.3); COLLECTING when `collecting` is set, otherwise IDLE. -/
structure Recogniser where
  collecting : Bool := false
  groups : List Nat := []
  last : Option Time := none
  invalid : Bool := false
  endTimer : Option Time := none
  deriving DecidableEq, Repr

/-- Exchange record (8.5); empty while its origin is absent. -/
structure Exchange where
  origin : Option Origin := none
  pattern : List Nat := []
  cls : Option BellClass := none
  trainClass : Option Nat := none
  status : ExStatus := .expired
  time : Time := 0
  ackTime : Option Time := none
  timer : Option Time := none
  deriving DecidableEq, Repr

/-- Section record (R133). -/
structure SectionRec where
  own : Instrument
  far : Instrument := .unknown
  commutator : Instrument := .unknown
  consumed : Bool := false
  progress : Progress := .seen 0
  disagreement : Bool := false
  deriving DecidableEq, Repr

/-- Lamp record (R147). -/
structure LampRec where
  state : LampState := .unknown
  last : Option LampState := none
  current : Option Nat := none
  alarm : Alarm := .quiet
  deriving DecidableEq, Repr

/-- The error that CHECK_BANK keeps (R164). -/
structure CheckFailure where
  error : CheckError
  table : RecordClass
  entry : Nat
  second : Nat
  deriving DecidableEq, Repr

/-- Check state of the shadow bank (R160). -/
inductive CheckState where
  | unchecked
  | passed (crc : BitVec 32)
  | failed (e : CheckFailure)
  deriving DecidableEq, Repr

/-- Trip record (R176). -/
structure TripRec where
  cause : TripCause
  object : Nat
  sent : Option Byte
  returned : Option Byte
  time : Time
  previous : PartState
  deriving DecidableEq, Repr

/-- An entry of the event queue (R178). -/
structure Event where
  kind : EventKind
  object : Nat
  detail : Nat
  time : Time
  gap : Bool
  deriving DecidableEq, Repr

/-- The state of the part. The field values given here are those after power-on (R18, R21, R54, R86, R117, R130, R146,
R153, R159, R160, R173, R175), with the storage of a part in which no bank has been stored (log entry 13). -/
@[ext]
structure State where
  /-- The commands that wait, first in, first out. -/
  pending : List Instr := []
  /-- KEY pin, as last sampled (log entry 3). -/
  key : Bool := false
  /-- RESET pin asserted: the part is held in reset (R175). -/
  inReset : Bool := false
  /-- Running time. -/
  now : Time := 0
  -- Loop controller
  outQueue : List OutFrame := []
  seq : Byte := 0
  sending : Option Sending := none
  /-- The 20 ms after a reset in which the transmitter takes no frame (R10). -/
  txHold : Option Time := some (BitVec.ofNat 32 Config.holdTime)
  pendingReturns : List PendingReturn := []
  /-- The addresses whose loss mark is set, strictly rising (1.6). -/
  lossMarks : List Nat := []
  /-- The refresh timers by address (R11). -/
  refresh : Recs Time := []
  loop : LoopState := .broken
  watch : Time := BitVec.ofNat 32 Config.watchTime
  -- Unit roster
  units : Recs UnitRec := []
  -- Track evaluator
  tracks : Recs TrackRec := []
  -- Lever and lock evaluator
  levers : Recs LeverRec := []
  -- Block line ports
  lineA : LineRec := {}
  lineB : LineRec := {}
  -- Bell recogniser
  incoming : Recs Recogniser := []
  here : Recs Recogniser := []
  exchanges : Recs Exchange := []
  obstructionA : Bool := false
  obstructionB : Bool := false
  -- Section block
  sections : Recs SectionRec := []
  -- Lamp prover and diagram
  lamps : Recs LampRec := []
  outputs : Recs Mode := []
  /-- Live intensities of groups 1..5; none held while no bank is in use (R159). -/
  groupLive : List Nat := []
  -- Table store
  stored : BankImage := {}
  active : Option BankImage := none
  shadow : Bank := {}
  check : CheckState := .unchecked
  /-- The store operation in progress: what it writes (R165). -/
  storeOp : Option BankImage := none
  -- Maintenance request handler
  /-- Completion of the switch is held (R168). -/
  switchHeld : Bool := false
  /-- The RESTART reply has been sent or dropped, so the restart reset is to be carried out (R172). -/
  restartDue : Bool := false
  /-- The source of the last MAINT_REQUEST handed to the MR since the reset (R179). -/
  lastRequester : Option Nat := none
  -- Supervisor
  part : PartState := .starting
  resetKind : ResetKind := .power
  startTimer : Option Time := none
  trip : Option TripRec := none
  events : List Event := []
  /-- MODEL'S OWN (log entry 12): how many free values of the storage have been drawn. -/
  freeCount : Nat := 0
  deriving DecidableEq, Repr

/-- The faults that stop the machine. There are none: the manual names no arrival that stops the part, and every meaning
answers a next state (log entry 28). -/
inductive Fault where
  deriving DecidableEq, Repr

/-- The refusals. -/
inductive Refusal where
  /-- Raised by exec's arm of a command that has no meaning yet; no arm does so now. Safe: nothing is claimed of the
  command. -/
  | notModelled (mnemonic : String)
  deriving DecidableEq, Repr

/-- The part right after power-on, RESET not asserted, no command waiting (R175; log entries 13 and 16). -/
def State.reset : State := {}

end Sys2Proof.Machine
end

