-- ==== Sys2Proof/Machine/Recs.lean ====
section
/-! DEFINITION. Reading and changing records kept by number. -/

namespace Sys2Proof.Machine

/-- The record of a number, where there is one. -/
def recAt (r : Recs α) (n : Nat) : Option α :=
  match r with
  | [] => none
  | (m, x) :: rest => if m = n then some x else recAt rest n

/-- The records with the record of a number changed by `f`; unchanged where there is none. -/
def modifyRec (r : Recs α) (n : Nat) (f : α → α) : Recs α := r.map fun p => if p.1 = n then (p.1, f p.2) else p

/-- The records with the record of a number made or replaced, the numbers kept rising. -/
def putRec (r : Recs α) (n : Nat) (x : α) : Recs α :=
  match r with
  | [] => [(n, x)]
  | (m, y) :: rest => if n < m then (n, x) :: (m, y) :: rest else if n = m then (n, x) :: rest else (m, y) :: putRec rest n x

/-- The records without the record of a number. -/
def dropRec (r : Recs α) (n : Nat) : Recs α := r.filter fun p => p.1 ≠ n

/-- Records made for a list of numbers. -/
def makeRecs (ns : List Nat) (f : Nat → α) : Recs α := ns.map fun n => (n, f n)

/-- Numbers strictly rising. -/
def rising : List Nat → Bool
  | [] => true
  | [_] => true
  | a :: b :: rest => decide (a < b) && rising (b :: rest)

/-- The record on a line. -/
def State.line (s : State) (l : Line) : LineRec :=
  match l with
  | .a => s.lineA
  | .b => s.lineB

/-- The obstruction flag of a line (R128). -/
def State.obstruction (s : State) (l : Line) : Bool :=
  match l with
  | .a => s.obstructionA
  | .b => s.obstructionB

/-- The recognisers of one side (8.2). -/
def State.recognisers (s : State) (x : Side) : Recs Recogniser :=
  match x with
  | .incoming => s.incoming
  | .here => s.here

/-- The tables of the bank in use. -/
def State.bank (s : State) : Option Bank := s.active.map BankImage.bank

/-- The state of the unit at an address is ACTIVE. -/
def State.unitActive (s : State) (a : Nat) : Bool :=
  match recAt s.units a with
  | some u => u.state = .active
  | none => false

end Sys2Proof.Machine
end

