-- ==== Sys2Proof/Machine/Flags.lean ====
section
/-! DEFINITION. What the blocks work out from the records: the conditions and lists of the locking table (R88 to R94),
SECTION_CLEAR and SECTION_BLOCKED (R136), the modes of the diagram outputs (R155), and the contents of the commands that
carry state (R74, R144, R157). -/

namespace Sys2Proof.Machine

/-! ### Conditions -/

/-- LEVER_NORMAL of a lever's record (R89). -/
def readsNormal (l : LeverRec) : Bool := l.position = .normal && !l.violation && l.approach.isNone

/-- LEVER_REVERSE of a lever's record (R90). -/
def readsReverse (l : LeverRec) : Bool := l.position = .reverse && !l.violation && !l.strokeLoss

/-- NORMAL_IF(m, x, pos) of the two levers' records (R91). -/
def readsNormalIf (m x : LeverRec) (pos : Byte) : Bool :=
  if m.violation || x.violation then false
  else if pos = 1 then
    match x.position with
    | .normal => readsNormal m
    | .reverse => true
    | _ => false
  else if pos = 2 then
    match x.position with
    | .reverse => readsNormal m
    | .normal => true
    | _ => false
  else false

/-- SECTION_CLEAR of a section's record, by the records that enter it (R136). -/
def sectionClearTest (dir : Direction) (part : PartState) (link : Link) (obstructed : Bool) (r : SectionRec) : Bool :=
  dir ≠ .inbound && part = .running && link = .up && r.far = .clear && !r.consumed && !obstructed
  && (dir ≠ .single || r.own = .blocked)

/-- SECTION_CLEAR(n) (R136); false of a section without a record. -/
def sectionClear (s : State) (b : Bank) (n : Nat) : Bool :=
  let e := b.sectionEntry n
  match recAt s.sections n with
  | some r => sectionClearTest e.dir s.part (s.line e.lineOf).link (s.obstruction e.lineOf) r
  | none => false

/-- SECTION_BLOCKED(n) (R93). -/
def sectionBlocked (s : State) (b : Bank) (n : Nat) : Bool :=
  match recAt s.sections n with
  | some r => (b.sectionEntry n).dir ≠ .outbound && r.own = .blocked
  | none => false

/-- A track reads as clear (00_scope.md, Occupied and clear; R92). -/
def trackClear (s : State) (t : Nat) : Bool :=
  match recAt s.tracks t with
  | some r => r.state = .clear
  | none => false

/-- LAMP_PROVEN (R92). -/
def lampProven (s : State) (p : Nat) : Bool :=
  match recAt s.lamps p with
  | some r => r.state = .lit
  | none => false

/-- An entry of the pool holds (R89 to R94). NONE holds no requirement (R87). A kind outside R87 fails (log entry 32). -/
def conditionHolds (s : State) (b : Bank) (e : PoolEntry) : Bool :=
  let n := e.object.toNat
  if e.kind = 0 then true
  else if e.kind = 1 then (match recAt s.levers n with | some l => readsNormal l | none => false)
  else if e.kind = 2 then (match recAt s.levers n with | some l => readsReverse l | none => false)
  else if e.kind = 3 then
    (match recAt s.levers n, recAt s.levers e.second.toNat with
     | some m, some x => readsNormalIf m x e.position
     | _, _ => false)
  else if e.kind = 4 then trackClear s n
  else if e.kind = 5 then sectionClear s b n
  else if e.kind = 6 then sectionBlocked s b n
  else if e.kind = 7 then lampProven s n
  else false

/-- A list holds when every condition in its range holds (R88). -/
def listHolds (s : State) (b : Bank) (r : ListRange) : Bool := (b.covered r).all fun e => conditionHolds s b e.2

/-- The release test of a lever at an end, by the range of the list for that end (R72). -/
def releaseTest (s : State) (b : Bank) (n : Nat) (l : LeverRec) (r : ListRange) : Bool :=
  l.catchUp && s.part = .running
  && (match b.assignment .lfu n with | some (a, _) => s.unitActive a | none => false)
  && !l.violation && LeverKind.ofByte (b.leverEntry n).kind ≠ .spare && listHolds s b r

/-! ### Modes of the diagram outputs (R155) -/

/-- The first mode of the row that applies (R155). -/
def firstMode (fast slow steady : Bool) : Mode :=
  if fast then .flashFast else if slow then .flashSlow else if steady then .steady else .off

def trackMode (r : TrackRec) : Mode :=
  firstMode (r.state = .suspect || r.state = .failed) false (r.state = .occupied || r.state = .pickingUp)

def leverMode (l : LeverRec) : Mode :=
  firstMode (l.violation || l.position = .fault || l.position = .unknown) l.strokeLoss
    (l.position = .reverse || l.position = .mid)

def ownMode (r : SectionRec) : Mode := firstMode r.disagreement (r.own = .clear) (r.own = .onLine)

def farMode (r : SectionRec) : Mode := firstMode (r.far = .unknown) (r.far = .clear) (r.far = .onLine)

def exchangeMode (x : Exchange) : Mode :=
  if x.origin.isNone then .off else firstMode (x.status = .misrepeated) (x.status = .awaiting) false

def alarmMode (r : LampRec) : Mode := firstMode (r.alarm = .alarm) (r.alarm = .recovered) (r.alarm = .accepted)

def linkMode (r : LineRec) : Mode := firstMode (r.link = .down) false false

def unitMode (u : UnitRec) : Mode :=
  firstMode (u.state = .silent || u.state = .absent || u.state = .mismatch) (u.state = .probing) false

def partMode (p : PartState) : Mode := firstMode (p = .tripped) false (p = .starting || p = .switching)

/-- The mode computed from the source record of a diagram table entry. A source kind outside R154, and a source without a
record, give OFF (log entry 32). -/
def sourceMode (s : State) (e : DiagramEntry) : Mode :=
  let n := e.object.toNat
  let src := e.source.toNat
  if src = 1 then ((recAt s.tracks n).map trackMode).getD .off
  else if src = 2 then ((recAt s.levers n).map leverMode).getD .off
  else if src = 3 then ((recAt s.sections n).map ownMode).getD .off
  else if src = 4 then ((recAt s.sections n).map farMode).getD .off
  else if src = 5 then ((recAt s.exchanges n).map exchangeMode).getD .off
  else if src = 6 then ((recAt s.lamps n).map alarmMode).getD .off
  else if src = 7 then
    (if n = 0 then linkMode s.lineA else if n = 1 then linkMode s.lineB
     else Mode.ofCode (Config.noLineMode e.object).toNat)
  else if src = 8 then ((recAt s.units n).map unitMode).getD .off
  else if src = 9 then partMode s.part
  else .off

/-- The live intensity of a display group (R156). -/
def groupIntensity (s : State) (g : Nat) : Nat := if g = 0 then 15 else s.groupLive.getD (g - 1) 0

/-! ### Contents of the commands that carry state (13.2) -/

/-- The exchange-awaiting lamp is lit (R144). -/
def awaitingLamp (x : Exchange) : Bool := x.origin.isSome && (x.status = .awaiting || x.status = .misrepeated)

/-- A LOCK_SET for the LFU at an address (R74). -/
def lockPayload (s : State) (b : Bank) (a : Nat) : List Byte :=
  let free := (b.assignedChannels a).filter fun p =>
    match recAt s.levers p.2 with
    | some l => l.lock = .free
    | none => false
  [b1 ((free.map fun p => 2 ^ p.1).sum)]

/-- The two bytes of one channel of a REPEATER_SET (R20, R144). -/
def repeaterBytes (s : State) (n : Nat) : List Byte :=
  match recAt s.sections n with
  | some r =>
    [b1 (r.far.code + 16 * r.own.code),
     b1 (r.disagreement.toNat + 2 * (((recAt s.exchanges n).map awaitingLamp).getD false).toNat)]
  | none => [b1 (16 * Instrument.blocked.code), 0]

/-- A REPEATER_SET for the IU at an address (R144). -/
def repeaterPayload (s : State) (b : Bank) (a : Nat) : List Byte :=
  ([0, 1].map fun ch => repeaterBytes s ((b.channelObjects a).getD ch 0)).flatten

/-- One byte of a DIAGRAM_SET (R20, R157). -/
def diagramByte (s : State) (b : Bank) (o : Nat) : Byte :=
  match recAt s.outputs o with
  | some m => b1 (groupIntensity s (b.diagramEntry o).group.toNat % 16 + 16 * m.code)
  | none => 0

/-- A DIAGRAM_SET for the DU at an address (R157). -/
def diagramPayload (s : State) (b : Bank) (a : Nat) : List Byte :=
  (List.range 16).map fun ch => diagramByte s b ((b.channelObjects a).getD ch 0)

/-- The command that carries the state of the unit at an address, with its present contents (R11). -/
def stateCommand (s : State) (b : Bank) (a : Nat) : Option OutFrame :=
  match b.kindAt a with
  | .lfu => some { kind := .lockSet, dest := a, payload := lockPayload s b a }
  | .iu => some { kind := .repeaterSet, dest := a, payload := repeaterPayload s b a }
  | .du => some { kind := .diagramSet, dest := a, payload := diagramPayload s b a }
  | _ => none

end Sys2Proof.Machine
end

