-- ==== Sys2Proof/Machine/Operands.lean ====
section
/-! DEFINITION. Reading the operands of the commands: loop frames and their CRC-16 (13.2, R182), the contents of each
report (13.2, R180), and the samples of a line character (R106, R107, R108). -/

namespace Sys2Proof.Machine

/-! ### CRC-16 (R182) -/

/-- One bit fed to the CRC-16 register; generator x^16+x^12+x^5+1 (R2). -/
def crc16Bit (reg bit : Nat) : Nat :=
  let shifted := (reg * 2) % 2 ^ 16
  if (reg / 2 ^ 15 + bit) % 2 = 1 then Nat.xor shifted 0x1021 else shifted

/-- The low `k` bits of `n` fed to the CRC-16 register, most significant bit first (R182). -/
def crc16Bits : Nat → Nat → Nat → Nat
  | 0, _, reg => reg
  | k + 1, n, reg => forced (crc16Bit reg (n / 2 ^ k % 2)) fun r => crc16Bits k n r

def crc16Feed : List Byte → Nat → Nat
  | [], reg => reg
  | b :: bs, reg => forced (crc16Bits 8 b.toNat reg) fun r => crc16Feed bs r

/-- CRC-16: register preset to all ones, no reflection, no final inversion (R182). -/
def crc16 (bs : List Byte) : BitVec 16 := BitVec.ofNat 16 (crc16Feed bs (2 ^ 16 - 1))

/-! ### Loop frames (13.2) -/

def destOf (f : Frame) : Nat := f.b0.toNat % 32
def takenOf (f : Frame) : Bool := f.b0.getLsbD 7
def srcOf (f : Frame) : Nat := f.b1.toNat % 32

/-- The bytes that the CRC-16 of a frame covers: bytes 0 up to the last payload byte (R182). -/
def coveredBytes (kind : Byte) (f : Frame) : List Byte :=
  f.b0 :: f.b1 :: f.seq :: kind :: BitVec.ofNat 8 f.payload.length :: f.payload

/-- A frame is valid when its CRC agrees and its payload is at least as long as its kind requires (R2); a payload has at
most 24 bytes (13.2). -/
def frameValid (kind : Byte) (f : Frame) : Bool :=
  decide (f.payload.length ≤ 24) && decide (payloadLength kind.toNat ≤ f.payload.length)
  && crc16 (coveredBytes kind f) == f.crcHigh ++ f.crcLow

/-- The frame with its CRC computed over its other contents. -/
def withCrc (kind : Byte) (f : Frame) : Frame :=
  let crc := crc16 (coveredBytes kind f)
  { f with crcHigh := crc.extractLsb' 8 8, crcLow := crc.extractLsb' 0 8 }

/-- The bytes of a frame in the order in which they travel: those that the CRC covers, then the CRC, high byte first (13.2,
R182). -/
def frameBytes (kind : Byte) (f : Frame) : List Byte := coveredBytes kind f ++ [f.crcHigh, f.crcLow]

/-- A frame that the part sends: the taken mark clear, source 0, the sequence number given, the CRC computed (R2). -/
def sentFrame (seq : Byte) (kind : FrameKind) (dest : Nat) (payload : List Byte) : Frame :=
  withCrc kind.code ⟨BitVec.ofNat 8 (dest % 32), 0, seq, payload, 0, 0⟩

/-- A unit's frame to the part: destination 0, sequence number 0 (R2). -/
def unitFrame (src : Nat) (kind : FrameKind) (payload : List Byte) : Frame :=
  withCrc kind.code ⟨0, BitVec.ofNat 8 src, 0, payload, 0, 0⟩

/-- The frame that carries a request (13.4). -/
def requestFrame (code : Byte) (r : RequestFrame) : Frame :=
  ⟨r.b0, r.b1, r.seq, r.tag :: code :: r.params, r.crcHigh, r.crcLow⟩

/-! ### Report contents (13.2) -/

def byteAt (bs : List Byte) (i : Nat) : Byte := bs.getD i 0

/-- LEVER_REPORT: position from the two contacts of a channel (R71). -/
def reportedPosition (bs : List Byte) (ch : Nat) : Position :=
  match (byteAt bs ch).getLsbD 0, (byteAt bs ch).getLsbD 1 with
  | true, false => .normal
  | false, true => .reverse
  | false, false => .mid
  | true, true => .fault

/-- LEVER_REPORT: catch of a channel. -/
def reportedCatch (bs : List Byte) (ch : Nat) : Bool := (byteAt bs ch).getLsbD 2

/-- The `i`-th of the 12-bit values packed in pairs, each pair in 3 bytes. -/
def packed12 (bs : List Byte) (i : Nat) : Nat :=
  let x := (byteAt bs (i / 2 * 3)).toNat
  let y := (byteAt bs (i / 2 * 3 + 1)).toNat
  let z := (byteAt bs (i / 2 * 3 + 2)).toNat
  if i % 2 = 0 then x * 16 + y / 16 else y % 16 * 256 + z

/-- The levels of one channel of a TRACK_SAMPLE. -/
structure Sample where
  f : Nat
  v1 : Nat
  v2 : Nat
  v3 : Nat
  deriving DecidableEq, Repr

def sampleAt (bs : List Byte) (ch : Nat) : Sample :=
  ⟨packed12 bs (4 * ch), packed12 bs (4 * ch + 1), packed12 bs (4 * ch + 2), packed12 bs (4 * ch + 3)⟩

/-- INSTR_REPORT: commutator position of a channel; code 0 is read as UNKNOWN (R180). -/
def reportedCommutator (bs : List Byte) (ch : Nat) : Instrument := Instrument.ofCode ((byteAt bs ch).toNat % 4)

/-- INSTR_REPORT: tapper-stroke mark of a channel. -/
def tapperMark (bs : List Byte) (ch : Nat) : Bool := (byteAt bs ch).getLsbD 7

/-- INSTR_REPORT: acknowledge-push mark. -/
def acknowledgeMark (bs : List Byte) : Bool := (byteAt bs 2).getLsbD 0

/-- DIAG_REPORT: fault of a channel, channel 0 in bits 6 and 7 of the first byte. -/
def reportedFault (bs : List Byte) (ch : Nat) : OutputFault :=
  OutputFault.ofCode ((byteAt bs (ch / 4)).toNat / 2 ^ (6 - 2 * (ch % 4)) % 4)

/-! ### Line characters (R106, R107, R108) -/

/-- The number of marks among three samples. -/
def marks (x : BitVec 3) : Nat := (x.getLsbD 0).toNat + (x.getLsbD 1).toNat + (x.getLsbD 2).toNat

/-- The majority of three samples: mark or space. -/
def majority (x : BitVec 3) : Bool := decide (2 ≤ marks x)

/-- The three samples do not agree (R107). -/
def disagrees (x : BitVec 3) : Bool := marks x ≠ 0 && marks x ≠ 3

/-- A character as handed to assembly (R107). -/
structure Character where
  value : Nat
  markBit : Bool
  noise : Bool
  framing : Bool
  brk : Bool
  deriving DecidableEq, Repr

/-- The value of the eight data elements, least significant bit first (13.3). -/
def dataValue : List (BitVec 3) → Nat
  | [] => 0
  | x :: xs => (majority x).toNat + 2 * dataValue xs

/-- Every sample set of a character, in order. -/
def sampleSets (x : LineSamples) : List (BitVec 3) := x.start :: x.data ++ [x.markBit, x.stop]

/-- The character that the samples give (R106, R107); none where the start is not confirmed. A break is a character every
one of whose elements reads space. -/
def readCharacter (x : LineSamples) : Option Character :=
  if majority x.start then none
  else
    let brk := (sampleSets x).all fun e => !majority e
    some { value := dataValue x.data, markBit := majority x.markBit, noise := (sampleSets x).any disagrees,
           framing := !majority x.stop && !brk, brk := brk }

/-- A character has no mark set and the upper half of its value is the complement of the lower half (R108). -/
def characterSound (c : Character) : Bool :=
  !c.noise && !c.framing && !c.brk && decide (c.value / 16 = 15 - c.value % 16)

/-- The header code of a valid header: kind × 2 + channel, 0 to 4 (R108, 13.3). -/
def headerCode (c : Character) : Option Nat :=
  if characterSound c && c.markBit && decide (c.value % 16 ≤ 4) then some (c.value % 16) else none

/-- The state of a valid data character (R108). -/
def dataState (c : Character) : Option Instrument :=
  if characterSound c && !c.markBit && decide (1 ≤ c.value % 16 ∧ c.value % 16 ≤ 3) then
    some (Instrument.ofCode (c.value % 16))
  else none

/-- A character of the low half `n`, as a sender sends it (R108, R114). -/
def soundCharacter (n : Nat) (markBit : Bool) : Character :=
  { value := (15 - n % 16) * 16 + n % 16, markBit := markBit, noise := false, framing := false, brk := false }

/-- The characters of a message: its header, then its data (R108, 13.3). -/
def messageCharacters : LineMsg → List Character
  | .stroke ch => [soundCharacter ch true]
  | .instr ch st => [soundCharacter (2 + ch) true, soundCharacter st.code false]
  | .status s0 s1 => [soundCharacter 4 true, soundCharacter s0.code false, soundCharacter s1.code false]

/-- The samples of a character on a quiet line. -/
def cleanSamples (value : Nat) (markBit : Bool) : LineSamples :=
  { start := 0, data := (List.range 8).map fun i => if value / 2 ^ i % 2 = 1 then 7 else 0,
    markBit := if markBit then 7 else 0, stop := 7 }

end Sys2Proof.Machine
end

