-- ==== Sys2Proof/Machine/Ops.lean ====
section
/-! DEFINITION. The shared operations: running time, the event queue (R178, R179), the outbound queue and its arbiter
(R8 to R11), the probing of units (R22 to R24), and the transmit queues of the lines (R113, R114). -/

namespace Sys2Proof.Machine

/-! ### Running time -/

/-- The running time moved on by the units passed since the arrival before (log entry 1). -/
def State.advance (s : State) (dt : Time) : State := { s with now := s.now + dt }

/-- A running timer's expiry is not taken before its time (log entry 2). -/
def State.warp (s : State) (expiry : Time) : State := if expiry.notBefore s.now then { s with now := expiry } else s

/-- The running time `units` from now. -/
def State.after (s : State) (units : Nat) : Time := s.now.plus units

/-- An arrival's effect: none while the part is held in reset (R175; log entry 15). -/
def arrival (s : State) (dt : Time) (effect : State → State) : State := if s.inReset then s else effect (s.advance dt)

/-- The record of a unit changed by `f`. -/
def modifyUnit (s : State) (a : Nat) (f : UnitRec → UnitRec) : State := { s with units := modifyRec s.units a f }

/-! ### The transmitter (R10, R11, R12, R22) -/

/-- The oldest frame of class `c`, and the queue without it. -/
def takeOldest (c : Nat) (q : List OutFrame) : Option (OutFrame × List OutFrame) :=
  match q with
  | [] => none
  | f :: rest =>
    if f.kind.cls = c then some (f, rest)
    else
      match takeOldest c rest with
      | some (g, kept) => some (g, f :: kept)
      | none => none

/-- The frame that the arbiter takes: the oldest of the most urgent class present (R10). -/
def takeMostUrgent (q : List OutFrame) : Option (OutFrame × List OutFrame) :=
  [1, 2, 3, 4].findSome? fun c => takeOldest c q

/-- A unit waits for an answer to a probe. -/
def UnitRec.probed (u : UnitRec) : Bool := u.state = .probing || u.state = .absent

/-- The probe window of a unit that waits for an answer, started at a probe's taking (R22). -/
def startWindow (expiry : Time) (u : UnitRec) : UnitRec := if u.probed then { u with probeWindow := some expiry } else u

/-- A running probe window, set again when the probe's last byte has left (R22; log entry 10). -/
def restartWindow (expiry : Time) (u : UnitRec) : UnitRec :=
  if u.probed && u.probeWindow.isSome then { u with probeWindow := some expiry } else u

/-- The refresh timer of an address, restarted for its full period when a frame of its kind is taken (R11). -/
def restartRefresh (s : State) (kind : FrameKind) (a : Nat) : State :=
  match s.bank with
  | some b =>
    if (b.kindAt a).refreshed = some kind then
      { s with refresh := modifyRec s.refresh a fun _ => s.after kind.period }
    else s
  | none => s

/-- The transmitter takes a frame: sequence number, pending entry, refresh timer and probe window (R10, R11, R12, R22). -/
def takeFrame (s : State) (f : OutFrame) (rest : List OutFrame) : State :=
  let taken : State :=
    { s with outQueue := rest, seq := s.seq + 1,
             sending := some { seq := s.seq, kind := f.kind, dest := f.dest, restart := f.restart,
                               bytes := frameBytes f.kind.code (sentFrame s.seq f.kind f.dest f.payload) },
             pendingReturns := s.pendingReturns ++
               [{ seq := s.seq, kind := f.kind, dest := f.dest, payload := f.payload, timer := none }] }
  let probed := if f.kind = .identProbe then modifyUnit taken f.dest (startWindow (s.after Config.probeTime)) else taken
  restartRefresh probed f.kind f.dest

/-- The transmitter may take a frame (R10). -/
def transmitterFree (s : State) : Bool :=
  s.txHold.isNone && s.sending.isNone && s.pendingReturns.length < Config.pendingMax

/-- The arbiter of the outbound queue (R10). -/
def arbiter (s : State) : State :=
  if transmitterFree s then
    match takeMostUrgent s.outQueue with
    | some (f, rest) => takeFrame s f rest
    | none => s
  else s

/-- The outbound queue after a frame joined it; a frame that joins an empty queue is taken at once where the transmitter is
free (R10). -/
def queueJoined (s : State) (q : List OutFrame) : State :=
  let queued : State := { s with outQueue := q }
  if s.outQueue.isEmpty then arbiter queued else queued

/-- Entries leave the pending-return list; where they leave a full one, the arbiter applies at once (R10). -/
def entriesLeave (s : State) (kept : List PendingReturn) : State :=
  let left : State := { s with pendingReturns := kept }
  if s.pendingReturns.length < Config.pendingMax then left else arbiter left

/-! ### The event queue (R178, R179) -/

/-- The gap flag set on the oldest entry. -/
def markGap : List Event → List Event
  | [] => []
  | e :: es => { e with gap := true } :: es

/-- An event joins at the young end; a full queue loses its oldest first (R178). -/
def joined (q : List Event) (e : Event) : List Event :=
  if q.length < Config.eventMax then q ++ [e] else markGap (q.drop (q.length + 1 - Config.eventMax) ++ [e])

/-- An event joins the queue, no notice considered. -/
def joinEvent (s : State) (k : EventKind) (object detail : Nat) : State :=
  { s with events := joined s.events { kind := k, object := object, detail := detail, time := s.now, gap := false } }

/-- The address that an EVENT_NOTICE goes to (R179). -/
def noticeAddress (s : State) : Option Nat :=
  match s.bank with
  | some b => b.terminal
  | none => s.lastRequester

/-- An EVENT_NOTICE joins the outbound queue; dropped from a full one, it raises FRAME_DROPPED and no notice (R179). -/
def placeNotice (s : State) (a : Nat) : State :=
  if s.outQueue.length < Config.outQueueMax then
    queueJoined s (s.outQueue ++ [{ kind := .eventNotice, dest := a }])
  else joinEvent s .frameDropped a FrameKind.eventNotice.code

/-- A block raises an event (R178); joining an empty queue, it has a notice placed (R179). -/
def raise (s : State) (k : EventKind) (object detail : Nat) : State :=
  let joinedState := joinEvent s k object detail
  if s.events.isEmpty then
    match noticeAddress s with
    | some a => placeNotice joinedState a
    | none => joinedState
  else joinedState

/-- Events raised in order, each a kind, an object and a detail. -/
def raiseAll (s : State) (es : List (EventKind × Nat × Nat)) : State :=
  es.foldl (fun s e => raise s e.1 e.2.1 e.2.2) s

/-! ### The outbound queue (R8, R9) -/

/-- Commands that carry state: a queued one is replaced (R8). -/
def carriesState : FrameKind → Bool
  | .lockSet | .repeaterSet | .diagramSet => true
  | _ => false

/-- The queue without its newest frame of class `c`, and that frame. -/
def takeNewest (c : Nat) (q : List OutFrame) : Option (OutFrame × List OutFrame) :=
  match q with
  | [] => none
  | f :: rest =>
    match takeNewest c rest with
    | some (g, kept) => some (g, f :: kept)
    | none => if f.kind.cls = c then some (f, rest) else none

/-- The queue after a frame is placed in it, and the frame that is dropped (R8, R9). -/
def queueJoin (q : List OutFrame) (f : OutFrame) : List OutFrame × Option OutFrame :=
  let same := fun g : OutFrame => carriesState f.kind && g.kind = f.kind && g.dest = f.dest
  if q.any same then (q.map fun g => if same g then { g with payload := f.payload } else g, none)
  else if q.length < Config.outQueueMax then (q ++ [f], none)
  else if 3 ≤ f.kind.cls then (q, some f)
  else
    match takeNewest 4 q with
    | some (g, kept) => (kept ++ [f], some g)
    | none =>
      match takeNewest 3 q with
      | some (g, kept) => (kept ++ [f], some g)
      | none => (q, some f)

/-- The detail of UNIT_STATE (13.6). -/
def unitChange (old new : UnitState) : Nat := old.code * 256 + new.code

/-- A probe window of the unit at an address ends without an answer (R22, R23, R24); `placeProbe` places the further probe. -/
def windowEnd (placeProbe : State → OutFrame → State) (s : State) (a : Nat) : State :=
  match recAt s.units a with
  | some u =>
    match u.state with
    | .probing =>
      if u.probeCount + 1 < 3 then
        placeProbe (modifyUnit s a fun v => { v with probeWindow := none, probeCount := u.probeCount + 1 })
          { kind := .identProbe, dest := a }
      else
        let made := modifyUnit s a fun v =>
          { v with state := .absent, probeWindow := none, probeCount := 3,
                   reprobe := some (s.after Config.reprobeTime), started := true }
        raise made .unitState a (unitChange .probing .absent)
    | .absent => modifyUnit s a fun v => { v with probeWindow := none }
    | _ => s
  | none => s

/-- A block places a frame (R8, R9). A dropped frame raises FRAME_DROPPED; a dropped probe is a probe window's end (R22);
the dropped reply of a RESTART makes the restart reset due (R172). `fuel` bounds the probes dropped one upon another. -/
def placeFuel : Nat → State → OutFrame → State
  | fuel, s, f =>
    let queued := queueJoined s (queueJoin s.outQueue f).1
    match (queueJoin s.outQueue f).2 with
    | none => queued
    | some x =>
      let dropped := raise { queued with restartDue := queued.restartDue || x.restart } .frameDropped x.dest x.kind.code
      if x.kind = .identProbe then
        match fuel with
        | 0 => dropped
        | k + 1 => windowEnd (placeFuel k) dropped x.dest
      else dropped

/-- A block places a frame (R8, R9); three windows at most follow one another (R23). -/
def place (s : State) (f : OutFrame) : State := placeFuel 3 s f

def placeAll (s : State) (fs : List OutFrame) : State := fs.foldl place s

/-! ### The unit roster's moves (R22, R34) -/

/-- A unit enters PROBING: UNIT_STATE where its state changes (R34), and a probe (R22). That the notice of UNIT_STATE joins the
outbound queue before the probe is the model's choice (log entry 4). -/
def enterProbing (s : State) (a : Nat) : State :=
  match recAt s.units a with
  | some u =>
    let reset := modifyUnit s a fun v =>
      { v with state := .probing, probeCount := 0, probeWindow := none, reprobe := none, report := none }
    let told := if u.state = .probing then reset else raise reset .unitState a (unitChange u.state .probing)
    place told { kind := .identProbe, dest := a }
  | none => s

/-! ### The transmit queues of the lines (R113, R114) -/

/-- The record of a line changed by `f`. -/
def modifyLine (s : State) (l : Line) (f : LineRec → LineRec) : State :=
  match l with
  | .a => { s with lineA := f s.lineA }
  | .b => { s with lineB := f s.lineB }

/-- Two messages of which the later replaces the earlier (R113). -/
def LineMsg.replaces : LineMsg → LineMsg → Bool
  | .instr c _, .instr d _ => c = d
  | .status _ _, .status _ _ => true
  | _, _ => false

def LineMsg.isStroke : LineMsg → Bool
  | .stroke _ => true
  | _ => false

/-- The queue without its youngest STROKE, and the channel of that stroke. -/
def takeYoungestStroke (q : List LineMsg) : Option (Nat × List LineMsg) :=
  match q with
  | [] => none
  | m :: rest =>
    match takeYoungestStroke rest with
    | some (c, kept) => some (c, m :: kept)
    | none =>
      match m with
      | .stroke c => some (c, rest)
      | _ => none

/-- A transmit queue after a message is placed in it, and the channel of a stroke that is dropped (R113). A full queue
always holds a stroke; one without would keep what it holds (log entry 32). -/
def lineJoin (link : Link) (q : List LineMsg) (m : LineMsg) : List LineMsg × Option Nat :=
  match m with
  | .stroke c => if link = .up && q.length < Config.lineQueueMax then (q ++ [m], none) else (q, some c)
  | _ =>
    if q.any fun x => m.replaces x then (q.map fun x => if m.replaces x then m else x, none)
    else if q.length < Config.lineQueueMax then (q ++ [m], none)
    else
      match takeYoungestStroke q with
      | some (c, kept) => (kept ++ [m], some c)
      | none => (q, none)

/-- A message is placed in the transmit queue of a line (R113). -/
def placeLine (s : State) (l : Line) (m : LineMsg) : State :=
  let r := s.line l
  let queued := modifyLine s l fun x => { x with queue := (lineJoin r.link r.queue m).1 }
  match (lineJoin r.link r.queue m).2 with
  | some c => raise queued .strokeDropped l.code c
  | none => queued

/-- The strokes of a queue, by channel. -/
def strokesOf (q : List LineMsg) : List Nat :=
  q.filterMap fun m => match m with | .stroke c => some c | _ => none

/-- The message that a line's arbiter takes, and what it leaves: the oldest STROKE, else the oldest INSTR, else the STATUS
(R114). -/
def takeMessage (q : List LineMsg) : Option (LineMsg × List LineMsg) :=
  let first := fun p : LineMsg → Bool => (q.find? p).map fun m => (m, q.eraseP p)
  match first LineMsg.isStroke with
  | some r => some r
  | none =>
    match first (fun m => match m with | .instr _ _ => true | _ => false) with
    | some r => some r
    | none => first fun _ => true

/-- A line's transmitter may take a message: it is free, it has its rate, and its start sequence is idle (R114). -/
def LineRec.free (r : LineRec) : Bool := r.settings.isSome && r.sending.isNone && r.startSeq = .idle

/-- The arbiter of one line's transmit queue, on its record (R114). -/
def LineRec.arbiter (r : LineRec) : LineRec :=
  if r.free then
    match takeMessage r.queue with
    | some (m, rest) => { r with queue := rest, sending := some m }
    | none => r
  else r

/-- Every transmitter that is free takes what stands for it, at the end of an arrival (R10, R114; log entry 5): LOOP-OUT's
has taken it already where a frame joined an empty queue. -/
def arbiters (s : State) : State :=
  let sent := arbiter s
  { sent with lineA := sent.lineA.arbiter, lineB := sent.lineB.arbiter }

/-- The own state sent for a channel of a line: BLOCKED where no section is bound to it (R115). -/
def ownOnChannel (s : State) (b : Bank) (l : Line) (ch : Nat) : Instrument :=
  match b.sectionAt l ch with
  | some n => ((recAt s.sections n).map SectionRec.own).getD .blocked
  | none => .blocked

/-- The STATUS of a line with the present own states (R115). -/
def statusMessage (s : State) (b : Bank) (l : Line) : LineMsg := .status (ownOnChannel s b l 0) (ownOnChannel s b l 1)

/-! ### Records of the other blocks -/

def modifyTrack (s : State) (t : Nat) (f : TrackRec → TrackRec) : State := { s with tracks := modifyRec s.tracks t f }
def modifyLever (s : State) (n : Nat) (f : LeverRec → LeverRec) : State := { s with levers := modifyRec s.levers n f }
def modifySection (s : State) (n : Nat) (f : SectionRec → SectionRec) : State :=
  { s with sections := modifyRec s.sections n f }
def modifyExchange (s : State) (n : Nat) (f : Exchange → Exchange) : State :=
  { s with exchanges := modifyRec s.exchanges n f }
def modifyLamp (s : State) (p : Nat) (f : LampRec → LampRec) : State := { s with lamps := modifyRec s.lamps p f }
def modifyRecogniser (s : State) (x : Side) (n : Nat) (f : Recogniser → Recogniser) : State :=
  match x with
  | .incoming => { s with incoming := modifyRec s.incoming n f }
  | .here => { s with here := modifyRec s.here n f }

def setObstruction (s : State) (l : Line) (x : Bool) : State :=
  match l with
  | .a => { s with obstructionA := x }
  | .b => { s with obstructionB := x }

end Sys2Proof.Machine
end

