-- ==== Sys2Proof/Machine/Check.lean ====
section
/-! DEFINITION. CHECK_BANK (R164): the checks a bank must pass, in their order, the first error found being the result. -/

namespace Sys2Proof.Machine

/-- An error in an entry of a table. -/
def failure (e : CheckError) (t : RecordClass) (entry : Nat) (second : Nat := 0) : CheckFailure := ⟨e, t, entry, second⟩

/-- The failure where a fault is present. -/
def faultIf (p : Bool) (f : CheckFailure) : Option CheckFailure := if p then some f else none

/-- The first failure of a list of checks. -/
def firstOf (cs : List (Option CheckFailure)) : Option CheckFailure := cs.findSome? id

/-- The first failure over numbers in order. -/
def firstOver (ns : List Nat) (f : Nat → Option CheckFailure) : Option CheckFailure := ns.findSome? f

/-- A number occurs twice in a list. -/
def holdsTwice : List Nat → Bool
  | [] => false
  | x :: xs => xs.contains x || holdsTwice xs

/-! ### The roster (R19) -/

/-- ROSTER_KIND of one entry (R19). -/
def rosterFaulty (e : RosterEntry) : Bool :=
  let k := UnitKind.ofByte e.kind
  6 < e.kind.toNat
  || (decide (1 ≤ e.kind.toNat ∧ e.kind.toNat ≤ 5) && !decide (1 ≤ e.timeout.toNat ∧ e.timeout.toNat ≤ 50))
  || (e.channels.take k.channels).any (fun c => k.objects < c.toNat)
  || ((k = .mt || k = .none) && e.channels.any fun c => c ≠ 0)

/-- The table whose entries describe the objects of a unit kind (R164). -/
def objectTable : UnitKind → RecordClass
  | .lfu => .leverTable | .tu => .trackTable | .lu => .lampTable | .iu => .sectionTable | .du => .diagramTable
  | .mt | .none => .roster

/-- Every assignment of a roster in order of address and channel: the kind, the object and the address (R164). -/
def assignments (b : Bank) : List (UnitKind × Nat × Nat) :=
  addresses.flatMap fun a => (b.assignedChannels a).map fun p => (b.kindAt a, p.2, a)

/-- ROSTER_DUP: the first assignment of an object that an earlier one assigns (R19, R164). -/
def duplicated : List (UnitKind × Nat) → List (UnitKind × Nat × Nat) → Option CheckFailure
  | _, [] => none
  | seen, (k, n, a) :: rest =>
    if seen.contains (k, n) then some (failure .rosterDup (objectTable k) n a) else duplicated ((k, n) :: seen) rest

def checkRoster (b : Bank) : Option CheckFailure :=
  firstOf [firstOver addresses fun a => faultIf (rosterFaulty (b.rosterAt a)) (failure .rosterKind .roster a),
    duplicated [] (assignments b),
    faultIf ((addresses.filter fun a => b.kindAt a = .mt).length ≠ 1) (failure .noTerminal .roster 0)]

/-! ### Lines, bell timing and bell codes (R105, R118) -/

def lineFaulty (x : LineSettings) : Bool :=
  !(x.rate.toNat = 300 || x.rate.toNat = 600 || x.rate.toNat = 1200)
  || !decide (3 ≤ x.statusInterval.toNat ∧ x.statusInterval.toNat ≤ 20)
  || !decide (1 ≤ x.linkTimeout.toNat ∧ x.linkTimeout.toNat ≤ 10)

def checkTiming (t : Timing) : Option CheckFailure :=
  firstOf [faultIf (!decide (30 ≤ t.tg.toNat ∧ t.tg.toNat ≤ 150)) (failure .timingOrder .timing 0 1),
    faultIf (!decide (100 ≤ t.te.toNat ∧ t.te.toNat ≤ 400)) (failure .timingOrder .timing 0 2),
    faultIf (!decide (5 ≤ t.tr.toNat ∧ t.tr.toNat ≤ 60)) (failure .timingOrder .timing 0 3),
    faultIf (decide (t.te.toNat ≤ t.tg.toNat)) (failure .timingOrder .timing 0 4)]

/-- LIST_RANGE of one bell code entry (R118). -/
def bellFaulty (e : BellEntry) : Bool :=
  !e.isEmpty &&
  ((patternGroups e.pattern).isEmpty || (patternGroups e.pattern).any (fun n => n = 0 || 9 < n)
   || !decide (1 ≤ e.cls.toNat ∧ e.cls.toNat ≤ 9)
   || (if BellClass.ofByte e.cls = .offer then decide (7 < e.trainClass.toNat) else e.trainClass ≠ 0))

/-- Two entries hold the same pattern (R118). -/
def samePattern (x y : BellEntry) : Bool :=
  !x.isEmpty && !y.isEmpty && patternGroups x.pattern == patternGroups y.pattern

def checkBells (b : Bank) : Option CheckFailure :=
  firstOf [firstOver (List.range' 1 32) fun n => faultIf (bellFaulty (entryAt b.bells n)) (failure .listRange .bellCode n),
    firstOver (List.range' 2 31) fun n =>
      ((List.range' 1 (n - 1)).find? fun m => samePattern (entryAt b.bells n) (entryAt b.bells m)).map fun m =>
        failure .codeDup .bellCode n m]

/-! ### Tracks, lamps and sections (R37, R132, R147) -/

/-- The first undefined object of a list (R164). -/
def firstUndefined (b : Bank) (k : UnitKind) (ns : List Nat) (t : RecordClass) (entry : Nat) : Option CheckFailure :=
  (ns.find? fun n => !b.defined k n).map fun n => failure .refUndefined t entry n

def thresholdsFaulty (e : TrackEntry) : Bool :=
  decide (e.p.toNat ≤ e.d.toNat) || e.fmin = 0 || decide (4095 < e.fmin.toNat) || decide (4095 < e.nlim.toNat)
  || decide (2047 < e.p.toNat) || decide (2047 < e.d.toNat) || decide (4 < e.k.toNat) || decide (63 < e.delay.toNat)

def checkTrack (b : Bank) (t : Nat) : Option CheckFailure :=
  let e := b.trackEntry t
  firstOf [faultIf (thresholdsFaulty e) (failure .thresholdOrder .trackTable t),
    faultIf (decide (1 < e.proving.toNat) || holdsTwice e.neighbourNumbers || e.neighbourNumbers.contains t)
      (failure .listRange .trackTable t),
    firstUndefined b .tu e.neighbourNumbers .trackTable t]

def lampFaulty (e : LampEntry) : Bool :=
  decide (4095 < e.openLimit.toNat) || decide (4095 < e.shortLimit.toNat)
  || decide (e.shortLimit.toNat ≤ e.openLimit.toNat)

/-- LIST_RANGE of a section's fields (R132). -/
def sectionFaulty (e : SectionEntry) : Bool :=
  decide (1 < e.line.toNat) || decide (1 < e.channel.toNat) || !decide (1 ≤ e.direction.toNat ∧ e.direction.toNat ≤ 3)
  || (e.dir = .single && !decide (1 ≤ e.senior.toNat ∧ e.senior.toNat ≤ 2))
  || (e.dir ≠ .inbound && e.exitTrack = 0)
  || (e.dir ≠ .outbound && (e.arrivalTracks.isEmpty || holdsTwice e.arrivalTracks))

def checkSection (b : Bank) (n : Nat) : Option CheckFailure :=
  let e := b.sectionEntry n
  firstOf [faultIf (sectionFaulty e) (failure .listRange .sectionTable n),
    firstUndefined b .tu (e.exitOf.toList ++ (if e.dir = .outbound then [] else e.arrivalTracks)) .sectionTable n,
    faultIf (!decide (30 ≤ e.window.toNat ∧ e.window.toNat ≤ 300)) (failure .timingOrder .sectionTable n)]

/-- SECTION_CONFLICT: the same line and channel as a lower section (R132). -/
def sectionConflict (b : Bank) (n : Nat) : Option CheckFailure :=
  ((b.objects .iu).find? fun m =>
    decide (m < n) && (b.sectionEntry m).line = (b.sectionEntry n).line
    && (b.sectionEntry m).channel = (b.sectionEntry n).channel).map fun m => failure .sectionConflict .sectionTable n m

/-! ### The locking table (R100 to R104) -/

/-- An object that an entry names, with the kind of unit that serves it (R95). -/
def named (e : PoolEntry) : List (UnitKind × Nat) :=
  let n := e.object.toNat
  if e.kind = 1 ∨ e.kind = 2 then [(.lfu, n)]
  else if e.kind = 3 then [(.lfu, n), (.lfu, e.second.toNat)]
  else if e.kind = 4 then [(.tu, n)]
  else if e.kind = 5 ∨ e.kind = 6 then [(.iu, n)]
  else if e.kind = 7 then [(.lu, n)]
  else []

def checkPoolEntry (b : Bank) (i : Nat) : Option CheckFailure :=
  let e := b.pool.getD i default
  firstOf [faultIf (decide (7 < e.kind.toNat) || (e.kind = 3 && !(e.position = 1 || e.position = 2)))
      (failure .listRange .pool i),
    ((named e).find? fun p => !b.defined p.1 p.2).map fun p => failure .refUndefined .pool i p.2]

/-- A range is longer than its kind allows, or runs past the pool (R100). -/
def rangeFaulty (limit : Nat) (r : ListRange) : Bool :=
  decide (limit < r.count.toNat) || (r.count ≠ 0 && decide (512 < r.start.toNat + r.count.toNat))

/-- A range covers an entry of kind NONE (R101). -/
def coversNone (b : Bank) (r : ListRange) : Bool := (b.covered r).any fun p => p.2.kind = 0

def checkLever (b : Bank) (n : Nat) : Option CheckFailure :=
  let e := b.leverEntry n
  let bad := failure .listRange .leverTable n
  let signal := LeverKind.ofByte e.kind = .signal
  firstOf [faultIf (!decide (1 ≤ e.kind.toNat ∧ e.kind.toNat ≤ 3)) bad,
    faultIf (rangeFaulty 16 e.reverseList) bad,
    faultIf (rangeFaulty 8 e.normalList) bad,
    faultIf (coversNone b e.reverseList || coversNone b e.normalList) bad,
    faultIf (holdsTwice e.approachTracks || (!e.approachTracks.isEmpty && !signal)) bad,
    firstUndefined b .tu e.approachTracks .leverTable n,
    faultIf (signal && e.normalList.count ≠ 0) (failure .signalNormalList .leverTable n)]

def checkAcceptance (b : Bank) (n : Nat) : Option CheckFailure :=
  let r := (b.sectionEntry n).acceptance
  faultIf (rangeFaulty 8 r || coversNone b r) (failure .listRange .sectionTable n)

/-- A lever's reverse list covers LEVER_NORMAL of another (R103). -/
def coversNormal (b : Bank) (n m : Nat) : Bool :=
  (b.covered (b.leverEntry n).reverseList).any fun p => p.2.kind = 1 && p.2.object.toNat = m

/-- NOT_RECIPROCAL of a lever (R103). -/
def checkReciprocal (b : Bank) (n : Nat) : Option CheckFailure :=
  ((b.covered (b.leverEntry n).reverseList).find? fun p => p.2.kind = 1 && !coversNormal b p.2.object.toNat n).map
    fun p => failure .notReciprocal .leverTable n p.2.object.toNat

def checkLocking (b : Bank) : Option CheckFailure :=
  firstOf [firstOver (List.range 512) (checkPoolEntry b), firstOver (b.objects .lfu) (checkLever b),
    firstOver (b.objects .iu) (checkAcceptance b), firstOver (b.objects .lfu) (checkReciprocal b)]

/-! ### Diagram outputs and groups (R154, R156) -/

/-- The source object of an output is undefined (R154). That a UNIT source outside the loop addresses is one is the model's
reading (log entry 53), and so it is that any object byte of a PART source passes (log entry 54). -/
def sourceUndefined (b : Bank) (e : DiagramEntry) : Bool :=
  let n := e.object.toNat
  let k := e.source.toNat
  if k = 1 then !b.defined .tu n
  else if k = 2 then !b.defined .lfu n
  else if k = 3 ∨ k = 4 ∨ k = 5 then !b.defined .iu n
  else if k = 6 then !b.defined .lu n
  else if k = 8 then !(decide (1 ≤ n ∧ n ≤ 31) && b.kindAt n ≠ .none)
  else false

/-- A LINE source names neither line (R154, R180). That its error is LIST_RANGE is the model's choice (log entry 25). -/
def lineSourceFaulty (e : DiagramEntry) : Bool := e.source = 7 && decide (1 < e.object.toNat)

def checkOutput (b : Bank) (o : Nat) : Option CheckFailure :=
  let e := b.diagramEntry o
  firstOf [faultIf (!decide (1 ≤ e.source.toNat ∧ e.source.toNat ≤ 9) || decide (5 < e.group.toNat))
      (failure .listRange .diagramTable o),
    faultIf (lineSourceFaulty e) (failure .listRange .diagramTable o),
    faultIf (sourceUndefined b e) (failure .refUndefined .diagramTable o e.object.toNat)]

/-- CHECK_BANK's checks in their order; none where the bank passes (R164). -/
def bankFault (b : Bank) : Option CheckFailure :=
  firstOf [checkRoster b,
    faultIf (lineFaulty b.lineA) (failure .timingOrder .lineSettings 0),
    faultIf (lineFaulty b.lineB) (failure .timingOrder .lineSettings 1),
    checkTiming b.timing,
    checkBells b,
    firstOver (b.objects .tu) (checkTrack b),
    firstOver (b.objects .lu) fun p => faultIf (lampFaulty (b.lampEntry p)) (failure .thresholdOrder .lampTable p),
    firstOver (b.objects .iu) (checkSection b),
    firstOver (b.objects .iu) (sectionConflict b),
    checkLocking b,
    firstOver (b.objects .du) (checkOutput b),
    firstOver (List.range' 1 5) fun g =>
      faultIf (decide (15 < (entryAt b.groups g).toNat)) (failure .listRange .group g)]

/-- The check state that CHECK_BANK makes (R164). -/
def checkResult (b : Bank) : CheckState :=
  match bankFault b with
  | some f => .failed f
  | none => .passed b.crc32

end Sys2Proof.Machine
end

