-- ==== Sys2Proof/Machine/Records.lean ====
section
/-! DEFINITION. The records as READ_RECORD returns them (R162, 13.1, 13.4): the fields in the order of the owning chapters. -/

namespace Sys2Proof.Machine

/-- A timer: the time to its expiry in 10 ms units, or 0 when idle (13.1); 0 where its expiry is due (log entry 38). -/
def timerBytes (now : Time) (t : Option Time) : List Byte :=
  match t with
  | some u => if u.notBefore now then b2 (u.since now) else b2 0
  | none => b2 0

/-- A running time, or zeros where it is absent (13.1). -/
def timeBytes (t : Option Time) : List Byte := be32 (t.getD 0)

/-- A unit record: the nine fields of 2.2, then the 16 faults (log entry 20). -/
def unitBytes (now : Time) (u : UnitRec) : List Byte :=
  [b1 u.state.code, b1 u.probeCount] ++ timerBytes now u.probeWindow ++ timerBytes now u.reprobe
  ++ timerBytes now u.report ++ [u.obsKind.getD 0] ++ be32 (u.obsSerial.getD 0) ++ [u.obsEdition.getD 0, flagByte u.started]
  ++ u.faults.map fun f => b1 f.code

def trackBytes (now : Time) (r : TrackRec) : List Byte :=
  [b1 r.state.code, b1 ((r.cause.map FailCause.code).getD 0)] ++ b2 r.s ++ b2 r.q ++ [b1 r.noisy, b1 r.good]
  ++ timerBytes now r.timer ++ [flagByte r.exitSeen, flagByte r.provedOnce, flagByte r.unexpected]

def leverBytes (now : Time) (l : LeverRec) : List Byte :=
  [b1 l.position.code, flagByte l.catchUp, b1 l.release.code, b1 l.lock.code, flagByte l.violation, flagByte l.strokeLoss]
  ++ timerBytes now l.approach

def sectionBytes (r : SectionRec) : List Byte :=
  [b1 r.own.code, b1 r.far.code, b1 r.commutator.code, flagByte r.consumed, b1 r.progress.code, flagByte r.disagreement]

def exchangeBytes (now : Time) (x : Exchange) : List Byte :=
  [b1 ((x.origin.map Origin.code).getD 0)] ++ b2 (patternCode x.pattern)
  ++ [b1 ((x.cls.map BellClass.code).getD 0), b1 (x.trainClass.getD 0), b1 x.status.code]
  ++ be32 x.time ++ timeBytes x.ackTime ++ timerBytes now x.timer

def lampBytes (r : LampRec) : List Byte :=
  [b1 r.state.code, b1 ((r.last.map LampState.code).getD 0)] ++ b2 (r.current.getD 0) ++ [b1 r.alarm.code]

/-- The number of characters held in a partial message (13.1). -/
def partialCount : Receiver → Nat
  | .hunt => 0
  | .assemble _ got => 1 + got.length

/-- The units left of two character times, 22 elements, `gone` units after the gap timer's start. The time is no whole number of
units; whether the odd part counts as a unit is free (log entry 19). -/
def gapLeft (rate gone : Nat) : Nat :=
  (2200 - rate * gone) / rate + (if (2200 - rate * gone) % rate ≠ 0 ∧ Config.gapRoundsUp rate gone = true then 1 else 0)

/-- The gap timer's time to expiry while it runs (R105, 13.1). -/
def gapBytes (now : Time) (r : LineRec) : List Byte :=
  match r.gapStart, r.settings with
  | some t, some x => b2 (gapLeft x.rate.toNat (now.since t))
  | _, _ => b2 0

def lineBytes (now : Time) (r : LineRec) : List Byte :=
  [b1 (if r.receiver = .hunt then 0 else 1), b1 (partialCount r.receiver)] ++ gapBytes now r
  ++ [b1 r.discardRun, flagByte r.noisyReported, flagByte (r.link = .up)] ++ timerBytes now r.linkTimer
  ++ timeBytes r.firstHeard ++ [b1 r.queue.length] ++ timerBytes now r.statusTimer ++ [b1 r.startSeq.code]

/-- The check state, and the CRC or the first error in 6 bytes (R160, 13.4; log entry 21). -/
def checkBytes : CheckState → List Byte
  | .unchecked => [0, 0, 0, 0, 0, 0, 0]
  | .passed crc => 1 :: be32 crc ++ [0, 0]
  | .failed e => [2, b1 e.error.code, b1 e.table.code] ++ b2 e.entry ++ b2 e.second

/-- The result of CHECK_BANK (13.4). -/
def checkResultBytes : CheckState → List Byte
  | .unchecked => []
  | .passed crc => 1 :: be32 crc
  | .failed e => [2, b1 e.error.code, b1 e.table.code] ++ b2 e.entry ++ b2 e.second

/-- The part state and the two banks (R162, 13.4). That the active bank is the one in use, zeros while none is, is the model's
choice (log entry 51). -/
def bankStateBytes (s : State) : List Byte :=
  [b1 s.part.code]
  ++ (match s.active with | some i => be16 i.bank.edition ++ be32 i.crc | none => [0, 0, 0, 0, 0, 0])
  ++ be16 s.shadow.edition ++ checkBytes s.check

/-- The trip record, 10 bytes (13.4). -/
def tripBytes : Option TripRec → List Byte
  | some t =>
    [1, b1 t.cause.code, b1 t.object, t.sent.getD 0, t.returned.getD 0] ++ be32 t.time ++ [b1 t.previous.code]
  | none => List.replicate 10 0

/-- An event entry, 8 bytes (13.4). -/
def eventBytes (e : Event) : List Byte :=
  [b1 (e.kind.code + 128 * e.gap.toNat), b1 e.object] ++ b2 e.detail ++ be32 e.time

/-- The marker of a record (13.4). -/
inductive Marker where
  | current | stale | undefined
  deriving DecidableEq, Repr

def Marker.code : Marker → Nat
  | .current => 0 | .stale => 1 | .undefined => 2

/-- The number of bytes of a class's record (13.1, R181). -/
def recordLength (c : RecordClass) : Nat :=
  match c with
  | .unit => 31 | .track => 13 | .lever => 8 | .sectionRec => 6 | .exchange => 16 | .lamp => 5 | .output => 2
  | .line => 17 | .bankState => 16 | .trip => 10 | .group => 2 | c => c.entryLength

/-- A record that is there, or zeros with the undefined marker (R162). -/
def orUndefined (c : RecordClass) (r : Option (Marker × List Byte)) : Marker × List Byte :=
  r.getD (.undefined, List.replicate (recordLength c) 0)

/-- CURRENT, or STALE while the object's unit is not ACTIVE (R162). -/
def objectMarker (s : State) (k : UnitKind) (n : Nat) : Marker :=
  match s.bank.bind fun b => b.assignment k n with
  | some (a, _) => if s.unitActive a then .current else .stale
  | none => .stale

/-- An output's mode and its group's live intensity (R162). -/
def outputBytes (s : State) (o : Nat) (m : Mode) : List Byte :=
  let group := (s.bank.map fun b => (b.diagramEntry o).group.toNat).getD 0
  [b1 m.code, b1 (groupIntensity s group)]

/-- An entry of an active-bank class; GROUP adds the live intensity (R162). -/
def bankRecord (s : State) (c : RecordClass) (i : Nat) : Option (Marker × List Byte) :=
  match s.bank with
  | some b =>
    (b.encodeEntry c i).map fun bs => (.current, if c = .group then bs ++ [b1 (groupIntensity s i)] else bs)
  | none => none

/-- The record of a class and index, with its marker (R162). -/
def readRecord (s : State) (c : RecordClass) (i : Nat) : Marker × List Byte :=
  orUndefined c <|
    match c with
    | .unit => (recAt s.units i).map fun u => (.current, unitBytes s.now u)
    | .track => (recAt s.tracks i).map fun r => (objectMarker s .tu i, trackBytes s.now r)
    | .lever => (recAt s.levers i).map fun l => (objectMarker s .lfu i, leverBytes s.now l)
    | .sectionRec => (recAt s.sections i).map fun r => (objectMarker s .iu i, sectionBytes r)
    | .exchange => (recAt s.exchanges i).map fun x => (.current, exchangeBytes s.now x)
    | .lamp => (recAt s.lamps i).map fun r => (objectMarker s .lu i, lampBytes r)
    | .output => (recAt s.outputs i).map fun m => (objectMarker s .du i, outputBytes s i m)
    | .line => some (.current, lineBytes s.now (if i = 0 then s.lineA else s.lineB))
    | .bankState => some (.current, bankStateBytes s)
    | .trip => some (.current, tripBytes s.trip)
    | c => bankRecord s c i

end Sys2Proof.Machine
end

