-- ==== Sys2Proof/Machine/Bell.lean ====
section
/-! DEFINITION. The bell recogniser (08_bell_codes.md): strokes, codes, the exchange record and the obstruction flag. -/

namespace Sys2Proof.Machine

/-! ### Strokes (R119 to R124) -/

/-- The groups after one stroke, the gap deciding; none where the flag is set instead (R122). -/
def groupsAfter (sameGroup : Bool) (groups : List Nat) : Option (List Nat) :=
  if sameGroup then
    match groups.getLast? with
    | some n => if 9 ≤ n then none else some (groups.dropLast ++ [n + 1])
    | none => some [1]
  else if 4 ≤ groups.length then none
  else some (groups ++ [1])

/-- A recogniser takes a stroke; `dropped` marks a local stroke that a DOWN link dropped (R122). -/
def recogniserTakes (t : Timing) (now : Time) (dropped : Bool) (r : Recogniser) : Recogniser :=
  let timed : Recogniser := { r with collecting := true, last := some now, endTimer := some (now.plus t.te.toNat) }
  if !r.collecting then { timed with groups := [1], invalid := dropped }
  else if r.invalid || dropped then { timed with invalid := true }
  else
    let gap := match r.last with | some u => now.since u | none => 0
    match groupsAfter (decide (gap < t.tg.toNat)) r.groups with
    | some g => { timed with groups := g }
    | none => { timed with invalid := true }

/-- A section's recogniser of one side takes a stroke (R122). -/
def strokeTaken (s : State) (b : Bank) (x : Side) (n : Nat) (dropped : Bool) : State :=
  modifyRecogniser s x n (recogniserTakes b.timing s.now dropped)

/-- A BELL_RING for a section (R120). -/
def ringBell (s : State) (b : Bank) (n : Nat) : State :=
  match b.assignment .iu n with
  | some (a, ch) => place s { kind := .bellRing, dest := a, payload := [b1 ch, 1] }
  | none => s

/-- A line port hands on a STROKE (R119, R120). -/
def incomingStroke (s : State) (b : Bank) (l : Line) (ch : Nat) : State :=
  match b.sectionAt l ch with
  | some n => strokeTaken (ringBell s b n) b .incoming n false
  | none => raise s .strokeUnassigned l.code ch

/-- A local stroke of a section (R119, R121). -/
def localStroke (s : State) (b : Bank) (n : Nat) : State :=
  let e := b.sectionEntry n
  let dropped := (s.line e.lineOf).link = .down
  strokeTaken (placeLine s e.lineOf (.stroke e.channel.toNat)) b .here n dropped

/-- The recognisers of a line's sections at a link going DOWN (R124). -/
def invalidated (b : Bank) (l : Line) (rs : Recs Recogniser) : Recs Recogniser :=
  rs.map fun p =>
    if (b.sectionEntry p.1).lineOf = l && p.2.collecting then (p.1, { p.2 with invalid := true }) else p

def recognisersInvalidated (s : State) (b : Bank) (l : Line) : State :=
  { s with incoming := invalidated b l s.incoming, here := invalidated b l s.here }

/-! ### Completion and the exchange record (R125 to R128) -/

/-- The class of a pattern, and its train class for an OFFER (R125). -/
def codeClass (b : Bank) (groups : List Nat) : BellClass × Option Nat :=
  match b.bellEntry groups with
  | some e =>
    let c := BellClass.ofByte e.cls
    (c, if c = .offer then some e.trainClass.toNat else none)
  | none => (.unknown, none)

/-- The record is awaiting (8.5). -/
def Exchange.awaiting (x : Exchange) : Bool := x.origin.isSome && (x.status = .awaiting || x.status = .misrepeated)

/-- The record that a new code makes (R126). -/
def newExchange (b : Bank) (now : Time) (o : Origin) (groups : List Nat) (status : ExStatus) : Exchange :=
  { origin := some o, pattern := groups, cls := some (codeClass b groups).1, trainClass := (codeClass b groups).2,
    status := status, time := now, ackTime := none, timer := some (now.plus (b.timing.tr.toNat * 100)) }

/-- The record after its code is repeated (R126). -/
def acknowledgedExchange (now : Time) (x : Exchange) : Exchange :=
  { x with status := .acknowledged, ackTime := some now, timer := none }

/-- A removal that they sent is acknowledged: the line's obstruction flag is cleared (R128). -/
def removalAcknowledged (s : State) (b : Bank) (n : Nat) (x : Exchange) : State :=
  if x.origin = some .theySent && x.cls = some .obstructionRemoved then
    let l := (b.sectionEntry n).lineOf
    raise (setObstruction s l false) .obstructionCleared l.code n
  else s

/-- A valid code is judged against the section's exchange record (R126). -/
def exchangeJudged (s : State) (b : Bank) (n : Nat) (o : Origin) (groups : List Nat) : State :=
  match recAt s.exchanges n with
  | some x =>
    if x.awaiting && x.origin ≠ some o then
      if x.pattern = groups then removalAcknowledged (modifyExchange s n (acknowledgedExchange s.now)) b n x
      else
        modifyExchange (raise s .codeMisrepeated n (patternCode groups)) n
          fun _ => newExchange b s.now o groups .misrepeated
    else
      let told := if x.awaiting then raise s .codeUnrepeated n (patternCode x.pattern) else s
      modifyExchange told n fun _ => newExchange b s.now o groups .awaiting
  | none => s

/-- An incoming OBSTRUCTION sets its line's flag (R128). -/
def obstructionJudged (s : State) (b : Bank) (n : Nat) (x : Side) (groups : List Nat) : State :=
  if x = .incoming && (codeClass b groups).1 = .obstruction then
    let l := (b.sectionEntry n).lineOf
    if s.obstruction l then s else raise (setObstruction s l true) .obstructionSet l.code n
  else s

/-- The origin and the event of a recogniser's codes (R125). -/
def sideOrigin : Side → Origin
  | .incoming => .theySent
  | .here => .weSent

def sideEvent : Side → EventKind
  | .incoming => .codeReceived
  | .here => .codeSent

/-- A code completes (R123, R125). -/
def codeCompleted (s : State) (b : Bank) (x : Side) (n : Nat) (r : Recogniser) : State :=
  let idle := modifyRecogniser s x n fun _ => {}
  if r.invalid then raise idle .codeInvalid n x.code
  else
    let told := raise idle (sideEvent x) n (patternCode r.groups)
    let known :=
      if (b.bellEntry r.groups).isNone then raise told .codeUnknown n (patternCode r.groups) else told
    obstructionJudged (exchangeJudged known b n (sideOrigin x) r.groups) b n x r.groups

/-- The repetition timer of an awaiting record expires (R127). -/
def expiredExchange (x : Exchange) : Exchange := { x with status := .expired, timer := none }

end Sys2Proof.Machine
end

