-- ==== Sys2Proof/Machine/SectionBlock.lean ====
section
/-! DEFINITION. The section block (09_block_sections.md): far states, consumption, commutator moves, train-out proving,
the single-line conflict, and the entry to TRIPPED. -/

namespace Sys2Proof.Machine

/-- The record made for a section (R146). -/
def newSection (dir : Direction) : SectionRec := { own := if dir = .outbound then .blocked else .onLine }

/-- The disagreement flag after the part has changed the own state (R140). -/
def disagrees140 (commutator own : Instrument) : Bool := !(commutator = .unknown || commutator = own)

/-! ### Far states (R134, R135, R143) -/

/-- A section's record after its far state becomes `far` by a message (R134, R135). -/
def farWritten (far : Instrument) (r : SectionRec) : SectionRec :=
  { r with far := far, consumed := r.consumed && far ≠ .blocked && far ≠ .onLine }

/-- The junior end's record after its acceptance is withdrawn (R143, R140). -/
def withdrawn (r : SectionRec) : SectionRec :=
  { r with own := .blocked, disagreement := disagrees140 r.commutator .blocked }

/-- A message carries a far state for a section (R134, R135, R143). -/
def farArrives (s : State) (b : Bank) (n : Nat) (far : Instrument) : State :=
  match recAt s.sections n with
  | some r =>
    if r.far = far then s
    else
      let written := modifySection s n (farWritten far)
      let e := b.sectionEntry n
      if e.dir = .single && r.own = .clear && far = .clear then
        if e.senior = 1 then raise written .conflictHeld n 0
        else raise (modifySection written n withdrawn) .conflictWithdrawn n 0
      else written
  | none => s

/-- A channel's far state is handed on by a line's port: taken only while the link is UP (R134). -/
def farOnChannel (s : State) (b : Bank) (l : Line) (ch : Nat) (far : Instrument) : State :=
  if (s.line l).link = .up then
    match b.sectionAt l ch with
    | some n => farArrives s b n far
    | none => s
  else s

/-- The far states of a line's sections become UNKNOWN (R134). -/
def farLost (s : State) (b : Bank) (l : Line) : State :=
  { s with sections := s.sections.map fun p =>
      if (b.sectionEntry p.1).lineOf = l then (p.1, { p.2 with far := .unknown }) else p }

/-! ### Track changes (R135, R141) -/

/-- The change of a track's state between two sets of records (R53). -/
def trackMove (old new : Recs TrackRec) (t : Nat) : Option (TrackState × TrackState) :=
  match recAt old t, recAt new t with
  | some x, some y => if x.state = y.state then none else some (x.state, y.state)
  | _, _ => none

/-- The progress after one change of the `place`-th of `count` arrival tracks (R141). -/
def progressStep (count : Nat) (p : Progress) (place : Nat) (old new : TrackState) : Progress :=
  match p with
  | .proven => .proven
  | .seen k =>
    if new = .suspect ∨ new = .failed then .seen 0
    else if k < count ∧ place = k + 1 ∧ old = .clear ∧ new = .occupied then .seen (k + 1)
    else if k = count ∧ place = 1 ∧ new = .clear then .proven
    else .seen k

/-- The progress after the changes of the arrival tracks, taken in the order of the list (R141). That the changes of a bank
switch's completion are taken in this order too is the model's choice (log entry 50). -/
def progressOver (count : Nat) (moves : Nat → Option (TrackState × TrackState)) (p : Progress) (place : Nat) :
    List Nat → Progress
  | [] => p
  | t :: rest =>
    let next :=
      match moves t with
      | some (old, new) => progressStep count p place old new
      | none => p
    progressOver count moves next (place + 1) rest

/-- A section's record after changes of tracks (R135, R141). -/
def sectionOnTracks (e : SectionEntry) (moves : Nat → Option (TrackState × TrackState)) (r : SectionRec) : SectionRec :=
  let spent :=
    match e.exitOf with
    | some t =>
      match moves t with
      | some (old, _) => decide (old = .clear) && decide (r.far = .clear)
      | none => false
    | none => false
  let progress :=
    if r.own = .onLine && e.dir ≠ .outbound then
      progressOver e.arrivalTracks.length moves r.progress 1 e.arrivalTracks
    else r.progress
  { r with consumed := r.consumed || spent, progress := progress }

/-- The changes of tracks since `old` handed to the sections (R53, R135, R141). -/
def sectionsOnTracks (old : Recs TrackRec) (b : Bank) (s : State) : State :=
  { s with sections := s.sections.map fun p =>
      (p.1, sectionOnTracks (b.sectionEntry p.1) (trackMove old s.tracks) p.2) }

/-! ### The commutator (R137, R138, R139) -/

/-- The reason that the part state gives for refusing a move (R137). -/
def partReason (p : PartState) : Option MoveReason :=
  match p with
  | .running => none
  | .switching => some .switching
  | .tripped => some .tripped
  | _ => some .starting

/-- The exchange record holds an acknowledged code of a class that they sent (R138, R139). -/
def heldExchange (x : Exchange) (c : BellClass) : Bool :=
  x.origin = some .theySent && x.cls = some c && x.status = .acknowledged

/-- The acknowledged time lies within the offer window (R138). -/
def withinWindow (now : Time) (x : Exchange) (window : BitVec 16) : Bool :=
  match x.ackTime with
  | some t => decide (now.since t < window.toNat * 100)
  | none => false

/-- The tests of a move from BLOCKED to CLEAR, in their order; the reason of the first that fails (R138). -/
def acceptanceTests (s : State) (b : Bank) (n : Nat) (r : SectionRec) : Option MoveReason :=
  let e := b.sectionEntry n
  let x := (recAt s.exchanges n).getD {}
  if (s.line e.lineOf).link ≠ .up then some .linkDown
  else if s.obstruction e.lineOf then some .obstructed
  else if e.dir = .single ∧ r.far ≠ .blocked then some .farNotBlocked
  else if !heldExchange x .offer then some .noOffer
  else if !withinWindow s.now x e.window then some .offerExpired
  else if !listHolds s b e.acceptance then some .acceptance
  else none

/-- The reason for refusing a move of a section to `pos`, or none where the move is taken (R137, R138, R139). -/
def moveRefused (s : State) (b : Bank) (n : Nat) (r : SectionRec) (pos : Instrument) : Option MoveReason :=
  match partReason s.part with
  | some why => some why
  | none =>
    if (b.sectionEntry n).dir = .outbound then some .direction
    else
      match r.own, pos with
      | .blocked, .clear => acceptanceTests s b n r
      | .blocked, _ => none
      | .clear, .blocked =>
        if heldExchange ((recAt s.exchanges n).getD {}) .cancel then none else some .noCancel
      | .clear, _ => none
      | .onLine, .blocked => if r.progress = .proven then none else some .notProven
      | .onLine, _ => some .notAllowed
      | .unknown, _ => some .notAllowed

/-- A section's record after a move is taken (R138, R139). -/
def movedSection (pos : Instrument) (r : SectionRec) : SectionRec :=
  { r with own := pos, disagreement := false,
           progress := if pos = .onLine || r.own = .onLine then .seen 0 else r.progress }

/-- A taken move consumes the exchange record when it accepts or withdraws an acceptance (R138, R139). -/
def consumes (own pos : Instrument) : Bool := (own = .blocked && pos = .clear) || (own = .clear && pos = .blocked)

/-- A counted report gives a commutator position (R137). -/
def takeCommutator (s : State) (b : Bank) (n : Nat) (pos : Instrument) : State :=
  match recAt s.sections n with
  | some r =>
    if pos = r.commutator then s
    else
      let read := modifySection s n fun x => { x with commutator := pos }
      if pos = .unknown then read
      else if pos = r.own then modifySection read n fun x => { x with disagreement := false }
      else
        match moveRefused s b n r pos with
        | some why => raise (modifySection read n fun x => { x with disagreement := true }) .commutatorRefused n why.code
        | none =>
          let moved := modifySection read n (movedSection pos)
          if consumes r.own pos then modifyExchange moved n fun x => { x with status := .expired } else moved
  | none => s

/-- The commutators of an IU's sections become UNKNOWN (R137, R32). -/
def commutatorLost (s : State) (n : Nat) : State := modifySection s n fun r => { r with commutator := .unknown }

/-! ### The entry to TRIPPED (R145) -/

/-- A section's record at the entry to TRIPPED (R145). -/
def trippedSection (dir : Direction) (r : SectionRec) : SectionRec :=
  if dir ≠ .outbound && r.own = .clear then
    { r with own := .onLine, progress := .seen 0, disagreement := disagrees140 r.commutator .onLine }
  else r

def sectionsTripped (s : State) (b : Bank) : State :=
  { s with sections := s.sections.map fun p => (p.1, trippedSection (b.sectionEntry p.1).dir p.2) }

end Sys2Proof.Machine
end

