-- ==== Sys2Proof/Machine/LinePort.lean ====
section
/-! DEFINITION. The block line ports (07_block_lines.md): assembly, the discard run, the link, and the start of a line. -/

namespace Sys2Proof.Machine

/-! ### Assembly (R109) -/

/-- What a character does to the receiver. -/
structure Assembled where
  receiver : Receiver
  /-- A message is discarded and counted (R110). -/
  discarded : Bool := false
  /-- A message is complete (R111). -/
  message : Option LineMsg := none
  deriving DecidableEq, Repr

/-- The message of a complete header and data (R108, 13.3). -/
def messageOf (header : Nat) (got : List Instrument) : LineMsg :=
  if header ≤ 1 then .stroke header
  else if header ≤ 3 then .instr (header - 2) (got.getD 0 .unknown)
  else .status (got.getD 0 .unknown) (got.getD 1 .unknown)

/-- The number of data characters that a header requires (R108). -/
def dataNeeded (header : Nat) : Nat := if header ≤ 1 then 0 else if header ≤ 3 then 1 else 2

/-- A character in HUNT (R109). -/
def assembleHunt (c : Character) : Assembled :=
  match headerCode c with
  | some h =>
    if h ≤ 1 then { receiver := .hunt, message := some (.stroke h) } else { receiver := .assemble h [] }
  | none => { receiver := .hunt, discarded := c.markBit }

/-- A character taken by assembly (R109). -/
def assemble (r : Receiver) (c : Character) : Assembled :=
  match r with
  | .hunt => assembleHunt c
  | .assemble h got =>
    match headerCode c, dataState c with
    | some _, _ => { assembleHunt c with discarded := true }
    | none, some x =>
      if got.length + 1 < dataNeeded h then { receiver := .assemble h (got ++ [x]) }
      else { receiver := .hunt, message := some (messageOf h (got ++ [x])) }
    | none, none => { receiver := .hunt, discarded := true }

/-- A discarded message is counted (R110). -/
def discardCounted (s : State) (l : Line) : State :=
  let r := s.line l
  let run := min 8 (r.discardRun + 1)
  let noisy := run = 8 && !r.noisyReported
  let counted := modifyLine s l fun x => { x with discardRun := run, noisyReported := x.noisyReported || noisy }
  if noisy then raise counted .linkNoisy l.code 0 else counted

/-- The receiver takes a character; the gap timer runs while it assembles (R109, R110). -/
def characterTaken (s : State) (l : Line) (c : Character) : State :=
  let o := assemble (s.line l).receiver c
  let counted := if o.discarded then discardCounted s l else s
  modifyLine counted l fun r =>
    { r with receiver := o.receiver, gapStart := if o.receiver = .hunt then none else some s.now }

/-- The message that a character completes. -/
def characterCompletes (s : State) (l : Line) (c : Character) : Option LineMsg := (assemble (s.line l).receiver c).message

/-! ### The link (R112, R113, R124, R134) -/

/-- The timeout of a line's link, in 10 ms units (R105). -/
def LineRec.timeout (r : LineRec) : Nat := ((r.settings.map fun x => x.linkTimeout.toNat).getD 0) * 100

/-- The link goes from UP to DOWN: its strokes are dropped, its far states are lost, its recognisers' codes invalid
(R112, R113, R124, R134). -/
def linkLost (s : State) (b : Option Bank) (l : Line) : State :=
  let strokes := strokesOf (s.line l).queue
  let down := modifyLine s l fun r =>
    { r with link := .down, linkTimer := none, firstHeard := none,
             queue := r.queue.filter fun m => !m.isStroke }
  let told := raiseAll (raise down .linkDown l.code 0) (strokes.map fun c => (.strokeDropped, l.code, c))
  match b with
  | some b => recognisersInvalidated (farLost told b l) b l
  | none => told

/-- The link rule on a valid message (R110, R112). -/
def linkHeard (s : State) (l : Line) : State :=
  let clean := modifyLine s l fun r => { r with discardRun := 0, noisyReported := false }
  let r := s.line l
  let until' := s.after r.timeout
  match r.link, r.firstHeard with
  | .up, _ => modifyLine clean l fun x => { x with linkTimer := some until' }
  | .down, none => modifyLine clean l fun x => { x with firstHeard := some s.now }
  | .down, some t =>
    if s.now.since t < r.timeout then
      raise (modifyLine clean l fun x => { x with link := .up, firstHeard := none, linkTimer := some until' })
        .linkUp l.code 0
    else modifyLine clean l fun x => { x with firstHeard := some s.now }

/-- A valid message is handed on, once the link rule has been applied (R111, R119, R134). That the SB takes a STATUS's channel 0
before its channel 1, which orders the events of two single-line conflicts (R143), is the model's choice (log entry 4). -/
def messageHanded (s : State) (l : Line) (m : LineMsg) : State :=
  let heard := linkHeard s l
  match s.bank with
  | some b =>
    match m with
    | .stroke ch => incomingStroke heard b l ch
    | .instr ch x => farOnChannel heard b l ch x
    | .status x y => farOnChannel (farOnChannel heard b l 0 x) b l 1 y
  | none => heard

/-- A character reaches assembly, and the message that it completes is handed on (R109, R111). -/
def characterReceived (s : State) (l : Line) (c : Character) : State :=
  let taken := characterTaken s l c
  match characterCompletes s l c with
  | some m => messageHanded taken l m
  | none => taken

/-- The characters of a message that are still to come: its data where the receiver has its header and the data before
(log entry 17). -/
def charactersToCome (r : Receiver) (m : LineMsg) : List Character :=
  match r, m with
  | .assemble h [], .instr ch _ => if h = 2 + ch then (messageCharacters m).drop 1 else messageCharacters m
  | .assemble h [], .status _ _ => if h = 4 then (messageCharacters m).drop 1 else messageCharacters m
  | .assemble h [x], .status y _ => if h = 4 ∧ x = y then (messageCharacters m).drop 2 else messageCharacters m
  | _, _ => messageCharacters m

/-- A valid message completes on a line that has its rate (R105, R109; log entry 17). -/
def messageReceived (s : State) (l : Line) (m : LineMsg) : State :=
  if (s.line l).settings.isSome then
    (charactersToCome (s.line l).receiver m).foldl (fun s c => characterReceived s l c)
      (modifyLine s l fun r => { r with markHold := false })
  else s

/-! ### The start of a line (R116) -/

/-- A line starts under new settings (R116). A wait for mark of R107 ends with the start, which is the model's choice (log entry
47). -/
def lineStarted (s : State) (b : Bank) (l : Line) : State :=
  let dropped := raiseAll s ((strokesOf (s.line l).queue).map fun c => (.strokeDropped, l.code, c))
  let emptied := modifyLine dropped l fun r => { r with queue := [] }
  let down := if (s.line l).link = .up then linkLost emptied (some b) l else emptied
  let x := b.lineSettings l
  modifyLine down l fun _ =>
    { settings := some x, startSeq := .sendingBreak, queue := [statusMessage down b l],
      statusTimer := some (s.after (x.statusInterval.toNat * 10)) }

end Sys2Proof.Machine
end

