-- ==== Sys2Proof/Machine/Lamp.lean ====
section
/-! DEFINITION. The lamp prover (10_lamp_proving_and_the_track_diagram.md): classes, the two-report rule and alarms. -/

namespace Sys2Proof.Machine

/-- The class of a current (R148). -/
def lampClass (e : LampEntry) (current : Nat) : LampState :=
  if current < e.openLimit.toNat then .out else if e.shortLimit.toNat < current then .short else .lit

/-- A lamp's record after a counted report, its alarm apart (R148). -/
def lampReported (e : LampEntry) (current : Nat) (r : LampRec) : LampRec :=
  let c := lampClass e current
  { r with state := if c ≠ r.state ∧ r.last = some c then c else r.state, last := some c, current := some current }

/-- The alarm after a change of a lamp's state, and the event it raises (R150). -/
def alarmStep (a : Alarm) (old new : LampState) : Alarm × Option EventKind :=
  if old = .lit ∧ new ≠ .lit then
    match a with
    | .quiet => (.alarm, some .lampFault)
    | .recovered => (.alarm, some .lampFault)
    | _ => (a, none)
  else if old ≠ .lit ∧ new = .lit then
    match a with
    | .alarm => (.recovered, some .lampRecovered)
    | .accepted => (.quiet, some .lampRecovered)
    | _ => (a, none)
  else (a, none)

/-- The alarm brought into agreement with a lamp's state, and the event it raises (R152). -/
def alarmAgree (a : Alarm) (state : LampState) : Alarm × Option EventKind :=
  if state = .lit then
    match a with
    | .alarm => (.recovered, some .lampRecovered)
    | .accepted => (.quiet, some .lampRecovered)
    | _ => (a, none)
  else
    match a with
    | .quiet => (.alarm, some .lampFault)
    | .recovered => (.alarm, some .lampFault)
    | _ => (a, none)

/-- The event of an alarm: LAMP_FAULT carries the lamp's state, LAMP_RECOVERED the alarm reached (R150). -/
def raiseAlarm (s : State) (p : Nat) (state : LampState) (alarm : Alarm) (k : Option EventKind) : State :=
  match k with
  | some .lampFault => raise s .lampFault p state.code
  | some k => raise s k p alarm.code
  | none => s

/-- The alarms are judged in RUNNING and TRIPPED (R150). -/
def alarmsJudged (p : PartState) : Bool := p = .running || p = .tripped

/-- A lamp's record replaced, its alarm judged by the change of its state (R148, R149, R150). -/
def changeLamp (s : State) (p : Nat) (new : LampRec) : State :=
  match recAt s.lamps p with
  | some old =>
    let step := if alarmsJudged s.part then alarmStep old.alarm old.state new.state else (old.alarm, none)
    raiseAlarm (modifyLamp s p fun _ => { new with alarm := step.1 }) p new.state step.1 step.2
  | none => s

/-- A counted report gives a lamp's current (R148). -/
def lampTakes (s : State) (b : Bank) (p current : Nat) : State :=
  match recAt s.lamps p with
  | some r => changeLamp s p (lampReported (b.lampEntry p) current r)
  | none => s

/-- A lamp's unit leaves ACTIVE (R149). -/
def lampLost (s : State) (p : Nat) : State :=
  match recAt s.lamps p with
  | some r => changeLamp s p { r with state := .unknown, last := none }
  | none => s

/-- Every alarm is brought into agreement with its lamp (R152): by rising lamp number, which orders the events; the model's choice
(log entry 4). -/
def alarmsAgree (s : State) : State :=
  s.lamps.foldl (fun s p =>
    let step := alarmAgree p.2.alarm p.2.state
    raiseAlarm (modifyLamp s p.1 fun r => { r with alarm := step.1 }) p.1 p.2.state step.1 step.2) s

/-- An alarm after an acknowledgement (R151). -/
def acknowledgedAlarm (a : Alarm) : Alarm :=
  match a with
  | .alarm => .accepted
  | .recovered => .quiet
  | a => a

/-- An acknowledgement of every alarm, while the alarms are judged (R151). -/
def acknowledge (s : State) : State :=
  if alarmsJudged s.part then
    { s with lamps := s.lamps.map fun p => (p.1, { p.2 with alarm := acknowledgedAlarm p.2.alarm }) }
  else s

end Sys2Proof.Machine
end

