-- ==== Sys2Proof/Machine/Lever.lean ====
section
/-! DEFINITION. The lever and lock evaluator (05_levers_and_lock_outputs.md, 6.3): what a report does to a lever, the end
of approach locks, stroke loss, and the deciding of releases. -/

namespace Sys2Proof.Machine

/-! ### One lever of a report (R71, R75, R76, R77, R80, R83) -/

/-- What a report gives for one lever. -/
structure LeverOutcome where
  record : LeverRec
  /-- The position that LEVER_CONTACT_FAULT carries, where it is raised (R71). -/
  contactFault : Option Position := none
  /-- The end left against the lock, where a violation is raised (R80). -/
  violated : Option Position := none
  /-- The end left by a FREE stroke that this report ended at REVERSE, or at FAULT (R97; log entry 49). -/
  endedFree : Option Position := none
  deriving DecidableEq, Repr

/-- The approach lock that an arrival at NORMAL from STROKE_R sets (R83). -/
def approachSet (s : State) (e : LeverEntry) (l : LeverRec) : Option Time :=
  if LeverKind.ofByte e.kind = .signal ∧ e.approachTime ≠ 0 ∧ e.approachTracks.any (fun t => !trackClear s t) then
    some (s.after (e.approachTime.toNat * 100))
  else l.approach

/-- The end whose contacts a release state belongs to. -/
def endOf : Release → Option Position
  | .nLocked | .nFree => some .normal
  | .rLocked | .rFree => some .reverse
  | _ => none

/-- The end that a stroke left. -/
def leftOf : Release → Option Position
  | .strokeN => some .normal
  | .strokeR => some .reverse
  | _ => none

/-- The end left against the lock when a lever that stood at `stood` is found away from it (R80). -/
def violation? (l : LeverRec) (stood : Position) : Option Position := if l.lock = .locked then some stood else none

/-- A lever reports NORMAL (R76, R77). Its release is decided with the other levers' (R96). -/
def arriveNormal (s : State) (e : LeverEntry) (l : LeverRec) : LeverOutcome :=
  let home : LeverRec := { l with position := .normal, release := .nLocked, lock := .locked, strokeLoss := false }
  match l.release with
  | .nLocked | .nFree => { record := { l with position := .normal } }
  | .rLocked | .rFree =>
    let v := violation? l .reverse
    { record := { home with violation := l.violation || v.isSome, approach := approachSet s e l }, violated := v }
  | .strokeR => { record := { home with approach := approachSet s e l } }
  | .strokeN => { record := home }
  | .unknown => { record := home }

/-- A lever reports REVERSE (R76, R77, R97). -/
def arriveReverse (l : LeverRec) : LeverOutcome :=
  let away : LeverRec := { l with position := .reverse, release := .rLocked, lock := .locked }
  match l.release with
  | .rLocked | .rFree => { record := { l with position := .reverse } }
  | .nLocked | .nFree =>
    let v := violation? l .normal
    { record := { away with violation := l.violation || v.isSome }, violated := v }
  | .strokeN => { record := away, endedFree := if l.lock = .free then some .normal else none }
  | .strokeR => { record := away, endedFree := if l.lock = .free then some .reverse else none }
  | .unknown => { record := away }

/-- A lever reports MID (R75, R77). -/
def arriveMid (l : LeverRec) : LeverOutcome :=
  match l.release with
  | .nLocked | .nFree =>
    let v := violation? l .normal
    { record := { l with position := .mid, release := .strokeN, lossTold := false, violation := l.violation || v.isSome }, violated := v }
  | .rLocked | .rFree =>
    let v := violation? l .reverse
    { record := { l with position := .mid, release := .strokeR, lossTold := false, violation := l.violation || v.isSome }, violated := v }
  | .strokeN | .strokeR => { record := { l with position := .mid } }
  | .unknown => { record := { l with position := .mid, lock := .locked } }

/-- A lever reports FAULT, which ends a stroke (R71, R76). That a FREE stroke so ended is tested for stroke loss as one that ends
at REVERSE follows from R97's opening words (log entry 49). -/
def arriveFault (l : LeverRec) : LeverOutcome :=
  { record := { l with position := .fault, release := .unknown, lock := .locked },
    contactFault := if l.position = .fault then none else some l.position,
    endedFree := if l.lock = .free then leftOf l.release else none }

/-- A counted report gives a lever's contacts and catch (R71). -/
def leverTakes (s : State) (e : LeverEntry) (l : LeverRec) (pos : Position) (catchUp : Bool) : LeverOutcome :=
  if pos = l.position ∧ catchUp = l.catchUp then { record := l }
  else
    let held := { l with catchUp := catchUp }
    match pos with
    | .normal => arriveNormal s e held
    | .reverse => arriveReverse held
    | .mid => arriveMid held
    | .fault => arriveFault held
    | .unknown => { record := held }

/-- A lever's unit leaves ACTIVE (R78). -/
def leverLost (s : State) (n : Nat) : State :=
  modifyLever s n fun l => { l with position := .unknown, release := .unknown, lock := .locked }

/-! ### Approach locks (R84) -/

/-- Approach locks end when a change of an approach track leaves every one CLEAR (R84). -/
def approachEnds (old : Recs TrackRec) (b : Bank) (s : State) : State :=
  { s with levers := s.levers.map fun p =>
      let ts := (b.leverEntry p.1).approachTracks
      if p.2.approach.isSome && ts.any (fun t => (trackMove old s.tracks t).isSome) && ts.all (trackClear s) then
        (p.1, { p.2 with approach := none })
      else p }

/-- The changes of tracks since `old` handed to SB and LE (R53). -/
def tracksHanded (old : Recs TrackRec) (b : Bank) (s : State) : State := approachEnds old b (sectionsOnTracks old b s)

/-! ### Stroke loss and releases (R72, R73, R79, R95, R96, R97) -/

/-- The list for an end: the reverse list at NORMAL, the normal list at REVERSE (R69). -/
def listFor (e : LeverEntry) (stood : Position) : ListRange := if stood = .normal then e.reverseList else e.normalList

/-- The end whose list is tested for stroke loss: that of a FREE stroke, or of one that this report ended at REVERSE or at FAULT
(R79, R97; log entry 49). -/
def testedEnd (ended : List (Nat × Position)) (n : Nat) (l : LeverRec) : Option Position :=
  match leftOf l.release with
  | some stood => if l.lock = .free then some stood else none
  | none => ended.lookup n

/-- The stroke-loss test of one lever: the flag is set and STROKE_LOSS raised, at most once in a stroke (R79; log entry
7). -/
def strokeTest (b : Bank) (ended : List (Nat × Position)) (s : State) (n : Nat) : State :=
  match recAt s.levers n with
  | some l =>
    match testedEnd ended n l with
    | some stood =>
      if !l.lossTold && !listHolds s b (listFor (b.leverEntry n) stood) then
        raise (modifyLever s n fun x => { x with strokeLoss := true, lossTold := true }) .strokeLoss n stood.code
      else s
    | none => s
  | none => s

/-- The stroke-loss tests of one round, by rising lever number (R79, R96). The order of several STROKE_LOSS events, by lever
number and round by round, is the model's choice (log entry 4). -/
def strokeTests (b : Bank) (ended : List (Nat × Position)) (s : State) : State :=
  (s.levers.map Prod.fst).foldl (strokeTest b ended) s

/-- A lever's lock locked while the part is not RUNNING (R73). -/
def lockedUnless (running : Bool) (l : LeverRec) : LeverRec := if running then l else { l with lock := .locked }

/-- A lever's release decided by the release test, and its lock output with it (R72, R73). -/
def decided (s : State) (b : Bank) (n : Nat) (l : LeverRec) : LeverRec :=
  let e := b.leverEntry n
  match endOf l.release with
  | some .normal =>
    if releaseTest s b n l e.reverseList then { l with release := .nFree, lock := .free }
    else { l with release := .nLocked, lock := .locked }
  | some _ =>
    if releaseTest s b n l e.normalList then { l with release := .rFree, lock := .free }
    else { l with release := .rLocked, lock := .locked }
  | none => if l.release = .unknown then { l with lock := .locked } else l

/-- Every lever's release decided, each list read against the records as they stand (R72, R96). -/
def decideAll (b : Bank) (s : State) : State :=
  { s with levers := s.levers.map fun p => (p.1, decided s b p.1 p.2) }

/-- LE's readings of an arrival, round by round: every release is decided and every FREE stroke tested; while a test sets a
flag, the lists are read again. Each lever's flag is set at most once, so that the chain ends (R96). That a round decides the
releases before it makes the tests is the model's choice (log entry 52). -/
def leverRounds (b : Bank) (ended : List (Nat × Position)) : Nat → State → List State
  | 0, s => [decideAll b s]
  | k + 1, s =>
    let read := decideAll b s
    let tested := strokeTests b ended read
    if tested.levers = read.levers then [read] else read :: leverRounds b ended k tested

/-- The states of LE's readings of an arrival, or of a pass of a sample: strokes locked where the part does not run, then the
rounds, the last of which leaves every lever decided (R73, R79, R95, R96, R97). -/
def leverReadings (ended : List (Nat × Position)) (s : State) : List State :=
  match s.bank with
  | some b =>
    leverRounds b ended (s.levers.length + 1)
      { s with levers := s.levers.map fun p => (p.1, lockedUnless (s.part = .running) p.2) }
  | none => [s]

/-- LE's conclusion of an arrival, or of a pass of a sample: what its last reading leaves (R96). -/
def concludeLevers (ended : List (Nat × Position)) (s : State) : State := (leverReadings ended s).getLastD s

end Sys2Proof.Machine
end

