-- ==== Sys2Proof/Machine/Track.lean ====
section
/-! DEFINITION. The track evaluator (03_track_circuit_evaluation.md, 04_track_sequence_proving_and_restoration.md): the
sample computation, the decision on a sample, sequence proving and the clearing decision. -/

namespace Sys2Proof.Machine

/-! ### The sample computation (R40 to R43) -/

/-- The middle one of three values (R40). -/
def median (x y z : Nat) : Nat := max (min x y) (min (max x y) z)

/-- The largest of three values less the smallest (R40). -/
def spread (x y z : Nat) : Nat := max (max x y) z - min (min x y) z

/-- The sample is noisy (R40). -/
def sampleNoisy (e : TrackEntry) (x : Sample) : Bool := e.nlim.toNat < spread x.v1 x.v2 x.v3

/-- The sample is a feed failure (R41). -/
def feedFailure (e : TrackEntry) (x : Sample) : Bool := x.f < e.fmin.toNat

/-- The ratio (R41). -/
def ratio (e : TrackEntry) (x : Sample) : Nat :=
  if feedFailure e x then 0 else min 2047 (median x.v1 x.v2 x.v3 * 1024 / x.f)

/-- The filter step: the difference divided by 2^k and rounded toward minus infinity (R42). -/
def filtered (s q k : Nat) : Nat := ((s : Int) + ((q : Int) - s).fdiv (2 ^ k)).toNat

/-- A track's record after the four steps of the computation (R40 to R43). -/
def computed (e : TrackEntry) (x : Sample) (r : TrackRec) : TrackRec :=
  { r with noisy := if sampleNoisy e x then min 8 (r.noisy + 1) else 0,
           q := ratio e x,
           s := filtered r.s (ratio e x) e.k.toNat,
           good := if sampleNoisy e x || feedFailure e x then 0 else min 4 (r.good + 1) }

/-! ### The decision on a sample (R44 to R51) -/

/-- What a sample does to a track in the first pass. -/
structure SampleOutcome where
  record : TrackRec
  event : Option (EventKind × FailCause) := none
  /-- The clearing decision is called for (R46). -/
  decision : Bool := false
  deriving DecidableEq, Repr

/-- A track goes to FAILED, or stays there with the cause given (R50). -/
def failedBy (cause : FailCause) (r : TrackRec) : SampleOutcome :=
  { record := { r with state := .failed, cause := some cause, timer := none },
    event := if r.state = .failed ∧ r.cause = some cause then none else some (.trackFailed, cause) }

/-- The decision on a sample, on the record that the computation gives (R44). -/
def sampleDecision (now : Time) (e : TrackEntry) (x : Sample) (r : TrackRec) : SampleOutcome :=
  if r.state = .suspect then { record := r }
  else if feedFailure e x then failedBy .feed r
  else if r.noisy = 8 then failedBy .noise r
  else
    match r.state with
    | .failed =>
      if r.good = 4 then
        { record := { r with state := .occupied, cause := none },
          event := r.cause.map fun c => (.trackRecovered, c) }
      else { record := r }
    | .clear => { record := if r.s < e.d.toNat then { r with state := .occupied } else r }
    | .occupied =>
      if r.s < e.p.toNat then { record := r }
      else if e.delay = 0 then { record := r, decision := true }
      else { record := { r with state := .pickingUp, timer := some (now.plus (e.delay.toNat * 10)) } }
    | .pickingUp =>
      { record := if r.s < e.p.toNat then { r with state := .occupied, timer := none } else r }
    | .suspect => { record := r }

/-- A sample of one track in the first pass; the tracks for which a decision is called for are collected (R39). -/
def trackTakes (b : Bank) (x : Sample) (acc : State × List Nat) (t : Nat) : State × List Nat :=
  match recAt acc.1.tracks t with
  | some r =>
    let e := b.trackEntry t
    let o := sampleDecision acc.1.now e x (computed e x r)
    let written := modifyTrack acc.1 t fun _ => o.record
    let told :=
      match o.event with
      | some (k, c) => raise written k t c.code
      | none => written
    (told, if o.decision then acc.2 ++ [t] else acc.2)
  | none => acc

/-! ### Sequence proving (R57 to R62) -/

/-- A track stands OCCUPIED or PICKING_UP. -/
def standsOccupied (ts : Recs TrackRec) (t : Nat) : Bool :=
  match recAt ts t with
  | some r => r.state = .occupied || r.state = .pickingUp
  | none => false

/-- A track entered OCCUPIED from one of the states given, between two sets of records. -/
def entered (old new : Recs TrackRec) (from' : List TrackState) (t : Nat) : Bool :=
  match trackMove old new t with
  | some (x, y) => y = .occupied && from'.contains x
  | none => false

/-- The exit-seen flag of a track after the changes of a pass (R58, R59). -/
def exitSeenAfter (old new : Recs TrackRec) (e : TrackEntry) (t : Nat) (r : TrackRec) : Bool :=
  let cleared := if entered old new [.clear, .failed, .suspect] t then false else r.exitSeen
  cleared || ((r.state = .occupied || r.state = .pickingUp) && e.neighbourNumbers.any (entered old new [.clear]))

/-- A track's entry from CLEAR that no neighbour explains (R60). -/
def unexpectedEntry (old new : Recs TrackRec) (e : TrackEntry) (t : Nat) (r : TrackRec) : Bool :=
  e.provingOn && r.provedOnce && entered old new [.clear] t && !e.neighbourNumbers.any (standsOccupied new)

/-- The proving judgements on the changes since `old`, against the states as they now stand (R59). Several
UNEXPECTED_OCCUPATION events come by rising track number, which is the model's choice (log entry 4). -/
def provingJudged (old : Recs TrackRec) (b : Bank) (s : State) : State :=
  let flagged : State :=
    { s with tracks := s.tracks.map fun p =>
        let e := b.trackEntry p.1
        (p.1, { p.2 with exitSeen := exitSeenAfter old s.tracks e p.1 p.2,
                         unexpected := p.2.unexpected || unexpectedEntry old s.tracks e p.1 p.2 }) }
  let entries := s.tracks.filter fun p => unexpectedEntry old s.tracks (b.trackEntry p.1) p.1 p.2
  raiseAll flagged (entries.map fun p => (.unexpectedOccupation, p.1, p.2.s))

/-- The clearing decision gives CLEAR, reading the neighbours in the records given (R61). -/
def clearingGivesClear (neighbours : Recs TrackRec) (e : TrackEntry) (r : TrackRec) : Bool :=
  !e.provingOn || !r.provedOnce || e.neighbourNumbers.isEmpty || r.exitSeen
  || e.neighbourNumbers.any (standsOccupied neighbours)

/-- A track's record when it reaches CLEAR by a clearing decision (R62). -/
def cleared (r : TrackRec) : TrackRec :=
  { r with state := .clear, timer := none, provedOnce := true, unexpected := false }

/-- The clearing decision of a track (R61, R62). -/
def clearingDecision (neighbours : Recs TrackRec) (b : Bank) (s : State) (t : Nat) : State :=
  match recAt s.tracks t with
  | some r =>
    if clearingGivesClear neighbours (b.trackEntry t) r then modifyTrack s t cleared
    else raise (modifyTrack s t fun x => { x with state := .suspect, timer := none }) .trackSuspect t r.s
  | none => s

/-! ### The whole of a sample, and the loss of a unit (R39, R52) -/

/-- The first pass and its proving judgements, its changes handed to the sections and to LE's approach locks; and the tracks
for which a clearing decision is called (R39, R59, R53). The events of the frame's tracks come in channel order, which is the
model's choice (log entry 4). -/
def firstPass (b : Bank) (a : Nat) (bytes : List Byte) (s : State) : State × List Nat :=
  let passed := (b.assignedChannels a).foldl (fun acc p => trackTakes b (sampleAt bytes p.1) acc p.2) (s, [])
  (tracksHanded s.tracks b (provingJudged s.tracks b passed.1), passed.2)

/-- The second pass: the decisions called for, all reading the neighbours as the first pass left them (R39, R61). They are
made in channel order, which orders their events: the model's choice (log entry 4). -/
def secondPass (b : Bank) (wanted : List Nat) (s : State) : State :=
  tracksHanded s.tracks b (wanted.foldl (clearingDecision s.tracks b) s)

/-- A track's record when its unit leaves ACTIVE (R52). -/
def trackLostRec (r : TrackRec) : TrackRec :=
  let held := { r with timer := none, noisy := 0, good := 0 }
  if r.state = .suspect then held else { held with state := .failed, cause := some .unit }

end Sys2Proof.Machine
end

