-- ==== Sys2Proof/Machine/Roster.lean ====
section
/-! DEFINITION. The unit roster (02_field_units_and_the_roster.md): what makes a unit's reports count, the loss of a unit,
and identity. -/

namespace Sys2Proof.Machine

/-! ### The loss of a unit (R32, R52, R78, R137, R149) -/

/-- The tracks of a list go to the values of a lost unit, and the changes are handed on (R52, R53). -/
def tracksLost (b : Bank) (ts : List Nat) (s : State) : State :=
  tracksHanded s.tracks b { s with tracks := s.tracks.map fun p => if ts.contains p.1 then (p.1, trackLostRec p.2) else p }

/-- The objects of a list, served by a unit of kind `k` that leaves ACTIVE, take their restrictive values (R32). -/
def objectsLost (b : Bank) (k : UnitKind) (ns : List Nat) (s : State) : State :=
  match k with
  | .tu => tracksLost b ns s
  | .lfu => ns.foldl leverLost s
  | .lu => ns.foldl lampLost s
  | .iu => ns.foldl commutatorLost s
  | .du | .mt | .none => s

/-- The objects of the unit at an address take their restrictive values (R32). -/
def unitObjectsLost (b : Bank) (a : Nat) (s : State) : State :=
  objectsLost b (b.kindAt a) ((b.assignedChannels a).map Prod.snd) s

/-- An ACTIVE unit goes to SILENT with UNIT_STATE (R28, R29); a unit in any other state is untouched. -/
def unitSilenced (s : State) (b : Bank) (a : Nat) : State :=
  if s.unitActive a then
    let silent := modifyUnit s a fun u => { u with state := .silent, report := none }
    unitObjectsLost b a (raise silent .unitState a (unitChange .active .silent))
  else s

/-- One unit at a loop break (R30). -/
def unitBroken (b : Bank) (s : State) (a : Nat) : State :=
  match recAt s.units a with
  | some u =>
    match u.state with
    | .active => unitObjectsLost b a (modifyUnit s a fun v => { v with state := .silent, report := none })
    | .probing => modifyUnit s a fun v => { v with state := .silent, probeWindow := none }
    | _ => s
  | none => s

/-- Every ACTIVE or PROBING unit at a loop break (R30): by rising address, each unit's objects by channel, which orders their
events; the model's choice (log entry 4). -/
def unitsBroken (b : Bank) (s : State) : State := (s.units.map Prod.fst).foldl (unitBroken b) s

/-- A unit is put into PROBING, its objects falling where it was ACTIVE (R22, R26, R31, R32). -/
def unitProbed (s : State) (b : Bank) (a : Nat) : State :=
  if s.unitActive a then unitObjectsLost b a (enterProbing s a) else enterProbing s a

/-! ### Reports (R27, R31) -/

/-- The report timer of an address's entry, in 10 ms units (R19). -/
def reportTimeout (b : Bank) (a : Nat) : Nat := (b.rosterAt a).timeout.toNat * 10

/-- A report restarts the timer of an ACTIVE unit (R27). -/
def reportCounted (s : State) (b : Bank) (a : Nat) : State :=
  modifyUnit s a fun u => { u with report := some (s.after (reportTimeout b a)) }

/-! ### Identity (R25) -/

/-- An IDENT's serial. -/
def identSerial (bs : List Byte) : BitVec 32 := byteAt bs 1 ++ byteAt bs 2 ++ byteAt bs 3 ++ byteAt bs 4

/-- An IDENT matches a roster entry (R25). -/
def identMatches (e : RosterEntry) (bs : List Byte) : Bool :=
  byteAt bs 0 = e.kind && (e.serial = 0 || identSerial bs = e.serial)

/-- The record that a judged IDENT leaves (R25, R27). -/
def identified (e : RosterEntry) (expiry : Time) (bs : List Byte) (u : UnitRec) : UnitRec :=
  { u with state := if identMatches e bs then .active else .mismatch,
           obsKind := some (byteAt bs 0), obsSerial := some (identSerial bs), obsEdition := some (byteAt bs 5),
           probeWindow := none, reprobe := none, started := true,
           report := if identMatches e bs && UnitKind.ofByte e.kind ≠ .mt then some expiry else none }

/-- An IDENT from an address (R25). -/
def identArrives (s : State) (b : Bank) (a : Nat) (bs : List Byte) : State :=
  match recAt s.units a with
  | some u =>
    if u.probed then
      let e := b.rosterAt a
      let judged := modifyUnit s a (identified e (s.after (reportTimeout b a)) bs)
      raise judged .unitState a (unitChange u.state (if identMatches e bs then .active else .mismatch))
    else s
  | none => s

end Sys2Proof.Machine
end

