-- ==== Sys2Proof/Machine/Supervisor.lean ====
section
/-! DEFINITION. The supervisor (12_start_up_trips_and_the_event_queue.md): the entry to RUNNING, trips, and resets. -/

namespace Sys2Proof.Machine

/-- The part enters RUNNING out of STARTING: alarms brought into agreement, and START (R152, R173). -/
def startingEnds (s : State) : State :=
  let agreed := alarmsAgree { s with part := .running, startTimer := none }
  raise agreed .start 0 (s.resetKind.code * 256 + PartState.running.code)

/-- STARTING ends in the arrival after which every unit record has its Started flag set (R173). -/
def startingChecked (s : State) : State :=
  if s.part = .starting && s.active.isSome && s.units.all (fun p => p.2.started) then startingEnds s else s

/-- BANK_STORED: the bank in storage waits for the next reset (R168). -/
def bankStored (s : State) (edition : BitVec 16) : State := raise s .bankStored 0 edition.toNat

/-- A trip that arrives while completion is held (R168). -/
def heldTripped (s : State) : State :=
  if s.switchHeld then bankStored { s with switchHeld := false } s.stored.bank.edition else s

/-- The trip record of a trip (R176). -/
def tripRecord (s : State) (cause : TripCause) (object : Nat) (sent returned : Option Byte) : TripRec :=
  { cause := cause, object := object, sent := sent, returned := returned, time := s.now, previous := s.part }

/-- The alarms at the entry to TRIPPED: judged afresh where they were held before (R152, R176). -/
def alarmsAtTrip (from' : PartState) (s : State) : State := if from' = .running then s else alarmsAgree s

/-- The sections at the entry to TRIPPED, where a bank is in use (R145). -/
def sectionsAtTrip (s : State) : State :=
  match s.bank with
  | some b => sectionsTripped s b
  | none => s

/-- The part enters TRIPPED (R176, R145, R152, R168). -/
def tripped (s : State) (cause : TripCause) (object : Nat) (sent returned : Option Byte) : State :=
  let entered : State :=
    { s with part := .tripped, trip := some (tripRecord s cause object sent returned), startTimer := none }
  heldTripped (alarmsAtTrip s.part (sectionsAtTrip (raise entered .trip object cause.code)))

/-- A trip cause reaches the supervisor (R176, R177; log entry 30). -/
def tripCause (s : State) (cause : TripCause) (object : Nat) (sent returned : Option Byte) : State :=
  match s.part with
  | .tripped => raise s .tripRepeated object cause.code
  | .unconfigured => s
  | _ => tripped s cause object sent returned

/-- The storage after a reset: not known where the reset cut a store short (R167, R175; log entry 12). -/
def storageAfterReset (s : State) : BankImage × Nat :=
  match s.storeOp with
  | some _ => (Config.storageUnknown s.freeCount, s.freeCount + 1)
  | none => (s.stored, s.freeCount)

/-- The trip record after a reset (R175). -/
def tripAfterReset (k : ResetKind) (t : Option TripRec) : Option TripRec :=
  match k with
  | .power => none
  | _ => t

/-- A reset: every block takes its values after a reset (R18, R21, R54, R86, R117, R130, R146, R153, R159, R160, R173,
R175). What waits outside, the pins and the storage are kept. -/
def resetTo (k : ResetKind) (held : Bool) (s : State) : State :=
  { pending := s.pending, key := s.key, inReset := held, resetKind := k,
    stored := (storageAfterReset s).1, freeCount := (storageAfterReset s).2, trip := tripAfterReset k s.trip }

end Sys2Proof.Machine
end

