-- ==== Sys2Proof/Machine/Settle.lean ====
section
/-! DEFINITION. The end of an arrival: LE's conclusion, the commands and messages that the arrival's changes place (R74, R96,
R144, R157), the end of STARTING (R173), and the arbiters (R10, R114). What changed is found by comparing the states of a
stage: the state it began in, LE's readings, and the state it ended in. An arrival has one stage, a TRACK_SAMPLE one for each
pass (log entry 9). -/

namespace Sys2Proof.Machine

/-- The INSTR messages of the sections whose own state changed (R115, R144). -/
def instrPlaced (old : State) (b : Bank) (s : State) : State :=
  s.sections.foldl (fun s p =>
    match recAt old.sections p.1 with
    | some r =>
      if r.own = p.2.own then s
      else placeLine s (b.sectionEntry p.1).lineOf (.instr (b.sectionEntry p.1).channel.toNat p.2.own)
    | none => s) s

/-- The bank now in use was not in use before with the same roster entry for an address (R11, R17). -/
def freshAddress (old : State) (b : Bank) (a : Nat) : Bool :=
  match old.bank with
  | some o => decide (o.rosterAt a ≠ b.rosterAt a)
  | none => true

/-- The contents of an address's command before the arrival. -/
def contentsBefore (old : State) (a : Nat) : Option OutFrame :=
  match old.bank with
  | some o => stateCommand old o a
  | none => none

/-- Every LFU is sent a LOCK_SET: the part has left RUNNING, or has entered TRIPPED (R73, R176). -/
def locksAll (old s : State) : Bool :=
  (old.part = .running && s.part ≠ .running) || (old.part ≠ .tripped && s.part = .tripped)

/-- A stage calls for the command of the address `a`: its roster entry is new, or its contents changed in the stage, changed
back or not, or every LFU is sent one (R11, R17, R73, R74, R96, R144, R157). `stage` holds the states the stage went through
after `start`. -/
def commandCalled (start : State) (stage : List State) (b : Bank) (k : UnitKind) (a : Nat) : Bool :=
  freshAddress start b a || (k = .lfu && stage.any (locksAll start))
  || stage.any fun y => contentsBefore start a ≠ stateCommand y b a

/-- A command for an address is placed where a stage calls for it, with the contents of the end of the arrival (R74, R157); one
for a stage (log entry 46). -/
def commandPlaced (start : State) (stage : List State) (b : Bank) (k : UnitKind) (s : State) (a : Nat) : State :=
  if b.kindAt a = k && commandCalled start stage b k a then
    match stateCommand s b a with
    | some f => place s f
    | none => s
  else s

def commandsPlaced (start : State) (stage : List State) (b : Bank) (k : UnitKind) (s : State) : State :=
  addresses.foldl (commandPlaced start stage b k) s

/-- The mode of every defined output, computed from its source (R155, R159). -/
def modesComputed (b : Bank) (s : State) : State :=
  { s with outputs := makeRecs (b.objects .du) fun o => sourceMode s (b.diagramEntry o) }

/-- What the changes of a stage place, in a fixed order (log entry 4). -/
def settle (start : State) (stage : List State) (s : State) : State :=
  match s.bank with
  | some b =>
    let locks := commandsPlaced start (stage ++ [s]) b .lfu (instrPlaced start b s)
    let repeaters := commandsPlaced start [locks] b .iu locks
    let modes := modesComputed b repeaters
    commandsPlaced start [modes] b .du modes
  | none => s

/-- What the changes of a first pass, which went through the states of `pass`, place: the commands with the contents of `s`, the
end of the arrival (R53, R74, R155, R157). -/
def settlePass (pass : List State) (s : State) : State :=
  match pass, s.bank with
  | start :: stage, some b =>
    let shown := modesComputed b s
    commandsPlaced start stage b .du (commandsPlaced start stage b .lfu shown)
  | _, _ => s

/-- The states of LE's readings, and of those made again where STARTING ends with the arrival (R72, R73, R96, R173). -/
def readingsWith (ended : List (Nat × Position)) (s : State) : List State :=
  let readings := leverReadings ended s
  let begun := startingChecked (readings.getLastD s)
  if begun.part = (readings.getLastD s).part then readings else readings ++ leverReadings [] begun

/-- STARTING ends by a unit that went ABSENT as its probe was dropped in the arrival's own placing (R9, R22, R173). -/
def startingEnded (s : State) : State :=
  let begun := startingChecked s
  if begun.part = s.part then s else settle s (leverReadings [] begun) (concludeLevers [] begun)

/-- The end of an arrival that may have changed records; `ended` are the FREE strokes that a report ended (R97), `pass`
the states of the first pass of a TRACK_SAMPLE, from the one before the arrival. The transmitters take what stands for them
last (log entry 5). -/
def finishWith (ended : List (Nat × Position)) (pass : List State) (old s : State) : State :=
  let readings := readingsWith ended s
  arbiters (startingEnded (settle (pass.getLastD old) readings (settlePass pass (readings.getLastD s))))

/-- What an arrival has done so far. -/
inductive Treated where
  /-- No record that another block reads has changed: at most events are raised and frames of class 4 placed. -/
  | quiet (s : State)
  /-- Records may have changed; `ended` are the FREE strokes that a report ended (R97), `pass` the states of the first
  pass of a TRACK_SAMPLE. -/
  | changed (s : State) (ended : List (Nat × Position)) (pass : List State := [])
  deriving DecidableEq, Repr

/-- The end of an arrival that began in `old` (R96, R144, R155). -/
def concluded (old : State) (x : Treated) : State :=
  match x with
  | .quiet s => arbiters s
  | .changed s ended pass => finishWith ended pass old s

/-- The end of an arrival that may have changed records (R96, R144, R155). -/
def finish (old s : State) : State := finishWith [] [] old s

end Sys2Proof.Machine
end

