-- ==== Sys2Proof/Machine/Switch.lean ====
section
/-! DEFINITION. Taking a bank into use (R21, R54, R86, R116, R130, R146, R153, R159, R173) and the completion of a bank
switch (R17, R35, R55, R86, R131, R146, R153, R156, R168, R169). -/

namespace Sys2Proof.Machine

/-! ### What differs between the banks (R169) -/

/-- The roster entry of an address differs, or there was no roster (R17, R35). -/
def entryChanged (old : Option Bank) (new : Bank) (a : Nat) : Bool :=
  match old with
  | some o => decide (o.rosterAt a ≠ new.rosterAt a)
  | none => true

/-- An object's unit address or channel differs, or it was undefined (R169). -/
def assignmentChanged (old : Option Bank) (new : Bank) (k : UnitKind) (n : Nat) : Bool :=
  match old with
  | some o => decide (o.assignment k n ≠ new.assignment k n)
  | none => true

/-- A pool entry that a range covers differs from the entry at the same index (R99, R169). -/
def coverChanged (old new : Bank) (r : ListRange) : Bool :=
  (new.covered r).any fun p => old.pool.getD p.1 default ≠ p.2

def trackRedefined (old : Option Bank) (new : Bank) (t : Nat) : Bool :=
  assignmentChanged old new .tu t || (match old with | some o => o.trackEntry t ≠ new.trackEntry t | none => true)

def leverRedefined (old : Option Bank) (new : Bank) (n : Nat) : Bool :=
  assignmentChanged old new .lfu n ||
  (match old with
   | some o =>
     o.leverEntry n ≠ new.leverEntry n || coverChanged o new (new.leverEntry n).reverseList
     || coverChanged o new (new.leverEntry n).normalList
   | none => true)

def sectionRedefined (old : Option Bank) (new : Bank) (n : Nat) : Bool :=
  assignmentChanged old new .iu n ||
  (match old with
   | some o => o.sectionEntry n ≠ new.sectionEntry n || coverChanged o new (new.sectionEntry n).acceptance
   | none => true)

def lineChanged (old : Option Bank) (new : Bank) (l : Line) : Bool :=
  match old with
  | some o => o.lineSettings l ≠ new.lineSettings l
  | none => true

def timingChanged (old : Option Bank) (new : Bank) : Bool :=
  match old with
  | some o => o.timing ≠ new.timing
  | none => true

/-- Records for the defined objects of a bank: made afresh where redefined, kept otherwise (R169). -/
def remade (ns : List Nat) (redefined : Nat → Bool) (fresh : Nat → α) (old : Recs α) : Recs α :=
  makeRecs ns fun n => if redefined n then fresh n else (recAt old n).getD (fresh n)

/-! ### The loop controller at a switch (R17) -/

/-- At the completion of a switch, what stood for the changed addresses is removed, all of it before the transmitter takes a
frame in its place (R17, R10). A removed reply of a RESTART counts as dropped (log entry 14). -/
def changedPurged (old : Option Bank) (new : Bank) (s : State) : State :=
  let purged : State :=
    { s with outQueue := s.outQueue.filter fun f => !entryChanged old new f.dest,
             lossMarks := s.lossMarks.filter fun a => !entryChanged old new a,
             refresh := s.refresh.filter fun p => !entryChanged old new p.1,
             restartDue := s.restartDue || s.outQueue.any fun f => entryChanged old new f.dest && f.restart }
  entriesLeave purged (s.pendingReturns.filter fun p => !entryChanged old new p.dest)

/-- The refresh timers of a new bank: a changed address's starts expired, so its frame is queued and it runs its full
period (R11, R17). -/
def refreshStarted (old : Option Bank) (new : Bank) (s : State) : State :=
  { s with refresh := addresses.filterMap fun a =>
      match (new.kindAt a).refreshed with
      | some k =>
        if entryChanged old new a then some (a, s.after k.period)
        else (recAt s.refresh a).map fun t => (a, t)
      | none => none }

/-! ### The blocks' records -/

/-- The addresses whose roster entry has a kind other than NONE. -/
def filled (b : Bank) : List Nat := addresses.filter fun a => b.kindAt a ≠ .none

/-- The unit records (R21, R35). -/
def unitsAdopted (old : Option Bank) (new : Bank) (s : State) : State :=
  { s with units := remade (filled new) (entryChanged old new) (fun _ => {}) s.units }

/-- The addresses whose unit was ACTIVE and is made afresh (R35). -/
def unitsTaken (old : Option Bank) (new : Bank) (before : Recs UnitRec) : List Nat :=
  (filled new).filter fun a =>
    entryChanged old new a && (match recAt before a with | some u => u.state = .active | none => false)

/-- The kept objects of a type on units that were ACTIVE and are made afresh (R55, R86, R146, R153). -/
def keptOn (new : Bank) (as : List Nat) (k : UnitKind) (redefined : Nat → Bool) : List Nat :=
  (as.filter fun a => new.kindAt a = k).flatMap fun a =>
    ((new.assignedChannels a).map Prod.snd).filter fun n => !redefined n

/-- The track records (R55, R67). Their changes are handed on once every block's records are made (R168). -/
def tracksAdopted (old : Option Bank) (new : Bank) (lost : List Nat) (s : State) : State :=
  let made := remade (new.objects .tu) (trackRedefined old new) (fun _ => ({} : TrackRec)) s.tracks
  { s with tracks := made.map fun p => if lost.contains p.1 then (p.1, trackLostRec p.2) else p }

/-- The lever records (R86). -/
def leversAdopted (old : Option Bank) (new : Bank) (lost : List Nat) (s : State) : State :=
  lost.foldl leverLost
    { s with levers := remade (new.objects .lfu) (leverRedefined old new) (fun _ => ({} : LeverRec)) s.levers }

/-- Recognisers kept at a switch: one that is COLLECTING is made IDLE where the timing parameters changed (R131). -/
def recogniserKept (retimed : Bool) (r : Recogniser) : Recogniser := if retimed && r.collecting then {} else r

def recognisersAdopted (old : Option Bank) (new : Bank) (rs : Recs Recogniser) : Recs Recogniser :=
  (remade (new.objects .iu) (sectionRedefined old new) (fun _ => ({} : Recogniser)) rs).map fun p =>
    (p.1, recogniserKept (timingChanged old new) p.2)

/-- The section records, recognisers and exchange records (R131, R146). -/
def sectionsAdopted (old : Option Bank) (new : Bank) (lost : List Nat) (s : State) : State :=
  lost.foldl commutatorLost
    { s with sections := remade (new.objects .iu) (sectionRedefined old new)
               (fun n => newSection (new.sectionEntry n).dir) s.sections,
             exchanges := remade (new.objects .iu) (sectionRedefined old new) (fun _ => ({} : Exchange)) s.exchanges,
             incoming := recognisersAdopted old new s.incoming,
             here := recognisersAdopted old new s.here }

/-- The lamp records (R153). -/
def lampsAdopted (old : Option Bank) (new : Bank) (lost : List Nat) (s : State) : State :=
  lost.foldl lampLost
    { s with lamps := remade (new.objects .lu) (assignmentChanged old new .lu) (fun _ => ({} : LampRec)) s.lamps }

/-- The live intensities (R156). -/
def groupsAdopted (old : Option Bank) (new : Bank) (s : State) : State :=
  { s with groupLive := (List.range 5).map fun i =>
      let initial := (new.groups.getD i 0).toNat
      match old with
      | some o => if o.groups.getD i 0 ≠ new.groups.getD i 0 then initial else s.groupLive.getD i initial
      | none => initial }

/-- The lines whose settings changed start (R116). -/
def linesAdopted (old : Option Bank) (new : Bank) (s : State) : State :=
  let first := if lineChanged old new .a then lineStarted s new .a else s
  if lineChanged old new .b then lineStarted first new .b else first

/-- A probe for every unit record made afresh (R22, R35). -/
def probesPlaced (old : Option Bank) (new : Bank) (s : State) : State :=
  placeAll s (((filled new).filter (entryChanged old new)).map fun a => { kind := .identProbe, dest := a })

/-- The part takes a bank into use, out of no bank or in place of an old one: every block makes its records, then the changes of
tracks are handed on (R168), probes are placed and lines start; that the handing on comes before the lines is the model's
choice (log entry 4). The commands of the new roster are placed when the arrival settles (R17, R21, R168, R173). -/
def bankAdopted (img : BankImage) (s : State) : State :=
  let old := s.bank
  let new := img.bank
  let taken := unitsTaken old new s.units
  let units := unitsAdopted old new (refreshStarted old new { s with active := some img })
  let tracks := tracksAdopted old new (keptOn new taken .tu (trackRedefined old new)) units
  let levers := leversAdopted old new (keptOn new taken .lfu (leverRedefined old new)) tracks
  let sections := sectionsAdopted old new (keptOn new taken .iu (sectionRedefined old new)) levers
  let lamps := lampsAdopted old new (keptOn new taken .lu (assignmentChanged old new .lu)) sections
  linesAdopted old new (probesPlaced old new (tracksHanded s.tracks new (groupsAdopted old new lamps)))

/-! ### The switch (R168, R170) -/

/-- The lowest-numbered lever away from NORMAL (R168). -/
def leverAway (s : State) : Option (Nat × LeverRec) := s.levers.find? fun p => p.2.position ≠ .normal

/-- A bank switch completes: the bank is taken into use, the part enters RUNNING, BANK_SWITCHED (R168, R152). -/
def switchCompleted (img : BankImage) (s : State) : State :=
  let adopted := bankAdopted img { s with check := .unchecked, switchHeld := false }
  raise (alarmsAgree { adopted with part := .running }) .bankSwitched 0 img.bank.edition.toNat

/-- The store operation ends with what was written (R168). -/
def storeEnded (img : BankImage) (s : State) : State :=
  let written : State := { s with stored := img, storeOp := none }
  match s.part with
  | .switching =>
    match leverAway s with
    | some (n, l) => raise { written with switchHeld := true } .switchHeld n l.position.code
    | none => switchCompleted img (changedPurged s.bank img.bank written)
  | .tripped => bankStored written img.bank.edition
  | _ => written

/-- The store operation ends with a read-back that differs (R170; log entry 12). -/
def storeFailed (s : State) : State :=
  tripCause { s with stored := Config.storageUnknown s.freeCount, freeCount := s.freeCount + 1, storeOp := none }
    .storeFail 0 none none

/-- The start-up comparison is still to be made (R173). -/
def comparisonDue (s : State) : Bool := s.part = .starting && s.active.isNone

/-- The start-up comparison: the stored bank is taken into use, or the part goes to UNCONFIGURED (R173). -/
def startupCompared (s : State) : State :=
  if s.stored.bank.crc32 = s.stored.crc then
    { bankAdopted s.stored s with startTimer := some (s.after Config.startTime) }
  else
    raise { s with part := .unconfigured } .start 0 (s.resetKind.code * 256 + PartState.unconfigured.code)

end Sys2Proof.Machine
end

