-- ==== Sys2Proof/Machine/Maint.lean ====
section
/-! DEFINITION. The maintenance request handler (R36, 11_table_banks_and_maintenance_requests.md): the form of a request,
its tests, its effect and its reply. -/

namespace Sys2Proof.Machine

/-! ### The form of a request (R161, R162, R163, R171, 13.4) -/

/-- A request as read. -/
inductive Request where
  | readRecord (c : RecordClass) (i : Nat)
  /-- LOAD_TABLE of a bank table: the shadow bank as it would then stand. -/
  | loadTable (c : RecordClass) (i : Nat) (contents : List Byte)
  | loadEdition (e : BitVec 16)
  | copyBank
  | checkBank
  | switchBank
  | restoreTrack (t : Nat)
  | clearViolation (n : Nat)
  | blockRelease (n : Nat)
  | ackAlarms
  | setGroup (g value : Nat)
  | reprobe (a : Nat)
  | readEvents (n : Nat)
  | restart
  deriving DecidableEq, Repr

/-- The class and the index of bytes 2 and 3 (13.4). -/
def classIndex (hi lo : Byte) : Option RecordClass × Nat :=
  let n := hi.toNat * 256 + lo.toNat
  (RecordClass.ofNat? (n / 2048), n % 2048)

/-- A number within a range, in byte 2. -/
def numbered (params : List Byte) (lo hi : Nat) (make : Nat → Request) : Option Request :=
  match params with
  | n :: _ => if lo ≤ n.toNat ∧ n.toNat ≤ hi then some (make n.toNat) else none
  | [] => none

/-- READ_RECORD's form (R162). -/
def readForm (params : List Byte) : Option Request :=
  match params with
  | hi :: lo :: _ =>
    match classIndex hi lo with
    | (some c, i) => if c.indexOk i then some (.readRecord c i) else none
    | (none, _) => none
  | _ => none

/-- LOAD_TABLE's form (R163). -/
def loadForm (params : List Byte) : Option Request :=
  match params with
  | hi :: lo :: contents =>
    match classIndex hi lo with
    | (some .bankState, 1) =>
      match contents with
      | e1 :: e0 :: _ => some (.loadEdition (e1 ++ e0))
      | _ => none
    | (some c, i) =>
      if c.indexOk i ∧ c.entryLength ≤ contents.length then some (.loadTable c i contents) else none
    | (none, _) => none
  | _ => none

/-- A request as read from its code and parameters; none where its form is faulty (R161, 13.4). -/
def readRequest (code : Nat) (params : List Byte) : Option Request :=
  if code = 1 then readForm params
  else if code = 2 then loadForm params
  else if code = 3 then some .copyBank
  else if code = 4 then some .checkBank
  else if code = 5 then some .switchBank
  else if code = 6 then numbered params 1 24 .restoreTrack
  else if code = 7 then numbered params 1 48 .clearViolation
  else if code = 8 then numbered params 1 4 .blockRelease
  else if code = 9 then some .ackAlarms
  else if code = 10 then
    match params with
    | g :: v :: _ => if g.toNat ≤ 5 then some (.setGroup g.toNat v.toNat) else none
    | _ => none
  else if code = 11 then numbered params 1 31 .reprobe
  else if code = 12 then numbered params 1 8 .readEvents
  else if code = 13 then some .restart
  else none

/-! ### Replies (R161, R181, 13.4) -/

/-- A reply's frame. -/
def replyFrame (src : Nat) (tag : Byte) (code status third : Nat) (results : List Byte) : OutFrame :=
  { kind := .maintReply, dest := src, payload := tag :: b1 code :: b1 status :: b1 third :: results }

/-- What a request's tests and effect give. -/
inductive Verdict where
  /-- Taken; the banks or the event queue may have changed, and no record of a block. -/
  | done (s : State) (results : List Byte)
  /-- Taken, and records of the blocks may have changed. -/
  | acted (s : State) (results : List Byte)
  | refused (why : RefusalReason)
  /-- Taken; the reply is carried in frames, each with its third byte and its results (R181). -/
  | framed (s : State) (frames : List (Nat × List Byte))
  /-- RESTART is taken (R172). -/
  | restarting
  deriving DecidableEq, Repr

/-- Results cut into frames of 20 bytes, numbered from 0 (R181). -/
def chunked : Nat → Nat → List Byte → List (Nat × List Byte)
  | 0, i, bs => [(i, bs)]
  | fuel + 1, i, bs => if bs.length ≤ 20 then [(i, bs)] else (i, bs.take 20) :: chunked fuel (i + 1) (bs.drop 20)

/-- READ_EVENTS's results: up to two entries a frame, the last frame marked (R181, 13.4). -/
def eventFrames : List Event → List (Nat × List Byte)
  | [] => [(0, [128])]
  | [e] => [(0, 129 :: eventBytes e)]
  | [e, f] => [(0, 130 :: (eventBytes e ++ eventBytes f))]
  | e :: f :: rest => (0, 2 :: (eventBytes e ++ eventBytes f)) :: eventFrames rest

/-! ### The requests (R163 to R166, R171, R172) -/

/-- SWITCH_BANK's tests, in their order; the reason of the first that fails (R166). -/
def switchRefused (s : State) : Option RefusalReason :=
  if s.part ≠ .running ∧ s.part ≠ .unconfigured then some .state
  else if !s.key then some .noKey
  else
    match s.check with
    | .passed _ =>
      if s.levers.any fun p => p.2.position ≠ .normal || p.2.catchUp then some .frameNotAtRest
      else if s.levers.any fun p => p.2.violation then some .violation
      else if s.sections.any fun p =>
        (match s.bank with | some b => (b.sectionEntry p.1).dir ≠ .outbound | none => true) && p.2.own ≠ .blocked
      then some .sectionInUse
      else if s.levers.any fun p => p.2.approach.isSome then some .approachLocked
      else none
    | _ => some .unchecked

/-- SWITCH_BANK taken: the store operation begins (R165, R166). -/
def switchTaken (s : State) : State :=
  match s.check with
  | .passed crc => { s with part := .switching, storeOp := some { bank := s.shadow, crc := crc } }
  | _ => s

/-- The record of a track that RESTORE_TRACK takes out of SUSPECT (R65). -/
def restored (active : Bool) (e : TrackEntry) (r : TrackRec) : TrackRec :=
  if !active then { r with state := .failed, cause := some .unit }
  else if e.p.toNat ≤ r.s then { r with state := .clear, provedOnce := true, unexpected := false, exitSeen := false }
  else { r with state := .occupied, exitSeen := false }

/-- RESTORE_TRACK (R65). -/
def restoreTrack (s : State) (t : Nat) : Verdict :=
  match s.bank, recAt s.tracks t with
  | some b, some r =>
    if r.state = .suspect then
      let active := match b.assignment .tu t with | some (a, _) => s.unitActive a | none => false
      let after := restored active (b.trackEntry t) r
      let changed := provingJudged s.tracks b (modifyTrack s t fun _ => after)
      .acted (raise (tracksHanded s.tracks b changed) .trackRestored t after.state.code) []
    else .refused .notSuspect
  | _, _ => .refused .notSuspect

/-- CLEAR_VIOLATION (R82). -/
def clearViolation (s : State) (n : Nat) : Verdict :=
  if !s.key then .refused .noKey
  else
    match recAt s.levers n with
    | some l =>
      if l.position ≠ .normal then .refused .notNormal
      else if l.violation then
        .acted (raise (modifyLever s n fun x => { x with violation := false }) .violationCleared n 0) []
      else .acted s []
    | none => .refused .notNormal

/-- BLOCK_RELEASE (R142). -/
def blockRelease (s : State) (n : Nat) : Verdict :=
  if !s.key then .refused .noKey
  else
    match recAt s.sections n with
    | some r =>
      if r.own ≠ .onLine then .refused .notOnLine
      else if r.progress = .proven then .acted s []
      else
        .acted (raise (modifySection s n fun x => { x with progress := .proven }) .blockReleased n r.progress.code) []
    | none => .refused .notOnLine

/-- SET_GROUP_INTENSITY (R156, R171). -/
def setGroup (s : State) (g value : Nat) : Verdict :=
  match s.bank with
  | some _ =>
    let set : State := if g = 0 then s else { s with groupLive := s.groupLive.set (g - 1) (min value 15) }
    .acted set [b1 (groupIntensity set g)]
  | none => .refused .state

/-- REPROBE_UNIT (R26, R171). -/
def reprobeUnit (s : State) (a : Nat) : Verdict :=
  match s.bank with
  | some b => if b.kindAt a = .none then .refused .undefined else .acted (unitProbed s b a) []
  | none => .refused .undefined

/-- LOAD_TABLE (R163). -/
def loadTable (s : State) (c : RecordClass) (i : Nat) (contents : List Byte) : Verdict :=
  match s.shadow.loadEntry c i contents with
  | some b => .done { s with shadow := b, check := .unchecked } []
  | none => .refused .readOnly

/-- COPY_BANK (R163). -/
def copyBank (s : State) : Verdict :=
  match s.bank with
  | some b => .done { s with shadow := b, check := .unchecked } []
  | none => .refused .state

/-- CHECK_BANK (R164). -/
def checkBank (s : State) : Verdict :=
  .done { s with check := checkResult s.shadow } (checkResultBytes (checkResult s.shadow))

/-- The tests and the effect of a request (R161). -/
def requestTaken (s : State) (r : Request) : Verdict :=
  match r with
  | .readRecord c i =>
    let m := readRecord s c i
    .framed s (chunked 2 0 (b1 m.1.code :: m.2))
  | .loadTable c i contents => loadTable s c i contents
  | .loadEdition e => .done { s with shadow := { s.shadow with edition := e }, check := .unchecked } []
  | .copyBank => copyBank s
  | .checkBank => checkBank s
  | .switchBank =>
    match switchRefused s with
    | some why => .refused why
    | none => .acted (switchTaken s) []
  | .restoreTrack t => restoreTrack s t
  | .clearViolation n => clearViolation s n
  | .blockRelease n => blockRelease s n
  | .ackAlarms => .acted (acknowledge s) []
  | .setGroup g value => setGroup s g value
  | .reprobe a => reprobeUnit s a
  | .readEvents n => .framed { s with events := s.events.drop n } (eventFrames (s.events.take n))
  | .restart => if s.key then .restarting else .refused .noKey

/-- Requests that are taken while the part is SWITCHING (R161). -/
def Request.whileSwitching : Request → Bool
  | .readRecord _ _ | .readEvents _ => true
  | _ => false

/-- A request is judged and answered (R161). -/
def requestHandled (s : State) (src : Nat) (tag : Byte) (code : Nat) (params : List Byte) : Treated :=
  match readRequest code params with
  | none => .quiet (place s (replyFrame src tag code 2 0 []))
  | some r =>
    if s.part = .switching && !r.whileSwitching then
      .quiet (place s (replyFrame src tag code 1 RefusalReason.busy.code []))
    else
      match requestTaken s r with
      | .done t results => .quiet (place t (replyFrame src tag code 0 0 results))
      | .acted t results => .changed (place t (replyFrame src tag code 0 0 results)) []
      | .refused why => .quiet (place s (replyFrame src tag code 1 why.code []))
      | .framed t frames => .quiet (placeAll t (frames.map fun f => replyFrame src tag code 0 f.1 f.2))
      | .restarting => .quiet (place s { replyFrame src tag code 0 0 [] with restart := true })

/-- The request of a SILENT terminal, whose unit also enters PROBING (R31, R36). -/
def probingToo (x : Treated) : Treated :=
  match x with
  | .quiet s => .changed s []
  | .changed s ended pass => .changed s ended pass

/-- The state with the source of the last request handed to the MR (R179). -/
def State.requestedBy (s : State) (src : Nat) : State := { s with lastRequester := some src }

/-- A MAINT_REQUEST handed on by R7 (R36). That a SILENT terminal's unit enters PROBING before its request is carried out (R31) is
the model's choice (log entry 48). -/
def maintArrives (s : State) (src : Nat) (payload : List Byte) : Treated :=
  let tag := byteAt payload 0
  let code := (byteAt payload 1).toNat
  let handle := fun t : State =>
    requestHandled (t.requestedBy src) src tag code (payload.drop 2)
  match s.bank with
  | none => handle s
  | some b =>
    if b.kindAt src = .mt then
      match recAt s.units src with
      | some u =>
        if u.state = .mismatch then .quiet (raise s .foreignRequest src code)
        else if u.state = .silent then probingToo (handle (enterProbing s src))
        else handle s
      | none => handle s
    else .quiet (raise s .foreignRequest src code)

end Sys2Proof.Machine
end

