-- ==== Sys2Proof/Machine/Loop.lean ====
section
/-! DEFINITION. Frames arriving at LOOP-IN (R6, R7): returns (R12, R13, R14), reports handed to their owners, and the loop
state (R15, R16). -/

namespace Sys2Proof.Machine

/-! ### Returns (R12, R13, R14) -/

/-- A number put into a rising list. -/
def markIn : List Nat → Nat → List Nat
  | [], a => [a]
  | b :: bs, a => if a < b then a :: b :: bs else if a = b then b :: bs else b :: markIn bs a

/-- A pending entry is lost: COMMAND_LOST under the loss mark of its address (R12). -/
def entryLost (s : State) (p : PendingReturn) : State :=
  if s.lossMarks.contains p.dest then s
  else raise { s with lossMarks := markIn s.lossMarks p.dest } .commandLost p.dest p.kind.code

/-- The entries older than the one of a sequence number, that entry, and the younger ones (R13). -/
def matchedEntry (seq : Byte) : List PendingReturn → Option (List PendingReturn × PendingReturn × List PendingReturn)
  | [] => none
  | p :: rest =>
    if p.seq = seq then some ([], p, rest)
    else (matchedEntry seq rest).map fun m => (p :: m.1, m.2.1, m.2.2)

/-- The LOCK_SET echo check fails (R14): the returned payload, its bytes beyond the copy's length disregarded, differs from the
copy (log entry 27). -/
def echoFails (p : PendingReturn) (f : Frame) : Bool := p.kind = .lockSet && f.payload.take p.payload.length ≠ p.payload

/-- A matched return is judged (R14). -/
def returnJudged (s : State) (p : PendingReturn) (f : Frame) : Treated :=
  if takenOf f then
    let kept : State := { s with lossMarks := s.lossMarks.filter fun a => a ≠ p.dest }
    if echoFails p f then
      .changed (tripCause kept .lockEcho p.dest p.payload.head? f.payload.head?) []
    else .quiet kept
  else if p.kind = .identProbe then .quiet s
  else
    match s.bank with
    | some b => .changed (unitSilenced s b p.dest) []
    | none => .quiet s

/-- A return arrives (R13, R14). -/
def returnArrives (s : State) (f : Frame) : Treated :=
  match matchedEntry f.seq s.pendingReturns with
  | some (older, p, younger) => returnJudged (older.foldl entryLost (entriesLeave s younger)) p f
  | none => .quiet s

/-! ### Counted reports (R7, R71, R81, R137, R148, R158) -/

/-- What a LEVER_REPORT gives for each lever of the unit, in channel order (R71). -/
def leverOutcomes (s : State) (b : Bank) (a : Nat) (bytes : List Byte) : List (Nat × LeverOutcome) :=
  (b.assignedChannels a).filterMap fun p =>
    (recAt s.levers p.2).map fun l =>
      (p.2, leverTakes s (b.leverEntry p.2) l (reportedPosition bytes p.1) (reportedCatch bytes p.1))

/-- The lever records with the outcomes of a report. -/
def leversWritten (os : List (Nat × LeverOutcome)) (s : State) : State :=
  os.foldl (fun s o => modifyLever s o.1 fun _ => o.2.record) s

/-- The events of a report's levers, lever by lever (R71, R80). The order of the levers is that of their channels, which is the
model's choice (log entry 4). -/
def leverEvents (os : List (Nat × LeverOutcome)) : List (EventKind × Nat × Nat) :=
  os.flatMap fun o =>
    (match o.2.contactFault with | some p => [(.leverContactFault, o.1, p.code)] | none => [])
    ++ (match o.2.violated with | some p => [(.leverViolation, o.1, p.code)] | none => [])

/-- The levers that a report violates (R81). -/
def violatedBy (os : List (Nat × LeverOutcome)) : List Nat :=
  os.filterMap fun o => if o.2.violated.isSome then some o.1 else none

/-- The lever that a MULTI_VIOLATION trip names, where a report causes one: a second violated lever, or a flag that stood
on another (R81; log entry 41). -/
def multiViolation (before : Recs LeverRec) (vs : List Nat) : Option Nat :=
  match vs.min? with
  | none => none
  | some lowest =>
    if 2 ≤ vs.length || before.any fun p => p.1 ≠ lowest && p.2.violation then some lowest else none

/-- The FREE strokes that a report ended at REVERSE or at FAULT, with the ends they left (R97; log entry 49). -/
def endedStrokes (os : List (Nat × LeverOutcome)) : List (Nat × Position) :=
  os.filterMap fun o => o.2.endedFree.map fun p => (o.1, p)

/-- A held switch completes in the first arrival after which every lever stands at NORMAL (R168). -/
def heldCompletes (s : State) : Bool := s.part = .switching && s.switchHeld && (leverAway s).isNone

/-- A counted LEVER_REPORT (R71, R81, R97, R168), and the strokes it ended. -/
def leversTaken (b : Bank) (a : Nat) (bytes : List Byte) (s : State) : Treated :=
  let os := leverOutcomes s b a bytes
  let written := leversWritten os s
  match multiViolation s.levers (violatedBy os) with
  | some n => .changed (tripCause (raiseAll written (leverEvents os)) .multiViolation n none none) (endedStrokes os)
  | none =>
    if heldCompletes written then
      .changed (switchCompleted s.stored (raiseAll written (leverEvents os))) []
    else .changed (raiseAll written (leverEvents os)) (endedStrokes os)

/-- A counted TRACK_SAMPLE, pass by pass: LE concludes and DG computes the modes after the first pass, and the end of the
arrival does so after the second (R39, R53, R96, R155). -/
def samplesTaken (b : Bank) (a : Nat) (bytes : List Byte) (s : State) : Treated :=
  let first := firstPass b a bytes s
  let readings := leverReadings [] first.1
  let passed := modesComputed b (readings.getLastD first.1)
  .changed (secondPass b first.2 passed) [] (s :: readings ++ [passed])

/-- A counted LAMP_REPORT (R148). -/
def lampsTaken (b : Bank) (a : Nat) (bytes : List Byte) (s : State) : State :=
  (b.assignedChannels a).foldl (fun s p => lampTakes s b p.2 (packed12 bytes p.1)) s

/-- A counted INSTR_REPORT: commutators, tapper strokes, then the acknowledge push (R7, R119, R137, R151). -/
def instrumentsTaken (b : Bank) (a : Nat) (bytes : List Byte) (s : State) : State :=
  let turned := (b.assignedChannels a).foldl (fun s p => takeCommutator s b p.2 (reportedCommutator bytes p.1)) s
  let tapped := (b.assignedChannels a).foldl (fun s p => if tapperMark bytes p.1 then localStroke s b p.2 else s) turned
  if acknowledgeMark bytes then acknowledge tapped else tapped

/-- One assigned channel of a DIAG_REPORT (R158). -/
def faultTaken (a : Nat) (bytes : List Byte) (s : State) (ch o : Nat) : State :=
  match recAt s.units a with
  | some u =>
    let new := reportedFault bytes ch
    if u.faults.getD ch .none = new then s
    else raise (modifyUnit s a fun v => { v with faults := v.faults.set ch new }) .diagramFault o new.code
  | none => s

/-- A counted DIAG_REPORT (R158). -/
def faultsTaken (b : Bank) (a : Nat) (bytes : List Byte) (s : State) : State :=
  (b.assignedChannels a).foldl (fun s p => faultTaken a bytes s p.1 p.2) s

/-- A counted report is taken whole by its owners (R7, R27). -/
def reportTaken (b : Bank) (a : Nat) (k : UnitKind) (bytes : List Byte) (s : State) : Treated :=
  match k with
  | .lfu => leversTaken b a bytes s
  | .tu => samplesTaken b a bytes s
  | .lu => .changed (lampsTaken b a bytes s) []
  | .iu => .changed (instrumentsTaken b a bytes s) []
  | .du => .changed (faultsTaken b a bytes s) []
  | .mt | .none => .quiet s

/-- A report is counted and handed to its owners, or causes probing, or is discarded, by its unit's state (R27, R31). -/
def reportArrives (s : State) (b : Bank) (a : Nat) (bytes : List Byte) : Treated :=
  match recAt s.units a with
  | some u =>
    match u.state with
    | .active => reportTaken b a (b.kindAt a) bytes (reportCounted s b a)
    | .silent => .changed (enterProbing s a) []
    | _ => .quiet s
  | none => .quiet s

/-! ### The loop state (R15, R16) -/

/-- The loop watch timer starts afresh (R15). -/
def watchRestarted (s : State) : State := { s with watch := s.after Config.watchTime }

/-- A valid frame arrives: the watch timer restarts, and a BROKEN loop comes UP (R6, R15, R16). -/
def loopHeard (s : State) : State :=
  let watched := watchRestarted s
  match s.loop with
  | .broken => raise { watched with loop := .up } .loopRestored 0 0
  | .up => watched

/-- The loop goes to BROKEN: LOOP_BROKEN, and its units go SILENT (R15, R30). -/
def loopBroken (s : State) : State :=
  let broken := raise { watchRestarted s with loop := .broken } .loopBroken 0 0
  match s.bank with
  | some b => unitsBroken b broken
  | none => broken

/-! ### A frame (R6, R7) -/

/-- A valid frame is treated by the first case of R6 that applies. -/
def frameTreated (s : State) (kind : Byte) (f : Frame) : Treated :=
  if srcOf f = 0 then returnArrives s f
  else if destOf f ≠ 0 then .quiet s
  else
    match s.bank with
    | none => if kind = 14 then maintArrives s (srcOf f) f.payload else .quiet s
    | some b =>
      if b.kindAt (srcOf f) = .none then .quiet s
      else if kind = 13 then .changed (identArrives s b (srcOf f) f.payload) []
      else if kind = 14 then maintArrives s (srcOf f) f.payload
      else if (b.kindAt (srcOf f)).reports.map FrameKind.code = some kind.toNat then
        reportArrives s b (srcOf f) f.payload
      else .quiet s

/-- A valid frame is a counted LEVER_REPORT that completes a held switch (R168). -/
def completesHeld (s : State) (kind : Byte) (f : Frame) : Bool :=
  match s.bank with
  | some b =>
    let os := leverOutcomes s b (srcOf f) f.payload
    srcOf f ≠ 0 && destOf f = 0 && kind = 8 && b.kindAt (srcOf f) = .lfu && s.unitActive (srcOf f)
    && (multiViolation s.levers (violatedBy os)).isNone && heldCompletes (leversWritten os s)
  | none => false

/-- What a completing switch removes, removed before any block places a frame in the completing arrival (R17). -/
def purgedFor (s : State) (kind : Byte) (f : Frame) : State :=
  if completesHeld s kind f then changedPurged s.bank s.stored.bank s else s

/-- A frame arrives at LOOP-IN (R6): one that is not valid is discarded. -/
def frameArrives (s : State) (kind : Byte) (f : Frame) : State :=
  if frameValid kind f then concluded s (frameTreated (loopHeard (purgedFor s kind f)) kind f) else s

/-- A frame arrives after the time given (R6, R175). -/
def frameArrival (s : State) (dt : Time) (kind : Byte) (f : Frame) : State := arrival s dt fun t => frameArrives t kind f

/-- The state with KEY sampled, where a level is given (log entry 3). -/
def State.sampled (s : State) (key : Option Bool) : State := { s with key := key.getD s.key }

/-- A request arrives, with the level of KEY where it is sampled (R36, R161; log entry 3). -/
def requestArrival (s : State) (dt : Time) (key : Option Bool) (code : Byte) (r : RequestFrame) : State :=
  arrival s dt fun t => frameArrives (t.sampled key) 14 (requestFrame code r)

end Sys2Proof.Machine
end

