-- ==== Sys2Proof/Machine/BellTimers.lean ====
section
/-! DEFINITION. The timers of the bell recogniser (R123, R127). -/

namespace Sys2Proof.Machine

/-- The end timer of a recogniser expires: its code completes (R123, R125). -/
def codeEnds (n : Nat) (x : Side) (s : State) : State :=
  match recAt (s.recognisers x) n, s.bank with
  | some r, some b =>
    match r.endTimer with
    | some t => finish (s.warp t) (codeCompleted (s.warp t) b x n r)
    | none => s
  | _, _ => s

/-- END_TIMER_EXPIRY (R123). -/
def execEndTimerExpiry (dt : Time) (sec : Nat) (side : Side) (s : State) : Host.Outcome State Fault Refusal :=
  .next (arrival s dt (codeEnds sec side))

/-- The repetition timer of an exchange record expires (R127). -/
def repetitionExpires (n : Nat) (s : State) : State :=
  match (recAt s.exchanges n).bind Exchange.timer with
  | some t => finish (s.warp t) (modifyExchange (s.warp t) n expiredExchange)
  | none => s

/-- REPETITION_TIMER_EXPIRY (R127). -/
def execRepetitionTimerExpiry (dt : Time) (sec : Nat) (s : State) : Host.Outcome State Fault Refusal :=
  .next (arrival s dt (repetitionExpires sec))

end Sys2Proof.Machine
end

