-- ==== Sys2Proof/Machine/FieldTimers.lean ====
section
/-! DEFINITION. The timers of tracks and levers (R48, R84). -/

namespace Sys2Proof.Machine

/-- The pick-up timer of a track expires: the clearing decision is made and its change handed on (R48, R53, R61, R62). -/
def pickUpExpires (t : Nat) (s : State) : State :=
  match (recAt s.tracks t).bind TrackRec.timer, s.bank with
  | some x, some b =>
    let due := s.warp x
    finish due (tracksHanded due.tracks b (clearingDecision due.tracks b due t))
  | _, _ => s

/-- PICK_UP_TIMER_EXPIRY (R48). -/
def execPickUpTimerExpiry (dt : Time) (track : Nat) (s : State) : Host.Outcome State Fault Refusal :=
  .next (arrival s dt (pickUpExpires track))

/-- The approach timer of a lever expires: its approach lock ends (R84). -/
def approachExpires (n : Nat) (s : State) : State :=
  match (recAt s.levers n).bind LeverRec.approach with
  | some t => finish (s.warp t) (modifyLever (s.warp t) n fun l => { l with approach := none })
  | none => s

/-- APPROACH_TIMER_EXPIRY (R84). -/
def execApproachTimerExpiry (dt : Time) (lever : Nat) (s : State) : Host.Outcome State Fault Refusal :=
  .next (arrival s dt (approachExpires lever))

end Sys2Proof.Machine
end

