-- ==== Sys2Proof/Machine/Frames.lean ====
section
/-! DEFINITION. The commands that are frames at LOOP-IN other than maintenance requests: RETURN, the reports, IDENT, and
the discarded kinds. -/

namespace Sys2Proof.Machine

/-- RETURN (R6, R13, R14). -/
def execRet (dt : Time) (kind : Byte) (f : Frame) (s : State) : Host.Outcome State Fault Refusal :=
  .next (frameArrival s dt kind f)

/-- LEVER_REPORT (R71). -/
def execLeverReport (dt : Time) (f : Frame) (s : State) : Host.Outcome State Fault Refusal :=
  .next (frameArrival s dt 8 f)

/-- TRACK_SAMPLE (R39). -/
def execTrackSample (dt : Time) (f : Frame) (s : State) : Host.Outcome State Fault Refusal :=
  .next (frameArrival s dt 9 f)

/-- LAMP_REPORT (R148). -/
def execLampReport (dt : Time) (f : Frame) (s : State) : Host.Outcome State Fault Refusal :=
  .next (frameArrival s dt 10 f)

/-- INSTR_REPORT (R137). -/
def execInstrReport (dt : Time) (f : Frame) (s : State) : Host.Outcome State Fault Refusal :=
  .next (frameArrival s dt 11 f)

/-- DIAG_REPORT (R158). -/
def execDiagReport (dt : Time) (f : Frame) (s : State) : Host.Outcome State Fault Refusal :=
  .next (frameArrival s dt 12 f)

/-- IDENT (R25). -/
def execIdent (dt : Time) (f : Frame) (s : State) : Host.Outcome State Fault Refusal :=
  .next (frameArrival s dt 13 f)

/-- DISCARDED_VALID_FRAME (R6, R15, R16): a frame of a kind that no unit sends; what its source and kind spell decides
(log entry 26). -/
def execDiscardedValidFrame (dt : Time) (kind : Byte) (f : Frame) (s : State) : Host.Outcome State Fault Refusal :=
  .next (frameArrival s dt kind f)

end Sys2Proof.Machine
end

