-- ==== Sys2Proof/Machine/LineCommands.lean ====
section
/-! DEFINITION. The commands of the block lines (chapter 7): characters, complete messages, the lines' timers and their
transmitters. -/

namespace Sys2Proof.Machine

/-- The receiver of a line searches: the line has its rate, and no wait for mark holds it back (R105, R107). -/
def searching (r : LineRec) (markBefore : Bool) : Bool := r.settings.isSome && (markBefore || !r.markHold)

/-- A character is read on a line and handed to assembly (R106, R107, R109); a character that completes a message ends in
what the message changes. -/
def lineReads (l : Line) (markBefore : Bool) (x : LineSamples) (s : State) : State :=
  if searching (s.line l) markBefore then
    match readCharacter x with
    | some c =>
      let read := modifyLine s l fun r => { r with markHold := c.framing || c.brk }
      if (characterCompletes read l c).isSome then finish s (characterReceived read l c)
      else arbiters (characterTaken read l c)
    | none => modifyLine s l fun r => { r with markHold := false }
  else s

/-- LINE_CHARACTER (R106, R107, R109). -/
def execLineCharacter (dt : Time) (line : Line) (markBefore : Bool) (samples : LineSamples) (s : State) : Host.Outcome State Fault Refusal :=
  .next (arrival s dt (lineReads line markBefore samples))

/-- STROKE_MESSAGE (R119; log entry 17). -/
def execStrokeMessage (dt : Time) (line : Line) (channel : Fin 2) (s : State) : Host.Outcome State Fault Refusal :=
  .next (arrival s dt fun t => finish t (messageReceived t line (.stroke channel.val)))

/-- INSTR_MESSAGE (R134; log entry 17). -/
def execInstrMessage (dt : Time) (line : Line) (channel : Fin 2) (state : Instrument) (s : State) : Host.Outcome State Fault Refusal :=
  .next (arrival s dt fun t => finish t (messageReceived t line (.instr channel.val state)))

/-- STATUS_MESSAGE (R134; log entry 17). -/
def execStatusMessage (dt : Time) (line : Line) (state0 state1 : Instrument) (s : State) : Host.Outcome State Fault Refusal :=
  .next (arrival s dt fun t => finish t (messageReceived t line (.status state0 state1)))

/-- The least number of whole 10 ms units in two character times, 22 elements, at a rate (R105, R109; log entry 19). -/
def gapUnits (x : LineSettings) : Nat := 2200 / x.rate.toNat

/-- The gap timer of a line expires: the partial message is discarded and counted (R109, R110). -/
def gapExpires (l : Line) (s : State) : State :=
  match (s.line l).gapStart, (s.line l).settings with
  | some t, some x =>
    let due := s.warp (t.plus (gapUnits x))
    arbiters (modifyLine (discardCounted due l) l fun r => { r with receiver := .hunt, gapStart := none })
  | _, _ => s

/-- GAP_TIMER_EXPIRY (R109). -/
def execGapTimerExpiry (dt : Time) (line : Line) (s : State) : Host.Outcome State Fault Refusal :=
  .next (arrival s dt (gapExpires line))

/-- The link timer of a line expires: the link goes DOWN (R112). -/
def linkExpires (l : Line) (s : State) : State :=
  match (s.line l).linkTimer with
  | some t => finish (s.warp t) (linkLost (s.warp t) s.bank l)
  | none => s

/-- LINK_TIMER_EXPIRY (R112). -/
def execLinkTimerExpiry (dt : Time) (line : Line) (s : State) : Host.Outcome State Fault Refusal :=
  .next (arrival s dt (linkExpires line))

/-- The status timer of a line expires: a STATUS with the present own states is placed, and the timer restarts (R115). -/
def statusExpires (l : Line) (s : State) : State :=
  match (s.line l).statusTimer, (s.line l).settings, s.bank with
  | some t, some x, some b =>
    let due := s.warp t
    let timed := modifyLine due l fun r => { r with statusTimer := some (due.after (x.statusInterval.toNat * 10)) }
    arbiters (placeLine timed l (statusMessage timed b l))
  | _, _, _ => s

/-- STATUS_TIMER_EXPIRY (R115). -/
def execStatusTimerExpiry (dt : Time) (line : Line) (s : State) : Host.Outcome State Fault Refusal :=
  .next (arrival s dt (statusExpires line))

/-- The last stop element of a message leaves a line: its transmitter is free and takes the next (R114). -/
def messageLeaves (l : Line) (s : State) : State :=
  if (s.line l).sending.isSome then arbiters (modifyLine s l fun r => { r with sending := none }) else s

/-- LINE_MESSAGE_SENT (R114). -/
def execLineMessageSent (dt : Time) (line : Line) (s : State) : Host.Outcome State Fault Refusal :=
  .next (arrival s dt (messageLeaves line))

/-- The break of a start sequence ends (R116). -/
def breakEnds (l : Line) (s : State) : State :=
  modifyLine s l fun r => if r.startSeq = .sendingBreak then { r with startSeq := .sendingIdle } else r

/-- SENDING_BREAK_END (R116). -/
def execSendingBreakEnd (dt : Time) (line : Line) (s : State) : Host.Outcome State Fault Refusal :=
  .next (arrival s dt (breakEnds line))

/-- The start sequence of a line ends: its transmitter takes what is queued (R114, R116). -/
def idleEnds (l : Line) (s : State) : State :=
  if (s.line l).startSeq = .sendingIdle then arbiters (modifyLine s l fun r => { r with startSeq := .idle }) else s

/-- SENDING_IDLE_END (R116). -/
def execSendingIdleEnd (dt : Time) (line : Line) (s : State) : Host.Outcome State Fault Refusal :=
  .next (arrival s dt (idleEnds line))

end Sys2Proof.Machine
end

