-- ==== Sys2Proof/Machine/LoopTimers.lean ====
section
/-! DEFINITION. The commands of the loop controller and of the unit roster that are no frames: the idle pattern, the
transmitter, and their timers (chapters 1 and 2). A timer that is idle has no expiry (log entry 2). -/

namespace Sys2Proof.Machine

/-- IDLE_PATTERN_ARRIVAL (R15): the watch timer restarts, and nothing else changes. -/
def execIdlePatternArrival (dt : Time) (s : State) : Host.Outcome State Fault Refusal :=
  .next (arrival s dt watchRestarted)

/-- The loop watch timer expires (R15, R30). -/
def watchExpires (s : State) : State :=
  let due := s.warp s.watch
  match due.loop with
  | .up => finish due (loopBroken due)
  | .broken => watchRestarted due

/-- LOOP_WATCH_TIMER_EXPIRY (R15). -/
def execLoopWatchTimerExpiry (dt : Time) (s : State) : Host.Outcome State Fault Refusal :=
  .next (arrival s dt watchExpires)

/-- The return timer of a pending entry expires: the entry is lost and removed (R12). -/
def returnExpires (seq : Byte) (s : State) : State :=
  match s.pendingReturns.find? fun p => p.seq = seq with
  | some p =>
    match p.timer with
    | some t =>
      let due := s.warp t
      arbiters (entryLost (entriesLeave due (due.pendingReturns.eraseP fun q => q.seq = seq)) p)
    | none => s
  | none => s

/-- RETURN_TIMER_EXPIRY (R12). -/
def execReturnTimerExpiry (dt : Time) (seq : Byte) (s : State) : Host.Outcome State Fault Refusal :=
  .next (arrival s dt (returnExpires seq))

/-- The refresh timer of an address expires: its command is placed with its present contents, and the timer restarts
(R11). -/
def refreshExpires (a : Nat) (s : State) : State :=
  match recAt s.refresh a, s.bank with
  | some t, some b =>
    let due := s.warp t
    match stateCommand due b a with
    | some f =>
      finish due (place { due with refresh := modifyRec due.refresh a fun _ => due.after f.kind.period } f)
    | none => s
  | _, _ => s

/-- REFRESH_TIMER_EXPIRY (R11). -/
def execRefreshTimerExpiry (dt : Time) (addr : Nat) (s : State) : Host.Outcome State Fault Refusal :=
  .next (arrival s dt (refreshExpires addr))

/-- The last byte of the frame being sent leaves LOOP-OUT: its return timer starts, the probe window of a probed unit is
set again, a RESTART's reply makes the restart reset due, and the arbiter applies (R10, R12, R22, R172). -/
def frameLeaves (s : State) : State :=
  match s.sending with
  | some x =>
    let left : State :=
      { s with sending := none, restartDue := s.restartDue || x.restart,
               pendingReturns := s.pendingReturns.map fun p =>
                 if p.seq = x.seq then { p with timer := some (s.after Config.returnTime) } else p }
    arbiters (if x.kind = .identProbe then modifyUnit left x.dest (restartWindow (s.after Config.probeTime)) else left)
  | none => s

/-- FRAME_SENT (R10). -/
def execFrameSent (dt : Time) (s : State) : Host.Outcome State Fault Refusal :=
  .next (arrival s dt frameLeaves)

/-- The 20 ms after a reset have passed: the arbiter applies (R10). -/
def holdExpires (s : State) : State :=
  match s.txHold with
  | some t => arbiters { s.warp t with txHold := none }
  | none => s

/-- TRANSMIT_HOLD_EXPIRY (R10). -/
def execTransmitHoldExpiry (dt : Time) (s : State) : Host.Outcome State Fault Refusal :=
  .next (arrival s dt holdExpires)

/-- The probe window of a unit expires (R23, R24). -/
def probeExpires (a : Nat) (s : State) : State :=
  match (recAt s.units a).bind UnitRec.probeWindow with
  | some t => finish (s.warp t) (windowEnd place (s.warp t) a)
  | none => s

/-- PROBE_WINDOW_EXPIRY (R23, R24). -/
def execProbeWindowExpiry (dt : Time) (addr : Nat) (s : State) : Host.Outcome State Fault Refusal :=
  .next (arrival s dt (probeExpires addr))

/-- The re-probe timer of an ABSENT unit expires: one probe, and the timer restarts (R24). -/
def reprobeExpires (a : Nat) (s : State) : State :=
  match (recAt s.units a).bind UnitRec.reprobe with
  | some t =>
    let due := s.warp t
    finish due
      (place (modifyUnit due a fun u => { u with reprobe := some (due.after Config.reprobeTime) })
        { kind := .identProbe, dest := a })
  | none => s

/-- RE_PROBE_TIMER_EXPIRY (R24). -/
def execReProbeTimerExpiry (dt : Time) (addr : Nat) (s : State) : Host.Outcome State Fault Refusal :=
  .next (arrival s dt (reprobeExpires addr))

/-- The report timer of a unit expires: it goes SILENT (R28, R32). -/
def reportExpires (a : Nat) (s : State) : State :=
  match (recAt s.units a).bind UnitRec.report, s.bank with
  | some t, some b => finish (s.warp t) (unitSilenced (s.warp t) b a)
  | _, _ => s

/-- REPORT_TIMER_EXPIRY (R28). -/
def execReportTimerExpiry (dt : Time) (addr : Nat) (s : State) : Host.Outcome State Fault Refusal :=
  .next (arrival s dt (reportExpires addr))

end Sys2Proof.Machine
end

