-- ==== Sys2Proof/Machine/Requests.lean ====
section
/-! DEFINITION. The commands that are maintenance requests (R161), each with its request code (13.4). -/

namespace Sys2Proof.Machine

/-- READ_RECORD (R162). -/
def execReadRecord (dt : Time) (f : RequestFrame) (s : State) : Host.Outcome State Fault Refusal :=
  .next (requestArrival s dt none 1 f)

/-- LOAD_TABLE (R163). -/
def execLoadTable (dt : Time) (f : RequestFrame) (s : State) : Host.Outcome State Fault Refusal :=
  .next (requestArrival s dt none 2 f)

/-- COPY_BANK (R163). -/
def execCopyBank (dt : Time) (f : RequestFrame) (s : State) : Host.Outcome State Fault Refusal :=
  .next (requestArrival s dt none 3 f)

/-- CHECK_BANK (R164). -/
def execCheckBank (dt : Time) (f : RequestFrame) (s : State) : Host.Outcome State Fault Refusal :=
  .next (requestArrival s dt none 4 f)

/-- SWITCH_BANK (R166). -/
def execSwitchBank (dt : Time) (key : Bool) (f : RequestFrame) (s : State) : Host.Outcome State Fault Refusal :=
  .next (requestArrival s dt (some key) 5 f)

/-- RESTORE_TRACK (R65). -/
def execRestoreTrack (dt : Time) (f : RequestFrame) (s : State) : Host.Outcome State Fault Refusal :=
  .next (requestArrival s dt none 6 f)

/-- CLEAR_VIOLATION (R82). -/
def execClearViolation (dt : Time) (key : Bool) (f : RequestFrame) (s : State) : Host.Outcome State Fault Refusal :=
  .next (requestArrival s dt (some key) 7 f)

/-- BLOCK_RELEASE (R142). -/
def execBlockRelease (dt : Time) (key : Bool) (f : RequestFrame) (s : State) : Host.Outcome State Fault Refusal :=
  .next (requestArrival s dt (some key) 8 f)

/-- ACK_ALARMS (R151). -/
def execAckAlarms (dt : Time) (f : RequestFrame) (s : State) : Host.Outcome State Fault Refusal :=
  .next (requestArrival s dt none 9 f)

/-- SET_GROUP_INTENSITY (R156). -/
def execSetGroupIntensity (dt : Time) (f : RequestFrame) (s : State) : Host.Outcome State Fault Refusal :=
  .next (requestArrival s dt none 10 f)

/-- REPROBE_UNIT (R26). -/
def execReprobeUnit (dt : Time) (f : RequestFrame) (s : State) : Host.Outcome State Fault Refusal :=
  .next (requestArrival s dt none 11 f)

/-- READ_EVENTS (R179). -/
def execReadEvents (dt : Time) (f : RequestFrame) (s : State) : Host.Outcome State Fault Refusal :=
  .next (requestArrival s dt none 12 f)

/-- RESTART (R172). -/
def execRestart (dt : Time) (key : Bool) (f : RequestFrame) (s : State) : Host.Outcome State Fault Refusal :=
  .next (requestArrival s dt (some key) 13 f)

/-- BAD_REQUEST (R161): a MAINT_REQUEST frame whose request cannot be read; what it spells decides (log entry 26). -/
def execBadRequest (dt : Time) (f : Frame) (s : State) : Host.Outcome State Fault Refusal :=
  .next (frameArrival s dt 14 f)

end Sys2Proof.Machine
end

