-- ==== Sys2Proof/Machine/ResetCommands.lean ====
section
/-! DEFINITION. The resets (R172, R175). -/

namespace Sys2Proof.Machine

/-- POWER_RESET (R175); the level of the RESET pin is not changed by it (log entry 16). -/
def execPowerReset (s : State) : Host.Outcome State Fault Refusal := .next (resetTo .power s.inReset s)

/-- RESET_PIN_ASSERTED (R175): a PIN reset, and the part is held in reset. -/
def execResetPinAsserted (s : State) : Host.Outcome State Fault Refusal := .next (resetTo .pin true s)

/-- RESET_PIN_RELEASED (R175): the part enters STARTING. -/
def execResetPinReleased (s : State) : Host.Outcome State Fault Refusal :=
  .next (if s.inReset then resetTo s.resetKind false s else s)

/-- RESTART_RESET (R172): carried out when the RESTART reply has been sent or dropped (log entry 14). -/
def execRestartReset (s : State) : Host.Outcome State Fault Refusal :=
  .next (if s.restartDue then resetTo .restart s.inReset s else s)

end Sys2Proof.Machine
end

