-- ==== Sys2Proof/Machine/StartBanks.lean ====
section
/-! DEFINITION. The start of the part and the end of a store operation (R168, R170, R173). -/

namespace Sys2Proof.Machine

/-- The start timer expires in STARTING: the part enters RUNNING (R173). -/
def startExpires (s : State) : State :=
  match s.startTimer with
  | some t => if s.part = .starting then finish (s.warp t) (startingEnds (s.warp t)) else s
  | none => s

/-- START_TIMER_EXPIRY (R173). -/
def execStartTimerExpiry (dt : Time) (s : State) : Host.Outcome State Fault Refusal :=
  .next (arrival s dt startExpires)

/-- STARTUP_CRC_CHECK (R173). -/
def execStartupCrcCheck (dt : Time) (s : State) : Host.Outcome State Fault Refusal :=
  .next (arrival s dt fun t => if comparisonDue t then finish t (startupCompared t) else t)

/-- The store operation in progress ends (R168, R170). -/
def storeEnds (equal : Bool) (s : State) : State :=
  match s.storeOp with
  | some img => finish s (if equal then storeEnded img s else storeFailed s)
  | none => s

/-- STORE_OPERATION_END (R168, R170). -/
def execStoreOperationEnd (dt : Time) (equal : Bool) (s : State) : Host.Outcome State Fault Refusal :=
  .next (arrival s dt (storeEnds equal))

end Sys2Proof.Machine
end

