-- ==== Sys2Proof/Machine/Dispatch.lean ====
section
/-! DEFINITION. The dispatch of a command to its meaning. -/

namespace Sys2Proof.Machine

def exec (i : Instr) (s : State) : Host.Outcome State Fault Refusal :=
  match i with
  | .ret dt kind f => Sys2Proof.Machine.execRet dt kind f s
  | .leverReport dt f => Sys2Proof.Machine.execLeverReport dt f s
  | .trackSample dt f => Sys2Proof.Machine.execTrackSample dt f s
  | .lampReport dt f => Sys2Proof.Machine.execLampReport dt f s
  | .instrReport dt f => Sys2Proof.Machine.execInstrReport dt f s
  | .diagReport dt f => Sys2Proof.Machine.execDiagReport dt f s
  | .ident dt f => Sys2Proof.Machine.execIdent dt f s
  | .readRecord dt f => Sys2Proof.Machine.execReadRecord dt f s
  | .loadTable dt f => Sys2Proof.Machine.execLoadTable dt f s
  | .copyBank dt f => Sys2Proof.Machine.execCopyBank dt f s
  | .checkBank dt f => Sys2Proof.Machine.execCheckBank dt f s
  | .switchBank dt key f => Sys2Proof.Machine.execSwitchBank dt key f s
  | .restoreTrack dt f => Sys2Proof.Machine.execRestoreTrack dt f s
  | .clearViolation dt key f => Sys2Proof.Machine.execClearViolation dt key f s
  | .blockRelease dt key f => Sys2Proof.Machine.execBlockRelease dt key f s
  | .ackAlarms dt f => Sys2Proof.Machine.execAckAlarms dt f s
  | .setGroupIntensity dt f => Sys2Proof.Machine.execSetGroupIntensity dt f s
  | .reprobeUnit dt f => Sys2Proof.Machine.execReprobeUnit dt f s
  | .readEvents dt f => Sys2Proof.Machine.execReadEvents dt f s
  | .restart dt key f => Sys2Proof.Machine.execRestart dt key f s
  | .idlePatternArrival dt => Sys2Proof.Machine.execIdlePatternArrival dt s
  | .loopWatchTimerExpiry dt => Sys2Proof.Machine.execLoopWatchTimerExpiry dt s
  | .returnTimerExpiry dt seq => Sys2Proof.Machine.execReturnTimerExpiry dt seq s
  | .refreshTimerExpiry dt addr => Sys2Proof.Machine.execRefreshTimerExpiry dt addr s
  | .frameSent dt => Sys2Proof.Machine.execFrameSent dt s
  | .transmitHoldExpiry dt => Sys2Proof.Machine.execTransmitHoldExpiry dt s
  | .probeWindowExpiry dt addr => Sys2Proof.Machine.execProbeWindowExpiry dt addr s
  | .reProbeTimerExpiry dt addr => Sys2Proof.Machine.execReProbeTimerExpiry dt addr s
  | .reportTimerExpiry dt addr => Sys2Proof.Machine.execReportTimerExpiry dt addr s
  | .pickUpTimerExpiry dt track => Sys2Proof.Machine.execPickUpTimerExpiry dt track s
  | .approachTimerExpiry dt lever => Sys2Proof.Machine.execApproachTimerExpiry dt lever s
  | .lineCharacter dt line markBefore samples => Sys2Proof.Machine.execLineCharacter dt line markBefore samples s
  | .strokeMessage dt line channel => Sys2Proof.Machine.execStrokeMessage dt line channel s
  | .instrMessage dt line channel state => Sys2Proof.Machine.execInstrMessage dt line channel state s
  | .statusMessage dt line state0 state1 => Sys2Proof.Machine.execStatusMessage dt line state0 state1 s
  | .gapTimerExpiry dt line => Sys2Proof.Machine.execGapTimerExpiry dt line s
  | .linkTimerExpiry dt line => Sys2Proof.Machine.execLinkTimerExpiry dt line s
  | .statusTimerExpiry dt line => Sys2Proof.Machine.execStatusTimerExpiry dt line s
  | .lineMessageSent dt line => Sys2Proof.Machine.execLineMessageSent dt line s
  | .sendingBreakEnd dt line => Sys2Proof.Machine.execSendingBreakEnd dt line s
  | .sendingIdleEnd dt line => Sys2Proof.Machine.execSendingIdleEnd dt line s
  | .endTimerExpiry dt sec side => Sys2Proof.Machine.execEndTimerExpiry dt sec side s
  | .repetitionTimerExpiry dt sec => Sys2Proof.Machine.execRepetitionTimerExpiry dt sec s
  | .startTimerExpiry dt => Sys2Proof.Machine.execStartTimerExpiry dt s
  | .startupCrcCheck dt => Sys2Proof.Machine.execStartupCrcCheck dt s
  | .storeOperationEnd dt equal => Sys2Proof.Machine.execStoreOperationEnd dt equal s
  | .powerReset => Sys2Proof.Machine.execPowerReset s
  | .resetPinAsserted => Sys2Proof.Machine.execResetPinAsserted s
  | .resetPinReleased => Sys2Proof.Machine.execResetPinReleased s
  | .restartReset => Sys2Proof.Machine.execRestartReset s
  | .badRequest dt f => Sys2Proof.Machine.execBadRequest dt f s
  | .discardedValidFrame dt kind f => Sys2Proof.Machine.execDiscardedValidFrame dt kind f s

end Sys2Proof.Machine
end

