-- ==== Sys2Proof/WellFormed.lean ====
section
/-! DEFINITION. Well-formed commands: the operands that the table's rows admit. A meaning answers on every command, well
formed or not; a row's catch-all and what another row spells are told apart here. -/

namespace Sys2Proof

open Sys2Proof.Machine

/-- A return: a valid frame with source address 0 (R2, R6). -/
def wfReturn (kind : Byte) (f : Frame) : Bool := frameValid kind f && srcOf f == 0

/-- A unit's frame of a kind: valid, from an address 1..31, to the part (R2, R4). -/
def wfFromUnit (kind : Byte) (f : Frame) : Bool := frameValid kind f && srcOf f != 0 && destOf f == 0

/-- A request's frame, whose parameters its code can be read from (R161, 13.4). -/
def wfRequest (code : Byte) (f : RequestFrame) : Bool :=
  wfFromUnit 14 (requestFrame code f) && (readRequest code.toNat f.params).isSome

/-- A frame of a maintenance request that cannot be read (R161). -/
def wfBadRequest (f : Frame) : Bool :=
  wfFromUnit 14 f && (readRequest (byteAt f.payload 1).toNat (f.payload.drop 2)).isNone

/-- A frame of a kind code that no unit sends (R2, R6). -/
def wfOther (kind : Byte) (f : Frame) : Bool :=
  frameValid kind f && srcOf f != 0 && !decide (8 ≤ kind.toNat ∧ kind.toNat ≤ 14)

/-- A number of an object within its range (00_scope.md, Numbering). -/
def within (lo hi n : Nat) : Bool := decide (lo ≤ n ∧ n ≤ hi)

/-- A state that a line message can carry: BLOCKED, CLEAR or ON_LINE (R108). -/
def carried (x : Instrument) : Bool := x ≠ .unknown

/-- A command's operands lie within what its row admits. -/
def wellFormed : Instr → Bool
  | .ret _ kind f => wfReturn kind f
  | .leverReport _ f => wfFromUnit 8 f
  | .trackSample _ f => wfFromUnit 9 f
  | .lampReport _ f => wfFromUnit 10 f
  | .instrReport _ f => wfFromUnit 11 f
  | .diagReport _ f => wfFromUnit 12 f
  | .ident _ f => wfFromUnit 13 f
  | .readRecord _ f => wfRequest 1 f
  | .loadTable _ f => wfRequest 2 f
  | .copyBank _ f => wfRequest 3 f
  | .checkBank _ f => wfRequest 4 f
  | .switchBank _ _ f => wfRequest 5 f
  | .restoreTrack _ f => wfRequest 6 f
  | .clearViolation _ _ f => wfRequest 7 f
  | .blockRelease _ _ f => wfRequest 8 f
  | .ackAlarms _ f => wfRequest 9 f
  | .setGroupIntensity _ f => wfRequest 10 f
  | .reprobeUnit _ f => wfRequest 11 f
  | .readEvents _ f => wfRequest 12 f
  | .restart _ _ f => wfRequest 13 f
  | .idlePatternArrival _ => true
  | .loopWatchTimerExpiry _ => true
  | .returnTimerExpiry _ _ => true
  | .refreshTimerExpiry _ a => within 1 31 a
  | .frameSent _ => true
  | .transmitHoldExpiry _ => true
  | .probeWindowExpiry _ a => within 1 31 a
  | .reProbeTimerExpiry _ a => within 1 31 a
  | .reportTimerExpiry _ a => within 1 31 a
  | .pickUpTimerExpiry _ t => within 1 24 t
  | .approachTimerExpiry _ n => within 1 48 n
  | .lineCharacter _ _ _ x => x.data.length == 8
  | .strokeMessage _ _ _ => true
  | .instrMessage _ _ _ x => carried x
  | .statusMessage _ _ x y => carried x && carried y
  | .gapTimerExpiry _ _ => true
  | .linkTimerExpiry _ _ => true
  | .statusTimerExpiry _ _ => true
  | .lineMessageSent _ _ => true
  | .sendingBreakEnd _ _ => true
  | .sendingIdleEnd _ _ => true
  | .endTimerExpiry _ n _ => within 1 4 n
  | .repetitionTimerExpiry _ n => within 1 4 n
  | .startTimerExpiry _ => true
  | .startupCrcCheck _ => true
  | .storeOperationEnd _ _ => true
  | .powerReset => true
  | .resetPinAsserted => true
  | .resetPinReleased => true
  | .restartReset => true
  | .badRequest _ f => wfBadRequest f
  | .discardedValidFrame _ kind f => wfOther kind f

end Sys2Proof
end

