-- ==== Sys2Proof/Safety.lean ====
section
/-! DEFINITION. What counts as a safe state of the part, and the words in which the statements speak of the end of an
arrival. -/

namespace Sys2Proof.Machine

/-! ### Resets -/

/-- The commands that are resets, or the release of one (R175). -/
def isReset : Instr → Bool
  | .powerReset | .resetPinAsserted | .resetPinReleased | .restartReset => true
  | _ => false

/-! ### The end of an arrival

Once an arrival's own changes are made, LE decides the levers, the commands and messages that the changes call for are
placed, STARTING may end, and the transmitters take what stands for them. `Concluded x t` says that `t` is `x` but for that. -/

/-- A unit's record over the placing and the taking of frames: of a PROBING unit the probe count may rise and the window move,
or it becomes ABSENT; of an ABSENT one the window moves; a record of another state is unchanged (R22, R23, R24). -/
def UnitStays (u v : UnitRec) : Prop :=
  match u.state with
  | .probing =>
    (∃ n w, u.probeCount ≤ n ∧ v = { u with probeCount := n, probeWindow := w }) ∨
    (∃ w e, v = { u with state := .absent, probeCount := 3, probeWindow := w, reprobe := some e, started := true })
  | .absent => ∃ w, v = { u with probeWindow := w }
  | _ => v = u

/-- The units of two states agree but for `UnitStays`. -/
def UnitsStay (s t : State) : Prop :=
  t.units.map Prod.fst = s.units.map Prod.fst ∧
  ∀ a u, recAt s.units a = some u → ∃ v, recAt t.units a = some v ∧ UnitStays u v

/-- A line's record but for what its transmitter and its queue hold. -/
def LineStays (r x : LineRec) : Prop := ∃ q m, x = { r with queue := q, sending := m }

/-- A lever's record without what LE concludes: its release, its lock, its stroke-loss flag and the mark of its event. -/
def leverCore (l : LeverRec) : LeverRec :=
  { l with release := .unknown, lock := .locked, strokeLoss := false, lossTold := false }

/-- A lamp's record without its alarm. -/
def lampCore (r : LampRec) : LampRec := { r with alarm := .quiet }

/-- The records of a list, each reduced by `f`. -/
def cores {α β : Type} (f : α → β) (r : Recs α) : Recs β := r.map fun p => (p.1, f p.2)

/-- The state `t` is `x` but for the end of an arrival. -/
structure Concluded (x t : State) : Prop where
  /-- No other field moves. -/
  rest : t = { x with
    levers := t.levers, lamps := t.lamps, units := t.units, lineA := t.lineA, lineB := t.lineB, outputs := t.outputs,
    events := t.events, outQueue := t.outQueue, restartDue := t.restartDue, seq := t.seq, sending := t.sending,
    pendingReturns := t.pendingReturns, refresh := t.refresh, part := t.part, startTimer := t.startTimer }
  /-- Of a lever, only its release, its lock and its stroke-loss flag (R72, R73, R79). -/
  levers : cores leverCore t.levers = cores leverCore x.levers
  /-- Of a unit, only what a dropped or taken probe moves (R22). -/
  units : UnitsStay x t
  /-- Of a line, only its queue and its transmitter (R113, R114). -/
  lines : LineStays x.lineA t.lineA ∧ LineStays x.lineB t.lineB
  /-- Of the lamps, only the alarms, and only where the part enters RUNNING (R152). -/
  lamps : cores lampCore t.lamps = cores lampCore x.lamps ∧ (t.part = x.part → t.lamps = x.lamps)
  /-- The part state, and its start timer, only at the end of STARTING (R173). -/
  part : (t.part = x.part ∧ t.startTimer = x.startTimer) ∨ (x.part = .starting ∧ t.part = .running ∧ t.startTimer = none)

/-! ### Events and frames of an arrival -/

/-- An event without its gap flag. -/
def ungapped (e : Event) : Event := { e with gap := false }

/-- The event queue `old` after the events `new`, each a kind, an object and a detail, joined it at a time; a queue that they take
over 64 entries has lost its oldest (R178). -/
def queueWith (old : List Event) (now : Time) (new : List (EventKind × Nat × Nat)) : List Event :=
  let all := old.map ungapped ++ new.map fun x => { kind := x.1, object := x.2.1, detail := x.2.2, time := now, gap := false }
  if new = [] then old.map ungapped else all.drop (all.length - 64)

/-- Between `s` and `t` exactly the events `new` joined the queue, in their order and at the time of `t`; where the first found
the queue empty and the outbound queue full, the FRAME_DROPPED of its notice may follow it (R178, R179). -/
def EventsJoined (s t : State) (new : List (EventKind × Nat × Nat)) : Prop :=
  t.events.map ungapped = queueWith s.events t.now new ∨
  (s.events = [] ∧ 24 ≤ s.outQueue.length ∧ ∃ first rest a, new = first :: rest ∧
    t.events.map ungapped = queueWith [] t.now (first :: (.frameDropped, a, FrameKind.eventNotice.code) :: rest))

/-- Those of a list of events that are of the kinds given. -/
def ofKinds (ks : List EventKind) (es : List (EventKind × Nat × Nat)) : List (EventKind × Nat × Nat) :=
  es.filter fun x => ks.contains x.1

/-- A frame of the kind, destination and payload of `f` stands in the outbound queue of `t`, or the transmitter, free in `s`, is
sending it (R8, R10). -/
def OnItsWay (s t : State) (f : OutFrame) : Prop :=
  (∃ g ∈ t.outQueue, g.kind = f.kind ∧ g.dest = f.dest ∧ g.payload = f.payload) ∨
  (s.sending = none ∧ ∃ x, t.sending = some x ∧ x.kind = f.kind ∧ x.dest = f.dest ∧
    x.bytes = frameBytes f.kind.code (sentFrame x.seq f.kind f.dest f.payload))

/-- The outbound queue has room for a frame to every rostered unit and for a notice. -/
def Roomy (s : State) (b : Bank) : Prop :=
  s.outQueue.length + (addresses.filter fun a => b.kindAt a ≠ .none).length + 2 ≤ 24

/-! ### Capacities -/

/-- No queue holds more than its capacity (R8, R12, R113, R178). -/
def Capacities (s : State) : Prop :=
  s.outQueue.length ≤ 24 ∧ s.pendingReturns.length ≤ 8 ∧ s.events.length ≤ 64 ∧ s.lineA.queue.length ≤ 16 ∧
  s.lineB.queue.length ≤ 16

/-! ### Interlocking -/

/-- A lever's release state names where the lever stands (R70). -/
def leverFits (l : LeverRec) : Prop :=
  match l.release with
  | .nLocked | .nFree => l.position = .normal
  | .rLocked | .rFree => l.position = .reverse
  | .strokeN | .strokeR => l.position = .mid
  | .unknown => l.position ≠ .normal ∧ l.position ≠ .reverse

/-- The release test of R72 for a lever at the end whose list is given: the catch is up, the part is RUNNING, the lever's
LFU is ACTIVE, the violation flag is clear, the kind is not SPARE and the list holds. -/
def Released (s : State) (b : Bank) (n : Nat) (l : LeverRec) (r : ListRange) : Prop :=
  l.catchUp = true ∧ s.part = .running ∧ (∃ a c, b.assignment .lfu n = some (a, c) ∧ s.unitActive a = true) ∧
  l.violation = false ∧ LeverKind.ofByte (b.leverEntry n).kind ≠ .spare ∧
  ∀ e ∈ b.covered r, conditionHolds s b e.2 = true

/-- The locks of the frame are safe: with no bank there are no levers; while the part is not RUNNING every lock is LOCKED;
every lever's release state fits its position; a lever that stands at an end is FREE exactly while its release test holds; and
in a FREE stroke whose list has ceased to hold the stroke-loss flag is set (R72, R73, R79, R86, R95). -/
structure Interlocked (s : State) : Prop where
  banked : s.active = none → s.levers = []
  held : s.part ≠ .running → ∀ p ∈ s.levers, p.2.lock = .locked
  fits : ∀ p ∈ s.levers, leverFits p.2
  numbered : (s.levers.map Prod.fst).Nodup
  atNormal : ∀ b, s.bank = some b → ∀ p ∈ s.levers, p.2.position = .normal →
    (p.2.lock = .free ↔ Released s b p.1 p.2 (b.leverEntry p.1).reverseList)
  atReverse : ∀ b, s.bank = some b → ∀ p ∈ s.levers, p.2.position = .reverse →
    (p.2.lock = .free ↔ Released s b p.1 p.2 (b.leverEntry p.1).normalList)
  strokeN : ∀ b, s.bank = some b → ∀ p ∈ s.levers, p.2.release = .strokeN → p.2.lock = .free →
    p.2.strokeLoss = true ∨ listHolds s b (b.leverEntry p.1).reverseList = true
  strokeR : ∀ b, s.bank = some b → ∀ p ∈ s.levers, p.2.release = .strokeR → p.2.lock = .free →
    p.2.strokeLoss = true ∨ listHolds s b (b.leverEntry p.1).normalList = true
  told : ∀ p ∈ s.levers, p.2.release = .strokeN ∨ p.2.release = .strokeR → p.2.lossTold = true → p.2.strokeLoss = true

/-! ### Tracks -/

/-- What CHECK_BANK assures of the track table and of the TUs (R19, R37): no unit serves a track twice, and D is below P. -/
def TracksChecked (b : Bank) : Prop :=
  (∀ a ∈ addresses, b.kindAt a = .tu → ((b.assignedChannels a).map Prod.snd).Nodup) ∧
  ∀ t, b.defined .tu t = true → (b.trackEntry t).d.toNat < (b.trackEntry t).p.toNat

/-- A track's record keeps within its ranges, is CLEAR only with its filtered value at or above D, is PICKING_UP only with
it at or above P, runs its pick-up timer only while PICKING_UP, and holds a failure cause only while FAILED (R38, R42, R45,
R48, R50). -/
def trackSound (e : TrackEntry) (r : TrackRec) : Prop :=
  r.s ≤ 2047 ∧ r.q ≤ 2047 ∧ r.noisy ≤ 8 ∧ r.good ≤ 4 ∧
  (r.state = .clear → e.d.toNat ≤ r.s) ∧ (r.state = .pickingUp → e.p.toNat ≤ r.s) ∧
  (r.timer.isSome = true → r.state = .pickingUp) ∧ (r.state = .failed ↔ r.cause.isSome = true)

/-- Every track record is sound under the bank in use. -/
def TracksSound (s : State) : Prop :=
  (s.active = none → s.tracks = []) ∧
  ∀ b, s.bank = some b → ∀ t r, recAt s.tracks t = some r → b.defined .tu t = true ∧ trackSound (b.trackEntry t) r

/-! ### Sections -/

/-- A section's record is sound: an OUTBOUND section's own state is BLOCKED, an own state is never UNKNOWN, only a section
ON_LINE has proving progress, and an INBOUND section is never consumed (R133, R135, R141). -/
def sectionSound (e : SectionEntry) (r : SectionRec) : Prop :=
  (e.dir = .outbound → r.own = .blocked) ∧ r.own ≠ .unknown ∧ (r.own ≠ .onLine → r.progress = .seen 0) ∧
  (e.dir = .inbound → r.consumed = false)

/-- Every section record is sound under the bank in use. -/
def SectionsSound (s : State) : Prop :=
  (s.active = none → s.sections = []) ∧
  ∀ b, s.bank = some b → ∀ n r, recAt s.sections n = some r → sectionSound (b.sectionEntry n) r

/-! ### Lamp alarms -/

/-- An alarm says what its lamp does: QUIET and RECOVERED with a lamp that is LIT, ALARM and ACCEPTED with one that is not
(R150, R152). -/
def alarmTells (r : LampRec) : Prop :=
  match r.alarm with
  | .quiet | .recovered => r.state = .lit
  | .alarm | .accepted => r.state ≠ .lit

/-- While the alarms are judged, every alarm says what its lamp does; lamp records have numbers of their own. -/
def AlarmsTell (s : State) : Prop :=
  (s.active = none → s.lamps = []) ∧ (s.lamps.map Prod.fst).Nodup ∧
  (s.part = .running ∨ s.part = .tripped → ∀ p ∈ s.lamps, alarmTells p.2)

/-! ### Diagram outputs -/

/-- Every diagram output has the mode that its source's records give under the bank in use (R155, R159). -/
def OutputsShow (s : State) : Prop :=
  s.outputs = match s.bank with
    | some b => makeRecs (b.objects .du) fun o => sourceMode s (b.diagramEntry o)
    | none => []

/-! ### The part state -/

/-- The changes of the part state that an arrival other than a reset may make (R174). -/
def partMoves (x y : PartState) : Bool :=
  match x, y with
  | .starting, .unconfigured | .starting, .running | .starting, .tripped => true
  | .running, .switching | .running, .tripped => true
  | .unconfigured, .switching => true
  | .switching, .running | .switching, .tripped => true
  | _, _ => false

/-! ### Frames that reach their owners -/

/-- A frame of a unit of the kind reaches the part, which uses a bank that gives its source that kind, and the unit is
ACTIVE: its report is counted (R6, R7, R27). -/
structure Counted (s : State) (b : Bank) (k : UnitKind) (kind : Byte) (f : Frame) (u : UnitRec) : Prop where
  awake : s.inReset = false
  formed : wfFromUnit kind f = true
  bank : s.bank = some b
  rostered : b.kindAt (srcOf f) = k
  unit : recAt s.units (srcOf f) = some u
  active : u.state = .active

/-- A request's frame reaches the part from a source that the request handler takes requests from, whose unit does not
stand in SILENT (R36). -/
structure Requested (s : State) (code : Byte) (f : RequestFrame) : Prop where
  awake : s.inReset = false
  formed : wfFromUnit 14 (requestFrame code f) = true
  source : s.active = none ∨ ∃ b, s.bank = some b ∧ b.kindAt (srcOf (requestFrame code f)) = .mt ∧
    ∀ u, recAt s.units (srcOf (requestFrame code f)) = some u → u.state ≠ .mismatch ∧ u.state ≠ .silent

/-- The state in which a request is handled: the time has passed, the loop has heard a valid frame, KEY is sampled where
the request needs it, and the request's source is the last requester (R6, R15, R16, R179). -/
def heardRequest (s : State) (dt : Time) (key : Option Bool) (code : Byte) (f : RequestFrame) : State :=
  (loopHeard ((s.advance dt).sampled key)).requestedBy (srcOf (requestFrame code f))

/-- The reply to a request (13.4). -/
def replyTo (code : Byte) (f : RequestFrame) (status third : Nat) (results : List Byte) : OutFrame :=
  replyFrame (srcOf (requestFrame code f)) f.tag code.toNat status third results

/-! ### Changes of tracks, and what their readers make of them -/

/-- The states of the tracks before and after a pass of changes that is handed on whole (R39, R53). -/
structure TrackPass where
  before : Nat → Option TrackState
  after : Nat → Option TrackState

/-- The state of a track, where it has a record. -/
def trackState (ts : Recs TrackRec) (n : Nat) : Option TrackState := (recAt ts n).map TrackRec.state

/-- The changes from the records `old` to the records `new`, handed on as one pass. -/
def onePass (old new : Recs TrackRec) : TrackPass := { before := trackState old, after := trackState new }

/-- The state of a track between the two passes of a sample that brought it from its record in `old` to its record in `new`: a
track that a clearing decision took from OCCUPIED was OCCUPIED still (R39, R46). -/
def betweenPasses (old new : Recs TrackRec) (n : Nat) : Option TrackState :=
  let reached := trackState new n
  if trackState old n = some .occupied ∧ (reached = some .clear ∨ reached = some .suspect) then some .occupied else reached

/-- The first pass of a sample that brought the records from `old` to `new` (R39). -/
def samplePass (old new : Recs TrackRec) : TrackPass := { before := trackState old, after := betweenPasses old new }

/-- The two passes of a sample (R39). -/
def samplePasses (old new : Recs TrackRec) : List TrackPass :=
  [samplePass old new, { before := betweenPasses old new, after := trackState new }]

/-- A track stands OCCUPIED or PICKING_UP. -/
def Stands (states : Nat → Option TrackState) (n : Nat) : Prop := states n = some .occupied ∨ states n = some .pickingUp

/-- A track's entry from CLEAR is unexpected: its proving is on, it was proved once, and none of its neighbours stands OCCUPIED
or PICKING_UP after the pass (R60). -/
def Unexplained (e : TrackEntry) (p : TrackPass) (n : Nat) (r : TrackRec) : Prop :=
  e.provingOn = true ∧ r.provedOnce = true ∧ p.before n = some .clear ∧ p.after n = some .occupied ∧
  ∀ m ∈ e.neighbourNumbers, ¬ Stands p.after m

/-- The clearing decision of a track gives CLEAR, with an exit-seen flag and states of the neighbours (R61). -/
def Clears (e : TrackEntry) (states : Nat → Option TrackState) (exitSeen : Bool) (r : TrackRec) : Prop :=
  e.provingOn = false ∨ r.provedOnce = false ∨ e.neighbourNumbers = [] ∨ exitSeen = true ∨
  ∃ m ∈ e.neighbourNumbers, Stands states m

/-- The proving flags of the tracks go from `old` to `new` by the judgements on the pass `p` and the clearing decisions after it:
an entry to OCCUPIED but from PICKING_UP clears exit-seen, and then a neighbour's entry from CLEAR sets it on a track that stands
OCCUPIED or PICKING_UP; a track that reaches CLEAR is proved once and no longer unexpected, and an unexplained entry is
unexpected (R58, R59, R60, R62). -/
structure FlagsFollow (b : Bank) (p : TrackPass) (old new : Recs TrackRec) : Prop where
  exitSeen : ∀ n r r', recAt old n = some r → recAt new n = some r' →
    (r'.exitSeen = true ↔
      (r.exitSeen = true ∧
        ¬ (p.after n = some .occupied ∧
          (p.before n = some .clear ∨ p.before n = some .failed ∨ p.before n = some .suspect))) ∨
      (Stands p.after n ∧
        ∃ m ∈ (b.trackEntry n).neighbourNumbers, p.before m = some .clear ∧ p.after m = some .occupied))
  provedOnce : ∀ n r r', recAt old n = some r → recAt new n = some r' →
    (r'.provedOnce = true ↔ r.provedOnce = true ∨ (r.state ≠ .clear ∧ r'.state = .clear))
  unexpected : ∀ n r r', recAt old n = some r → recAt new n = some r' →
    (r'.unexpected = true ↔
      (r.unexpected = true ∨ Unexplained (b.trackEntry n) p n r) ∧ ¬ (r.state ≠ .clear ∧ r'.state = .clear))

/-- The table of R141: what a change of the arrival track at a place, from `x` to `y`, makes of the progress `p` of a section with
`count` arrival tracks. -/
def ProgressMoves (count place : Nat) (x y : TrackState) (p q : Progress) : Prop :=
  match p with
  | .proven => q = .proven
  | .seen k =>
    let lost := y = .suspect ∨ y = .failed
    let next := k < count ∧ place = k + 1 ∧ x = .clear ∧ y = .occupied
    let rear := k = count ∧ place = 1 ∧ y = .clear
    (lost → q = .seen 0) ∧ (next → q = .seen (k + 1)) ∧ (rear → q = .proven) ∧ (¬ lost → ¬ next → ¬ rear → q = .seen k)

/-- The progress after changes of arrival tracks, each a place and two states, one after the other (R141). -/
def ProgressAfter (count : Nat) : List (Nat × TrackState × TrackState) → Progress → Progress → Prop
  | [], p, q => q = p
  | (place, x, y) :: rest, p, q => ∃ m, ProgressMoves count place x y p m ∧ ProgressAfter count rest m q

/-- The changes of the arrival tracks of a list in a pass, in the order of their places (R141). -/
def arrivalChanges (tracks : List Nat) (p : TrackPass) : List (Nat × TrackState × TrackState) :=
  (List.range tracks.length).filterMap fun i =>
    match p.before (tracks.getD i 0), p.after (tracks.getD i 0) with
    | some x, some y => if x = y then none else some (i + 1, x, y)
    | _, _ => none

/-- A change of an approach track leaves every one of them CLEAR (R84). -/
def LeavesAllClear (tracks : List Nat) (p : TrackPass) : Prop :=
  (∃ m ∈ tracks, p.before m ≠ p.after m ∧ p.before m ≠ none) ∧ ∀ m ∈ tracks, p.after m = some .clear

/-- The sections and the approach locks follow passes of track changes between `s` and `t`: under a far CLEAR the exit track's
leaving CLEAR consumes a section; the arrival tracks move the progress of one that is ON_LINE, pass by pass; an approach lock ends
where a change of its tracks leaves every one CLEAR (R53, R84, R135, R141). -/
structure ReadersFollow (b : Bank) (passes : List TrackPass) (s t : State) : Prop where
  consumed : ∀ n r, recAt s.sections n = some r → ∃ r', recAt t.sections n = some r' ∧
    (r'.consumed = true ↔ r.consumed = true ∨ (r.far = .clear ∧ (b.sectionEntry n).dir ≠ .inbound ∧
      (b.sectionEntry n).exitTrack ≠ 0 ∧ ∃ p ∈ passes, p.before (b.sectionEntry n).exitTrack.toNat = some .clear ∧
        ∃ y, p.after (b.sectionEntry n).exitTrack.toNat = some y ∧ y ≠ .clear))
  progress : ∀ n r, recAt s.sections n = some r → ∃ r', recAt t.sections n = some r' ∧
    let tracks := (b.sectionEntry n).arrivalTracks
    (r.own = .onLine → (b.sectionEntry n).dir ≠ .outbound →
      ProgressAfter tracks.length (passes.flatMap (arrivalChanges tracks)) r.progress r'.progress) ∧
    (r.own ≠ .onLine ∨ (b.sectionEntry n).dir = .outbound → r'.progress = r.progress)
  approach : ∀ n l, recAt s.levers n = some l → ∃ l', recAt t.levers n = some l' ∧
    ((∃ p ∈ passes, LeavesAllClear (b.leverEntry n).approachTracks p) → l'.approach = none) ∧
    ((∀ p ∈ passes, ¬ LeavesAllClear (b.leverEntry n).approachTracks p) → l'.approach = l.approach)

/-! ### The loss of a unit -/

/-- The objects that the unit at an address serves stand, in `t`, at their restrictive values, what R32 holds kept from `s`
(R52, R78, R137, R149). -/
structure ObjectsFell (b : Bank) (a : Nat) (s t : State) : Prop where
  levers : b.kindAt a = .lfu → ∀ c ∈ b.assignedChannels a, ∀ l, recAt s.levers c.2 = some l →
    ∃ l', recAt t.levers c.2 = some l' ∧ l'.position = .unknown ∧ l'.release = .unknown ∧ l'.lock = .locked ∧
      l'.catchUp = l.catchUp ∧ l'.violation = l.violation ∧ l'.approach = l.approach
  tracks : b.kindAt a = .tu → ∀ c ∈ b.assignedChannels a, ∀ r, recAt s.tracks c.2 = some r →
    recAt t.tracks c.2 = some
      { r with state := if r.state = .suspect then .suspect else .failed,
               cause := if r.state = .suspect then r.cause else some .unit, timer := none, noisy := 0, good := 0 }
  lamps : b.kindAt a = .lu → ∀ c ∈ b.assignedChannels a, ∀ r, recAt s.lamps c.2 = some r →
    ∃ r', recAt t.lamps c.2 = some r' ∧ r'.state = .unknown ∧ r'.last = none ∧ r'.current = r.current
  sections : b.kindAt a = .iu → ∀ c ∈ b.assignedChannels a, ∀ r, recAt s.sections c.2 = some r →
    ∃ r', recAt t.sections c.2 = some r' ∧ r'.commutator = .unknown ∧ r'.own = r.own ∧ r'.far = r.far ∧
      r'.disagreement = r.disagreement

/-- The events `new` are the LAMP_FAULTs of the lamps that fall with the units of the addresses `lost`, and the alarms move with
them in `t`: while the part is RUNNING or TRIPPED, of exactly the lamps that were LIT with their alarm QUIET or RECOVERED
(R149, R150). -/
structure LampsFell (b : Bank) (lost : Nat → Prop) (s t : State) (new : List (EventKind × Nat × Nat)) : Prop where
  only : ∀ k ∈ new, k.1 = .lampFault
  raised : ∀ n d, (EventKind.lampFault, n, d) ∈ new ↔
    (s.part = .running ∨ s.part = .tripped) ∧
    (∃ a, lost a ∧ b.kindAt a = .lu ∧ n ∈ (b.assignedChannels a).map Prod.snd) ∧
    ∃ r, recAt s.lamps n = some r ∧ r.state = .lit ∧ (r.alarm = .quiet ∨ r.alarm = .recovered) ∧ d = LampState.unknown.code
  alarms : ∀ n r, recAt s.lamps n = some r → ∃ r', recAt t.lamps n = some r' ∧
    ((∃ d, (EventKind.lampFault, n, d) ∈ new) → r'.alarm = .alarm) ∧
    ((∀ d, (EventKind.lampFault, n, d) ∉ new) → r'.alarm = r.alarm)

/-! ### Trips -/

/-- A trip cause takes the part from `s` to TRIPPED in `t`: the trip record, the event TRIP, the locks, the acceptances, and a
held completion (R176, R73, R145, R168). -/
structure TripTaken (s t : State) (cause : TripCause) (object : Nat) (sent returned : Option Byte) : Prop where
  part : t.part = .tripped
  trip : t.trip = some { cause := cause, object := object, sent := sent, returned := returned, time := t.now, previous := s.part }
  raised : ∃ new, EventsJoined s t new ∧ ofKinds [.trip, .tripRepeated] new = [(.trip, object, cause.code)]
  timer : t.startTimer = none
  held : t.switchHeld = false
  bank : t.active = s.active
  locks : s.active.isSome = true → ∀ p ∈ t.levers, p.2.lock = .locked
  sections : ∀ b, s.bank = some b → ∀ n r, recAt s.sections n = some r → recAt t.sections n = some
    (if (b.sectionEntry n).dir ≠ .outbound ∧ r.own = .clear then
      { r with own := .onLine, progress := .seen 0,
               disagreement := !decide (r.commutator = .unknown ∨ r.commutator = .onLine) }
     else r)

/-! ### Levers of a report -/

/-- A report of a position shows a lever leaving an end against its lock: a violation (R75, R77, R80). -/
def leavesLocked (l : LeverRec) (pos : Position) : Bool :=
  l.lock = .locked &&
  ((l.position = .normal && (pos = .mid || pos = .reverse)) || (l.position = .reverse && (pos = .mid || pos = .normal)))

/-- The end that a lever has left in a FREE stroke whose list an arrival tests, where the arrival gives the lever the position
`pos` and leaves the part RUNNING or not: a stroke begun or going on in RUNNING, or ended at REVERSE or FAULT (R73, R75, R79,
R97; log entry 49). -/
def freeStrokeLeft (l : LeverRec) (pos : Position) (running : Bool) : Option Position :=
  let goesOn := pos = .mid ∧ running = true
  let ended := pos = .reverse ∨ pos = .fault
  if l.lock = .free then
    match l.release with
    | .strokeN => if goesOn ∨ ended then some .normal else none
    | .strokeR => if goesOn ∨ ended then some .reverse else none
    | .nLocked | .nFree => if goesOn then some .normal else none
    | .rLocked | .rFree => if goesOn then some .reverse else none
    | .unknown => none
  else none

/-- A lever is in a stroke that has raised STROKE_LOSS already (R79). -/
def strokeTold (l : LeverRec) : Bool := (l.release = .strokeN || l.release = .strokeR) && l.lossTold

/-- An arrival that gives a lever the position `pos` raises STROKE_LOSS of it, with the detail `d`: its FREE stroke has not raised
it yet, and the list for the end it left does not hold in `t` (R79, R97). -/
def LosesStroke (b : Bank) (t : State) (n : Nat) (l : LeverRec) (pos : Position) (d : Nat) : Prop :=
  strokeTold l = false ∧ ∃ stood, freeStrokeLeft l pos (t.part = .running) = some stood ∧ d = stood.code ∧
    listHolds t b (if stood = .normal then (b.leverEntry n).reverseList else (b.leverEntry n).normalList) = false

/-- A report of NORMAL starts the approach lock of a lever: its kind is SIGNAL, its approach time is above 0, it comes from
REVERSE or from a stroke that left REVERSE, and an approach track is not CLEAR (R77, R83). -/
def startsApproach (s : State) (e : LeverEntry) (l : LeverRec) : Bool :=
  LeverKind.ofByte e.kind = .signal && e.approachTime ≠ 0 && (l.position = .reverse || l.release = .strokeR)
  && e.approachTracks.any fun t => !trackClear s t

/-! ### Commutator moves -/

/-- The section's exchange record holds an acknowledged code of a class that they sent (R138, R139). -/
def HoldsCode (s : State) (n : Nat) (c : BellClass) (x : Exchange) : Prop :=
  recAt s.exchanges n = some x ∧ x.origin = some .theySent ∧ x.cls = some c ∧ x.status = .acknowledged

/-- The tests of R138 for a move from BLOCKED to CLEAR, the part state apart. -/
def AcceptanceStands (s : State) (b : Bank) (n : Nat) (r : SectionRec) (now : Time) : Prop :=
  let e := b.sectionEntry n
  (s.line e.lineOf).link = .up ∧ s.obstruction e.lineOf = false ∧ (e.dir = .single → r.far = .blocked) ∧
  (∃ x u, HoldsCode s n .offer x ∧ x.ackTime = some u ∧ now.since u < e.window.toNat * 100) ∧
  ∀ c ∈ b.covered e.acceptance, conditionHolds s b c.2 = true

/-- A move of a section's own state to a position is taken (R137, R138, R139). -/
def MoveTaken (s : State) (b : Bank) (n : Nat) (r : SectionRec) (now : Time) (pos : Instrument) : Prop :=
  s.part = .running ∧ (b.sectionEntry n).dir ≠ .outbound ∧
  match r.own, pos with
  | .blocked, .clear => AcceptanceStands s b n r now
  | .blocked, .onLine => True
  | .clear, .onLine => True
  | .clear, .blocked => ∃ x, HoldsCode s n .cancel x
  | .onLine, .blocked => r.progress = .proven
  | _, _ => False

/-! ### A bank taken into use at a switch -/

/-- What the completion of a switch from the bank `o`, if any, to the bank `b` keeps of the state `s`, and what it makes afresh,
in `t`: unit records by their roster entries, tracks, levers and sections by their entries, assignments and covered pool entries,
with the changes of tracks handed on to the new sections, lamps by their assignments, recognisers with their sections and the
timing parameters, lines by their settings, live intensities by their initial values (R17, R35, R55, R86, R99, R116, R131, R146,
R153, R156, R168, R169). -/
structure Redefined (o : Option Bank) (b : Bank) (s t : State) : Prop where
  units : ∀ a ∈ addresses, b.kindAt a ≠ .none →
    ((∀ x, o = some x → x.rosterAt a ≠ b.rosterAt a) →
      ∃ v, recAt t.units a = some v ∧ (v.state = .probing ∨ v.state = .absent)) ∧
    (∀ x, o = some x → x.rosterAt a = b.rosterAt a → ∀ u, recAt s.units a = some u →
      ∃ v, recAt t.units a = some v ∧ UnitStays u v)
  unlisted : ∀ a, b.kindAt a = .none → recAt t.units a = none
  marks : ∀ a, a ∈ t.lossMarks ↔ a ∈ s.lossMarks ∧ ∃ x, o = some x ∧ x.rosterAt a = b.rosterAt a
  refresh : ∀ a ∈ addresses, (∀ x, o = some x → x.rosterAt a ≠ b.rosterAt a) →
    recAt t.refresh a = (b.kindAt a).refreshed.map fun k => t.now.plus k.period
  undefinedTracks : ∀ n, b.defined .tu n = false → recAt t.tracks n = none
  tracks : ∀ n, b.defined .tu n = true →
    ((∀ x, o = some x → x.assignment .tu n ≠ b.assignment .tu n ∨ x.trackEntry n ≠ b.trackEntry n) →
      recAt t.tracks n = some {}) ∧
    ∀ x, o = some x → x.assignment .tu n = b.assignment .tu n → x.trackEntry n = b.trackEntry n →
      (∀ a ∈ addresses, b.kindAt a = .tu → n ∈ (b.assignedChannels a).map Prod.snd → x.rosterAt a = b.rosterAt a) →
      ∀ r, recAt s.tracks n = some r → recAt t.tracks n = some r
  levers : ∀ n, b.defined .lfu n = true →
    let redefined := fun x : Bank => x.assignment .lfu n ≠ b.assignment .lfu n ∨ x.leverEntry n ≠ b.leverEntry n ∨
      (∃ p ∈ b.covered (b.leverEntry n).reverseList, x.pool.getD p.1 default ≠ p.2) ∨
      ∃ p ∈ b.covered (b.leverEntry n).normalList, x.pool.getD p.1 default ≠ p.2
    ((∀ x, o = some x → redefined x) → recAt t.levers n = some {}) ∧
    ∀ x, o = some x → ¬ redefined x →
      (∀ a ∈ addresses, b.kindAt a = .lfu → n ∈ (b.assignedChannels a).map Prod.snd → x.rosterAt a = b.rosterAt a) →
      ∀ l, recAt s.levers n = some l → ∃ l', recAt t.levers n = some l' ∧ l'.position = l.position ∧
        l'.catchUp = l.catchUp ∧ l'.violation = l.violation
  sections : ∀ n, b.defined .iu n = true →
    let e := b.sectionEntry n
    let redefined := fun x : Bank => x.assignment .iu n ≠ b.assignment .iu n ∨ x.sectionEntry n ≠ e ∨
      ∃ p ∈ b.covered e.acceptance, x.pool.getD p.1 default ≠ p.2
    let handed := sectionOnTracks e (trackMove s.tracks t.tracks)
    let restarted := fun l : Line => ∀ x, o = some x → x.lineSettings l ≠ b.lineSettings l
    ((∀ x, o = some x → redefined x) →
      recAt t.sections n = some (handed { own := if e.dir = .outbound then .blocked else .onLine }) ∧
      recAt t.exchanges n = some {} ∧ ∀ side, recAt (t.recognisers side) n = some {}) ∧
    ∀ x, o = some x → ¬ redefined x →
      (∀ r, recAt s.sections n = some r → ∃ r', recAt t.sections n = some r' ∧
        r' = { handed r with far := r'.far, commutator := r'.commutator } ∧
        (restarted e.lineOf ∧ (s.line e.lineOf).link = .up → r'.far = .unknown) ∧
        (¬ (restarted e.lineOf ∧ (s.line e.lineOf).link = .up) → r'.far = r.far) ∧
        (r'.commutator = r.commutator ∨ r'.commutator = .unknown)) ∧
      (∀ y, recAt s.exchanges n = some y → recAt t.exchanges n = some y) ∧
      ∀ side g, recAt (s.recognisers side) n = some g →
        (g.collecting = false → recAt (t.recognisers side) n = some g) ∧
        (g.collecting = true → x.timing ≠ b.timing → recAt (t.recognisers side) n = some {}) ∧
        (g.collecting = true → x.timing = b.timing → ∃ i, recAt (t.recognisers side) n = some { g with invalid := i } ∧
          (i = true ↔ g.invalid = true ∨ (restarted e.lineOf ∧ (s.line e.lineOf).link = .up)))
  lamps : ∀ n, b.defined .lu n = true →
    ((∀ x, o = some x → x.assignment .lu n ≠ b.assignment .lu n) →
      ∃ r, recAt t.lamps n = some r ∧ r.state = .unknown ∧ r.last = none ∧ r.current = none) ∧
    ∀ x, o = some x → x.assignment .lu n = b.assignment .lu n →
      (∀ a ∈ addresses, b.kindAt a = .lu → n ∈ (b.assignedChannels a).map Prod.snd → x.rosterAt a = b.rosterAt a) →
      ∀ r, recAt s.lamps n = some r →
        ∃ r', recAt t.lamps n = some r' ∧ r'.state = r.state ∧ r'.last = r.last ∧ r'.current = r.current
  lines : ∀ l : Line,
    ((∀ x, o = some x → x.lineSettings l ≠ b.lineSettings l) → ∃ own0 own1 rest, t.line l =
      { settings := some (b.lineSettings l), startSeq := .sendingBreak, queue := .status own0 own1 :: rest,
        statusTimer := some (t.now.plus ((b.lineSettings l).statusInterval.toNat * 10)) } ∧
      own0 = ownOnChannel t b l 0 ∧ own1 = ownOnChannel t b l 1 ∧ ∀ m ∈ rest, ∃ c y, m = .instr c y) ∧
    ∀ x, o = some x → x.lineSettings l = b.lineSettings l → LineStays (s.line l) (t.line l)
  groups : ∀ i, i < 5 →
    ((∀ x, o = some x → x.groups.getD i 0 ≠ b.groups.getD i 0) → t.groupLive[i]? = some (b.groups.getD i 0).toNat) ∧
    ∀ x, o = some x → x.groups.getD i 0 = b.groups.getD i 0 →
      t.groupLive[i]? = some (s.groupLive.getD i (b.groups.getD i 0).toNat)
  outputs : OutputsShow t

/-! ### Requests -/

/-- The requests by code, each with the KEY level that its command samples. -/
def requestsOf (dt : Time) (key : Bool) (f : RequestFrame) : List (Byte × Option Bool × Instr) :=
  [(1, none, .readRecord dt f), (2, none, .loadTable dt f), (3, none, .copyBank dt f), (4, none, .checkBank dt f),
   (5, some key, .switchBank dt key f), (6, none, .restoreTrack dt f), (7, some key, .clearViolation dt key f),
   (8, some key, .blockRelease dt key f), (9, none, .ackAlarms dt f), (10, none, .setGroupIntensity dt f),
   (11, none, .reprobeUnit dt f), (12, none, .readEvents dt f), (13, some key, .restart dt key f)]

end Sys2Proof.Machine
end

