-- ==== Sys2Proof/Certificates/Slice0/Obligations.lean ====
section
/-! DEFINITION. The statements for the provers. `s.advance dt` is the state once the time operand has passed, `s.warp e` the
state at a running timer's expiry `e`, `finish old x` the end of an arrival that began in `old` and has changed it to `x`, and
`Concluded x t` says that `t` is `x` but for such an end. `EventsJoined` lists the events that joined the queue, and `OnItsWay`
says that a frame placed stands in the outbound queue or is being sent. -/

section Statements

open Sys2Proof Sys2Proof.Machine

/-! ### The queue of commands -/

/-- A step runs the command at the front of the queue with the rest of the queue; on an empty queue the part idles (log
entry 37). -/
def Obligations.StepRunsFrontCommand : Prop :=
  (∀ (c : Instr) (rest : List Instr) (s : State), s.pending = c :: rest → step s = exec c { s with pending := rest }) ∧
  (∀ s : State, s.pending = [] → step s = .next s)

/-- Every command completes, whatever the state, and leaves the queue of the waiting commands as it stands (log entry 28). -/
def Obligations.EveryCommandCompletes : Prop :=
  ∀ (c : Instr) (s : State), ∃ t, exec c s = .next t ∧ t.pending = s.pending

/-! ### Resets -/

/-- While the RESET pin holds the part in reset, no command but a reset does anything, not even pass time (R175; log entry 15).
A reset of a kind leaves everything as after power-on but the waiting commands, the pins, the storage, and the trip record,
which a POWER reset clears (R175). A store cut short leaves the storage at a free value (log entry 12). That a RESTART_RESET
which is not due does nothing is log entry 14, and that a POWER reset keeps the RESET pin's level log entry 16. -/
def Obligations.ResetsClearTheBlocks : Prop :=
  (∀ (c : Instr) (s : State), s.inReset = true → isReset c = false → exec c s = .next s) ∧
  ∀ s : State,
    let after := fun (k : ResetKind) (held : Bool) =>
      { State.reset with
        pending := s.pending, key := s.key, inReset := held, resetKind := k,
        stored := if s.storeOp.isSome then Config.storageUnknown s.freeCount else s.stored,
        freeCount := if s.storeOp.isSome then s.freeCount + 1 else s.freeCount,
        trip := if k = .power then none else s.trip }
    exec .powerReset s = .next (after .power s.inReset) ∧
    exec .resetPinAsserted s = .next (after .pin true) ∧
    (s.inReset = true → exec .resetPinReleased s = .next (after s.resetKind false)) ∧
    (s.inReset = false → exec .resetPinReleased s = .next s) ∧
    (s.restartDue = true → exec .restartReset s = .next (after .restart s.inReset)) ∧
    (s.restartDue = false → exec .restartReset s = .next s)
/-! ### The box loop: the idle pattern, the watch timer, the transmitter -/

/-- An idle pattern restarts the watch timer and does nothing else, a BROKEN loop included (R15, R16). At the expiry of the
watch timer a BROKEN loop only restarts it. An UP loop goes to BROKEN with LOOP_BROKEN: every unit in ACTIVE or PROBING goes
to SILENT without UNIT_STATE, the others keep their states, and the objects of an ACTIVE one fall, while RUNNING or TRIPPED
with LAMP_FAULT of exactly the lit lamps whose alarm moves (R15, R30, R32, R149, R150); sections and approach locks follow the
tracks (R53, R84, R135, R141). The watch timer then runs on (log entry 6), and the expiry is taken at its time (log entry 2).
-/
def Obligations.LoopWatch : Prop :=
  ∀ (dt : Time) (s : State), s.inReset = false →
    let due := (s.advance dt).warp s.watch
    let watched : State := { due with watch := due.now.plus 2 }
    let broken := raise { watched with loop := .broken } .loopBroken 0 0
    exec (.idlePatternArrival dt) s = .next { s with now := s.now + dt, watch := (s.now + dt).plus 2 } ∧
    (s.loop = .broken → exec (.loopWatchTimerExpiry dt) s = .next watched) ∧
    (s.loop = .up → s.active = none → exec (.loopWatchTimerExpiry dt) s = .next (arbiters broken)) ∧
    ∀ b, s.loop = .up → s.bank = some b → ∃ x new, exec (.loopWatchTimerExpiry dt) s = .next (finish due x) ∧
      (∃ us ts ls ps ns es, x = { broken with
        units := us, tracks := ts, levers := ls, lamps := ps, sections := ns, events := es }) ∧
      EventsJoined due x ((.loopBroken, 0, 0) :: new) ∧ LampsFell b (fun a => s.unitActive a = true) s x new ∧
      ReadersFollow b [onePass s.tracks (finish due x).tracks] s (finish due x) ∧
      ∀ a u, recAt s.units a = some u →
        (u.state = .active →
          recAt (finish due x).units a = some { u with state := .silent, report := none } ∧ ObjectsFell b a s (finish due x)) ∧
        (u.state = .probing → recAt (finish due x).units a = some { u with state := .silent, probeWindow := none }) ∧
        (u.state = .silent ∨ u.state = .mismatch → recAt (finish due x).units a = some u) ∧
        (u.state = .absent → ∃ w, recAt (finish due x).units a = some { u with probeWindow := w })

/-- A timer that is idle has no expiry: the command does nothing but pass time (log entry 2). -/
def Obligations.IdleTimersDoNothing : Prop :=
  ∀ (dt : Time) (s : State), s.inReset = false →
    (∀ q, (∀ p ∈ s.pendingReturns, p.seq = q → p.timer = none) →
      exec (.returnTimerExpiry dt q) s = .next (s.advance dt)) ∧
    (∀ a, recAt s.refresh a = none → exec (.refreshTimerExpiry dt a) s = .next (s.advance dt)) ∧
    (s.txHold = none → exec (.transmitHoldExpiry dt) s = .next (s.advance dt)) ∧
    (∀ a, (∀ u, recAt s.units a = some u → u.probeWindow = none) →
      exec (.probeWindowExpiry dt a) s = .next (s.advance dt)) ∧
    (∀ a, (∀ u, recAt s.units a = some u → u.reprobe = none) →
      exec (.reProbeTimerExpiry dt a) s = .next (s.advance dt)) ∧
    (∀ a, (∀ u, recAt s.units a = some u → u.report = none) →
      exec (.reportTimerExpiry dt a) s = .next (s.advance dt)) ∧
    (∀ n, (∀ r, recAt s.tracks n = some r → r.timer = none) →
      exec (.pickUpTimerExpiry dt n) s = .next (s.advance dt)) ∧
    (∀ n, (∀ l, recAt s.levers n = some l → l.approach = none) →
      exec (.approachTimerExpiry dt n) s = .next (s.advance dt)) ∧
    (∀ n, (∀ x, recAt s.exchanges n = some x → x.timer = none) →
      exec (.repetitionTimerExpiry dt n) s = .next (s.advance dt)) ∧
    (∀ n x, (∀ r, recAt (s.recognisers x) n = some r → r.endTimer = none) →
      exec (.endTimerExpiry dt n x) s = .next (s.advance dt)) ∧
    (∀ l, (s.line l).gapStart = none → exec (.gapTimerExpiry dt l) s = .next (s.advance dt)) ∧
    (∀ l, (s.line l).linkTimer = none → exec (.linkTimerExpiry dt l) s = .next (s.advance dt)) ∧
    (∀ l, (s.line l).statusTimer = none → exec (.statusTimerExpiry dt l) s = .next (s.advance dt)) ∧
    (s.startTimer = none → exec (.startTimerExpiry dt) s = .next (s.advance dt))

/-- At the expiry of a pending entry's return timer the entry is removed as lost; where the list was full, the arbiter applies at
once (R10). COMMAND_LOST is raised and the loss mark of its destination set where that mark was clear (R12). The expiry is taken
at its time (log entry 2). -/
def Obligations.ReturnTimerLosesTheFrame : Prop :=
  ∀ (dt : Time) (q : Byte) (s : State) (p : PendingReturn) (e : Time), s.inReset = false →
    s.pendingReturns.find? (fun p => p.seq = q) = some p → p.timer = some e →
    let left : State := { (s.advance dt).warp e with pendingReturns := s.pendingReturns.eraseP fun p => p.seq = q }
    let removed := if s.pendingReturns.length < 8 then left else arbiter left
    exec (.returnTimerExpiry dt q) s = .next (arbiters
      (if p.dest ∈ s.lossMarks then removed
       else raise { removed with lossMarks := markIn s.lossMarks p.dest } .commandLost p.dest p.kind.code))

/-- At the expiry of an address's refresh timer the present contents of its command are placed, and the timer runs for its
period from then on: 1000 ms for a LOCK_SET and a REPEATER_SET, 2000 ms for a DIAGRAM_SET (R11). Where the outbound queue has
room, the frame then stands in the queue or is being sent (R8, R10). -/
def Obligations.RefreshPlacesTheCommand : Prop :=
  ∀ (dt : Time) (a : Nat) (s : State) (b : Bank) (e : Time) (k : FrameKind), s.inReset = false →
    s.bank = some b → recAt s.refresh a = some e → (b.kindAt a).refreshed = some k →
    let due := (s.advance dt).warp e
    let period := if k = .diagramSet then 200 else 100
    let timed : State := { due with refresh := modifyRec s.refresh a fun _ => due.now.plus period }
    ∃ f, stateCommand due b a = some f ∧ f.kind = k ∧ f.dest = a ∧
      exec (.refreshTimerExpiry dt a) s = .next (finish due (place timed f)) ∧
      (s.outQueue.length < 24 → OnItsWay timed (place timed f) f) ∧
      recAt (finish due (place timed f)).refresh a = some (due.now.plus period)

/-- When the last byte of a frame has left, its return timer starts for 20 ms, the running probe window of a unit that the
frame probed is set to 100 ms from then (log entry 10), the restart reset becomes due where the frame was a RESTART's reply
(that it becomes due, and is carried out as a command of its own, is log entry 14), and the transmitter is free (R10, R12, R22,
R172). When the 20 ms after a reset have passed, the transmitter may take a frame (R10). In either case the arbiter then applies
at once. -/
def Obligations.TransmitterBecomesFree : Prop :=
  ∀ (dt : Time) (s : State), s.inReset = false →
    (s.sending = none → exec (.frameSent dt) s = .next (s.advance dt)) ∧
    (∀ x, s.sending = some x →
      let now := s.now + dt
      let left : State :=
        { s with now := now, sending := none, restartDue := s.restartDue || x.restart,
                 pendingReturns := s.pendingReturns.map fun p =>
                   if p.seq = x.seq then { p with timer := some (now.plus 2) } else p }
      exec (.frameSent dt) s = .next (arbiters
        (if x.kind = .identProbe then
          { left with units := modifyRec s.units x.dest fun u =>
              if (u.state = .probing ∨ u.state = .absent) ∧ u.probeWindow.isSome = true then
                { u with probeWindow := some (now.plus 10) }
              else u }
         else left))) ∧
    (∀ e, s.txHold = some e →
      exec (.transmitHoldExpiry dt) s = .next (arbiters { (s.advance dt).warp e with txHold := none }))

/-- The arbiter of the outbound queue: it takes nothing while the 20 ms after a reset run, a frame is being sent, 8 entries
are pending or the queue is empty; otherwise it takes the oldest frame of the most urgent class, gives it the sequence number
and enters it in the pending-return list (R10, R11, R12, R22). That a probe's window is started already at the taking is log
entry 10. The bytes that leave LOOP-OUT are those of a frame of source 0, its taken mark clear, its CRC-16 at its end, the high
byte first, and such a frame of enough payload is valid (R2, R182). -/
def Obligations.ArbiterTakesTheMostUrgent : Prop :=
  (∀ s : State,
    (s.txHold.isSome = true ∨ s.sending.isSome = true ∨ 8 ≤ s.pendingReturns.length ∨ s.outQueue = [] → arbiter s = s) ∧
    (s.txHold = none → s.sending = none → s.pendingReturns.length < 8 → s.outQueue ≠ [] →
      ∃ older f younger, s.outQueue = older ++ f :: younger ∧
        (∀ g ∈ older, f.kind.cls < g.kind.cls) ∧ (∀ g ∈ younger, f.kind.cls ≤ g.kind.cls) ∧
        let covered : List Byte :=
          BitVec.ofNat 8 (f.dest % 32) :: 0 :: s.seq :: BitVec.ofNat 8 f.kind.code :: BitVec.ofNat 8 f.payload.length :: f.payload
        arbiter s = { s with
          outQueue := older ++ younger, seq := s.seq + 1,
          sending := some { seq := s.seq, kind := f.kind, dest := f.dest, restart := f.restart,
                            bytes := covered ++ [(crc16 covered).extractLsb' 8 8, (crc16 covered).extractLsb' 0 8] },
          pendingReturns := s.pendingReturns ++
            [{ seq := s.seq, kind := f.kind, dest := f.dest, payload := f.payload, timer := none }],
          units := if f.kind = .identProbe then
              modifyRec s.units f.dest fun u =>
                if u.state = .probing ∨ u.state = .absent then { u with probeWindow := some (s.now.plus 10) } else u
            else s.units,
          refresh := if ∃ b, s.bank = some b ∧ (b.kindAt f.dest).refreshed = some f.kind then
              modifyRec s.refresh f.dest fun _ => s.now.plus (if f.kind = .diagramSet then 200 else 100)
            else s.refresh })) ∧
  ∀ (q : Byte) (k : FrameKind) (dest : Nat) (payload : List Byte),
    payloadLength k.code ≤ payload.length → payload.length ≤ 24 →
    frameValid k.code (sentFrame q k dest payload) = true

/-- A frame joins the outbound queue: a queued LOCK_SET, REPEATER_SET or DIAGRAM_SET to the same unit takes its payload;
else it joins at the young end while there are fewer than 24, and is taken at once where the queue was empty and the transmitter
is free; else a class 3 or 4 frame is dropped, and a class 1 or 2 frame displaces the newest frame of class 4, else of class 3,
else is dropped. Each dropped frame raises FRAME_DROPPED; a dropped RESTART reply makes the restart reset due (log entry 14); a
dropped probe ends its unit's probe window without an answer at once: the count rises and the next probe is placed, the third
time makes a PROBING unit ABSENT with UNIT_STATE, and an ABSENT unit's window becomes idle (R8, R9, R10, R22, R23, R24, R172; log
entry 11). -/
def Obligations.FrameJoinsTheQueue : Prop :=
  ∀ (s : State) (f : OutFrame),
    let same := fun g : OutFrame =>
      (f.kind = .lockSet ∨ f.kind = .repeaterSet ∨ f.kind = .diagramSet) ∧ g.kind = f.kind ∧ g.dest = f.dest
    let windowEnds := fun (y : State) (a : Nat) =>
      match recAt y.units a with
      | some u =>
        if u.state = .probing then
          if u.probeCount < 2 then
            place { y with units := modifyRec y.units a fun v => { v with probeWindow := none, probeCount := u.probeCount + 1 } }
              { kind := .identProbe, dest := a }
          else
            raise { y with units := modifyRec y.units a fun v =>
                { v with state := .absent, probeWindow := none, probeCount := 3, reprobe := some (s.now.plus 1000), started := true } }
              .unitState a (UnitState.probing.code * 256 + UnitState.absent.code)
        else if u.state = .absent then { y with units := modifyRec y.units a fun v => { v with probeWindow := none } }
        else y
      | none => y
    let dropped := fun (q : List OutFrame) (g : OutFrame) =>
      let y := raise { s with outQueue := q, restartDue := s.restartDue || g.restart } .frameDropped g.dest g.kind.code
      if g.kind = .identProbe then windowEnds y g.dest else y
    let queued : State := { s with outQueue := s.outQueue ++ [f] }
    ((∃ g ∈ s.outQueue, same g) → place s f = { s with
      outQueue := s.outQueue.map fun g => if same g then { g with payload := f.payload } else g }) ∧
    ((∀ g ∈ s.outQueue, ¬ same g) →
      (s.outQueue = [] → place s f = arbiter queued) ∧
      (s.outQueue ≠ [] → s.outQueue.length < 24 → place s f = queued) ∧
      (24 ≤ s.outQueue.length → 3 ≤ f.kind.cls → place s f = dropped s.outQueue f) ∧
      (24 ≤ s.outQueue.length → f.kind.cls < 3 → (∀ g ∈ s.outQueue, g.kind.cls < 3) →
        place s f = dropped s.outQueue f) ∧
      ∀ older g younger, 24 ≤ s.outQueue.length → f.kind.cls < 3 → s.outQueue = older ++ g :: younger →
        (g.kind.cls = 4 ∧ ∀ h ∈ younger, h.kind.cls ≠ 4) ∨
          (g.kind.cls = 3 ∧ (∀ h ∈ s.outQueue, h.kind.cls ≠ 4) ∧ ∀ h ∈ younger, h.kind.cls ≠ 3) →
        place s f = dropped (older ++ younger ++ [f]) g)

/-- An event joins the queue of at most 64: a full queue loses its oldest entry, and the gap flag of the entry then oldest is
set. An event that joins an empty queue has an EVENT_NOTICE placed to the terminal, or with no bank to the source of the
last request; the notice that joins an empty outbound queue is taken at once where the transmitter is free; a notice dropped
from a full outbound queue raises FRAME_DROPPED and no notice (R10, R178, R179). -/
def Obligations.EventJoinsTheQueue : Prop :=
  ∀ (s : State) (k : EventKind) (object detail : Nat),
    let e : Event := { kind := k, object := object, detail := detail, time := s.now, gap := false }
    let lost : Nat → Event := fun a =>
      { kind := .frameDropped, object := a, detail := FrameKind.code .eventNotice, time := s.now, gap := false }
    let terminal := match s.bank with | some b => b.terminal | none => s.lastRequester
    (s.events ≠ [] → s.events.length < 64 → raise s k object detail = { s with events := s.events ++ [e] }) ∧
    (∀ oldest next rest, s.events = oldest :: next :: rest → s.events.length = 64 →
      raise s k object detail = { s with events := { next with gap := true } :: rest ++ [e] }) ∧
    (s.events = [] → terminal = none → raise s k object detail = { s with events := [e] }) ∧
    (∀ a, s.events = [] → terminal = some a → s.outQueue.length < 24 →
      let noticed : State := { s with events := [e], outQueue := s.outQueue ++ [{ kind := .eventNotice, dest := a }] }
      raise s k object detail = if s.outQueue = [] then arbiter noticed else noticed) ∧
    (∀ a, s.events = [] → terminal = some a → 24 ≤ s.outQueue.length →
      raise s k object detail = { s with events := [e, lost a] })

/-! ### The box loop: frames that arrive -/

/-- A frame that is not valid is discarded: it restarts no watch timer and has no effect (R2, R6), but that a request's KEY
operand is taken as sampled (log entry 3). A valid frame of a kind that no unit sends does to the part what its arrival alone
does: the watch timer restarts, and a BROKEN loop comes UP with LOOP_RESTORED (R6, R15, R16). So does a report while no bank
is in use, and a report or a request from an address of kind NONE or addressed to a unit, and a report from a unit whose kind
does not send it. -/
def Obligations.FramesThatEndAtTheLoop : Prop :=
  (∀ (dt : Time) (s : State), s.inReset = false →
    (∀ kind f, frameValid kind f = false →
      exec (.ret dt kind f) s = .next (s.advance dt) ∧ exec (.discardedValidFrame dt kind f) s = .next (s.advance dt)) ∧
    (∀ f, (frameValid 8 f = false → exec (.leverReport dt f) s = .next (s.advance dt)) ∧
      (frameValid 9 f = false → exec (.trackSample dt f) s = .next (s.advance dt)) ∧
      (frameValid 10 f = false → exec (.lampReport dt f) s = .next (s.advance dt)) ∧
      (frameValid 11 f = false → exec (.instrReport dt f) s = .next (s.advance dt)) ∧
      (frameValid 12 f = false → exec (.diagReport dt f) s = .next (s.advance dt)) ∧
      (frameValid 13 f = false → exec (.ident dt f) s = .next (s.advance dt)) ∧
      (frameValid 14 f = false → exec (.badRequest dt f) s = .next (s.advance dt))) ∧
    (∀ k f code key c, (code, key, c) ∈ requestsOf dt k f → frameValid 14 (requestFrame code f) = false →
      exec c s = .next { s.advance dt with key := key.getD s.key })) ∧
  ∀ (dt : Time) (s : State), s.inReset = false →
    let heard : State := { s.advance dt with watch := (s.now + dt).plus 2, loop := .up }
    let after := arbiters (if s.loop = .up then heard else raise heard .loopRestored 0 0)
    (∀ kind f, wfOther kind f = true → exec (.discardedValidFrame dt kind f) s = .next after) ∧
    (∀ f : Frame, srcOf f ≠ 0 →
      (destOf f ≠ 0 ∨ s.bank = none ∨ (∃ b, s.bank = some b ∧ b.kindAt (srcOf f) = .none) →
        (frameValid 8 f = true → exec (.leverReport dt f) s = .next after) ∧
        (frameValid 9 f = true → exec (.trackSample dt f) s = .next after) ∧
        (frameValid 10 f = true → exec (.lampReport dt f) s = .next after) ∧
        (frameValid 11 f = true → exec (.instrReport dt f) s = .next after) ∧
        (frameValid 12 f = true → exec (.diagReport dt f) s = .next after) ∧
        (frameValid 13 f = true → exec (.ident dt f) s = .next after)) ∧
      (destOf f ≠ 0 ∨ (∃ b, s.bank = some b ∧ b.kindAt (srcOf f) = .none) →
        frameValid 14 f = true → exec (.badRequest dt f) s = .next after) ∧
      (∀ b, s.bank = some b →
        (frameValid 8 f = true → b.kindAt (srcOf f) ≠ .lfu → exec (.leverReport dt f) s = .next after) ∧
        (frameValid 9 f = true → b.kindAt (srcOf f) ≠ .tu → exec (.trackSample dt f) s = .next after) ∧
        (frameValid 10 f = true → b.kindAt (srcOf f) ≠ .lu → exec (.lampReport dt f) s = .next after) ∧
        (frameValid 11 f = true → b.kindAt (srcOf f) ≠ .iu → exec (.instrReport dt f) s = .next after) ∧
        (frameValid 12 f = true → b.kindAt (srcOf f) ≠ .du → exec (.diagReport dt f) s = .next after))) ∧
    ∀ k f code key c, (code, key, c) ∈ requestsOf dt k f →
      let g := requestFrame code f
      let sampled : State := { heard with key := key.getD s.key }
      srcOf g ≠ 0 → destOf g ≠ 0 ∨ (∃ b, s.bank = some b ∧ b.kindAt (srcOf g) = .none) → frameValid 14 g = true →
        exec c s = .next (arbiters (if s.loop = .up then sampled else raise sampled .loopRestored 0 0))

/-- A return that no entry matches is discarded. A return that matches has every older entry lost first; where the list was full
the arbiter applies as they leave it (R10). It is then a command delivered: the loss mark of its destination is cleared; a
probe's return whose taken mark is clear leaves the mark (R13, R14). The payloads of a LOCK_SET are compared over the length of
the copy (log entry 27). -/
def Obligations.ReturnDeliversTheCommand : Prop :=
  ∀ (dt : Time) (kind : Byte) (f : Frame) (s : State), s.inReset = false → wfReturn kind f = true →
    let heard := loopHeard (s.advance dt)
    ((∀ p ∈ heard.pendingReturns, p.seq ≠ f.seq) → exec (.ret dt kind f) s = .next (arbiters heard)) ∧
    ∀ older p younger, heard.pendingReturns = older ++ p :: younger → p.seq = f.seq → (∀ q ∈ older, q.seq ≠ f.seq) →
      let left : State := { heard with pendingReturns := younger }
      let kept : State := older.foldl (fun s q =>
          if q.dest ∈ s.lossMarks then s
          else raise { s with lossMarks := markIn s.lossMarks q.dest } .commandLost q.dest q.kind.code)
        (if heard.pendingReturns.length < 8 then left else arbiter left)
      (takenOf f = true → ¬ (p.kind = .lockSet ∧ f.payload.take p.payload.length ≠ p.payload) →
        exec (.ret dt kind f) s =
          .next (arbiters { kept with lossMarks := kept.lossMarks.filter fun a => a ≠ p.dest })) ∧
      (takenOf f = false → p.kind = .identProbe → exec (.ret dt kind f) s = .next (arbiters kept))

/-- A returned LOCK_SET whose payload differs from the entry's copy trips the part with LOCK_ECHO, naming the destination and
giving both payloads (R14, R176). In TRIPPED the trip record keeps its first cause; UNCONFIGURED has no trip (R177; log
entry 30). The payloads are compared over the length of the copy, a shorter one differing (log entry 27). A return whose taken
mark is clear, of a command that is no probe, makes its ACTIVE unit SILENT with UNIT_STATE and its objects fall; a unit in
another state is kept, and so is everything while no bank is in use (R14, R29, R32). Sections and approach locks follow the tracks
that fall (R53, R84, R135, R141). -/
def Obligations.ReturnThatFailsIsJudged : Prop :=
  ∀ (dt : Time) (kind : Byte) (f : Frame) (s : State) (older younger : List PendingReturn) (p : PendingReturn),
    s.inReset = false → wfReturn kind f = true → (loopHeard (s.advance dt)).pendingReturns = older ++ p :: younger →
    p.seq = f.seq → (∀ q ∈ older, q.seq ≠ f.seq) →
    let kept := older.foldl entryLost (entriesLeave (loopHeard (s.advance dt)) younger)
    (takenOf f = true → p.kind = .lockSet → f.payload.take p.payload.length ≠ p.payload →
      let delivered : State := { kept with lossMarks := kept.lossMarks.filter fun a => a ≠ p.dest }
      ∃ t, exec (.ret dt kind f) s = .next t ∧
        t = finish (s.advance dt) (tripCause delivered .lockEcho p.dest p.payload.head? f.payload.head?) ∧
        t.now = s.now + dt ∧ p.dest ∉ t.lossMarks ∧
        (s.part ≠ .tripped → s.part ≠ .unconfigured →
          TripTaken s t .lockEcho p.dest p.payload.head? f.payload.head?) ∧
        (s.part = .tripped ∨ s.part = .unconfigured → t.part = s.part ∧ t.trip = s.trip ∧ t.sections = s.sections) ∧
        t.tracks = s.tracks ∧ t.exchanges = s.exchanges ∧ t.stored = s.stored ∧ t.storeOp = s.storeOp ∧ UnitsStay s t) ∧
    (takenOf f = false → p.kind ≠ .identProbe →
      (s.bank = none → exec (.ret dt kind f) s = .next (arbiters kept)) ∧
      (∀ b, s.bank = some b → (∀ u, recAt s.units p.dest = some u → u.state ≠ .active) →
        exec (.ret dt kind f) s = .next (finish (s.advance dt) kept)) ∧
      ∀ b u, s.bank = some b → recAt s.units p.dest = some u → u.state = .active →
        let silent := raise { kept with units := modifyRec kept.units p.dest fun v => { v with state := .silent, report := none } }
          .unitState p.dest (UnitState.active.code * 256 + UnitState.silent.code)
        ∃ t, exec (.ret dt kind f) s = .next t ∧ t = finish (s.advance dt) (unitObjectsLost b p.dest silent) ∧
          recAt t.units p.dest = some { u with state := .silent, report := none } ∧ ObjectsFell b p.dest s t ∧
          ReadersFollow b [onePass s.tracks t.tracks] s t ∧
          ∀ a v, a ≠ p.dest → recAt s.units a = some v → ∃ w, recAt t.units a = some w ∧ UnitStays v w)

/-- A report is counted where its unit is ACTIVE, and restarts the unit's report timer for its full timeout (R7, R27). A
LEVER_REPORT that completes a held switch is left aside: the switch may make the unit's record afresh. -/
def Obligations.CountedReportRestartsItsTimer : Prop :=
  ∀ (dt : Time) (f : Frame) (s : State) (b : Bank) (u : UnitRec),
    let timed : UnitRec := { u with report := some ((s.now + dt).plus ((b.rosterAt (srcOf f)).timeout.toNat * 10)) }
    (Counted s b .lfu 8 f u → s.switchHeld = false →
      ∃ t, exec (.leverReport dt f) s = .next t ∧ recAt t.units (srcOf f) = some timed) ∧
    (Counted s b .tu 9 f u → ∃ t, exec (.trackSample dt f) s = .next t ∧ recAt t.units (srcOf f) = some timed) ∧
    (Counted s b .lu 10 f u → ∃ t, exec (.lampReport dt f) s = .next t ∧ recAt t.units (srcOf f) = some timed) ∧
    (Counted s b .iu 11 f u → ∃ t, exec (.instrReport dt f) s = .next t ∧ recAt t.units (srcOf f) = some timed) ∧
    (Counted s b .du 12 f u → ∃ t v, exec (.diagReport dt f) s = .next t ∧ recAt t.units (srcOf f) = some v ∧
      v = { timed with faults := v.faults })

/-- A report from a unit in PROBING, ABSENT or MISMATCH is discarded; one from a SILENT unit is discarded too, and puts the
unit into PROBING with UNIT_STATE and a probe, its probe count 0 and its timers idle (R27, R31, R22, R34). That the notice of
UNIT_STATE joins the outbound queue before the probe is the model's choice (log entry 4). -/
def Obligations.UncountedReports : Prop :=
  ∀ (dt : Time) (f : Frame) (s : State) (b : Bank) (u : UnitRec) (k : UnitKind) (kind : Byte) (c : Instr),
    s.inReset = false → s.bank = some b → b.kindAt (srcOf f) = k → recAt s.units (srcOf f) = some u →
    (k, kind, c) ∈ [(UnitKind.lfu, (8 : Byte), Instr.leverReport dt f), (.tu, 9, .trackSample dt f),
      (.lu, 10, .lampReport dt f), (.iu, 11, .instrReport dt f), (.du, 12, .diagReport dt f)] →
    wfFromUnit kind f = true →
    let heard := loopHeard (s.advance dt)
    let probing := raise
      { heard with units := modifyRec s.units (srcOf f) fun v =>
          { v with state := .probing, probeCount := 0, probeWindow := none, reprobe := none, report := none } }
      .unitState (srcOf f) (UnitState.silent.code * 256 + UnitState.probing.code)
    let probe : OutFrame := { kind := .identProbe, dest := srcOf f }
    (u.state = .probing ∨ u.state = .absent ∨ u.state = .mismatch → exec c s = .next (arbiters heard)) ∧
    (u.state = .silent → exec c s = .next (finish (s.advance dt) (place probing probe)) ∧
      (s.outQueue.length + 2 < 24 → OnItsWay probing (place probing probe) probe ∧
        ∃ w, recAt (place probing probe).units (srcOf f) = some { u with
          state := .probing, probeCount := 0, probeWindow := w, reprobe := none, report := none }))

/-! ### The unit roster -/

/-- An IDENT from a unit in PROBING or ABSENT is judged: the observed identity is written, the probe timers stop, the Started
flag is set, and the unit goes to ACTIVE where its kind and its expected serial agree, its report timer starting unless it is
the terminal, and otherwise to MISMATCH; UNIT_STATE is raised. Any other IDENT is disregarded (R25, R27, R34). -/
def Obligations.IdentIsJudged : Prop :=
  ∀ (dt : Time) (f : Frame) (s : State) (b : Bank) (u : UnitRec), s.inReset = false → s.bank = some b →
    wfFromUnit 13 f = true → b.kindAt (srcOf f) ≠ .none → recAt s.units (srcOf f) = some u →
    let a := srcOf f
    let e := b.rosterAt a
    let serial : BitVec 32 := byteAt f.payload 1 ++ byteAt f.payload 2 ++ byteAt f.payload 3 ++ byteAt f.payload 4
    let agrees := byteAt f.payload 0 = e.kind ∧ (e.serial = 0 ∨ serial = e.serial)
    let heard := loopHeard (s.advance dt)
    let judged := fun (v : UnitRec) (x : UnitState) (timer : Option Time) =>
      { v with state := x, obsKind := some (byteAt f.payload 0), obsSerial := some serial,
               obsEdition := some (byteAt f.payload 5), probeWindow := none, reprobe := none, started := true,
               report := timer }
    let left := fun (x : UnitState) (timer : Option Time) => finish (s.advance dt)
      (raise { heard with units := modifyRec s.units a fun v => judged v x timer } .unitState a (u.state.code * 256 + x.code))
    let timer := if b.kindAt a = .mt then none else some ((s.now + dt).plus (e.timeout.toNat * 10))
    ((u.state = .probing ∨ u.state = .absent) → agrees → exec (.ident dt f) s = .next (left .active timer) ∧
      recAt (left .active timer).units a = some (judged u .active timer)) ∧
    ((u.state = .probing ∨ u.state = .absent) → ¬ agrees → exec (.ident dt f) s = .next (left .mismatch none) ∧
      recAt (left .mismatch none).units a = some (judged u .mismatch none)) ∧
    (u.state = .active ∨ u.state = .silent ∨ u.state = .mismatch →
      exec (.ident dt f) s = .next (finish (s.advance dt) heard) ∧ recAt (finish (s.advance dt) heard).units a = some u)

/-- The probe window of a PROBING unit expires: below the third time the count rises and a further probe is placed; the
third makes the unit ABSENT, its re-probe timer running for 10 s and its Started flag set, with UNIT_STATE. The window of an
ABSENT unit ends without more. The re-probe timer of a unit places one probe and runs for 10 s again (R23, R24). Expiries
are taken at their time (log entry 2). -/
def Obligations.ProbeTimersProbeAgain : Prop :=
  ∀ (dt : Time) (a : Nat) (s : State) (u : UnitRec) (e : Time), s.inReset = false → recAt s.units a = some u →
    let due := (s.advance dt).warp e
    let probe : OutFrame := { kind := .identProbe, dest := a }
    let made := fun (g : UnitRec → UnitRec) => ({ due with units := modifyRec s.units a g } : State)
    (u.probeWindow = some e → u.state = .probing → u.probeCount < 2 →
      let counted := made fun v => { v with probeWindow := none, probeCount := u.probeCount + 1 }
      exec (.probeWindowExpiry dt a) s = .next (finish due (place counted probe)) ∧
      (s.outQueue.length < 24 → OnItsWay counted (place counted probe) probe ∧
        ∃ w, recAt (place counted probe).units a = some { u with probeWindow := w, probeCount := u.probeCount + 1 })) ∧
    (u.probeWindow = some e → u.state = .probing → 2 ≤ u.probeCount →
      let absent := fun v : UnitRec =>
        { v with state := .absent, probeWindow := none, probeCount := 3, reprobe := some (due.now.plus 1000), started := true }
      let lost := raise (made absent) .unitState a (UnitState.probing.code * 256 + UnitState.absent.code)
      exec (.probeWindowExpiry dt a) s = .next (finish due lost) ∧ recAt lost.units a = some (absent u)) ∧
    (u.probeWindow = some e → u.state = .absent →
      exec (.probeWindowExpiry dt a) s = .next (finish due (made fun v => { v with probeWindow := none }))) ∧
    (u.reprobe = some e →
      let timed := made fun v => { v with reprobe := some (due.now.plus 1000) }
      exec (.reProbeTimerExpiry dt a) s = .next (finish due (place timed probe)) ∧
      (s.outQueue.length < 24 → OnItsWay timed (place timed probe) probe))

/-- The report timer of an ACTIVE unit expires: the unit goes to SILENT with UNIT_STATE, and its objects fall to their
restrictive values, while RUNNING or TRIPPED with LAMP_FAULT of exactly the lit lamps whose alarm moves (R28, R32, R149, R150); sections and approach locks follow the tracks that fall (R53,
R84, R135, R141). No other unit and no object of another unit's kind is
touched but through what the end of an arrival decides. -/
def Obligations.ReportTimerSilencesTheUnit : Prop :=
  ∀ (dt : Time) (a : Nat) (s : State) (b : Bank) (u : UnitRec) (e : Time), s.inReset = false → s.bank = some b →
    recAt s.units a = some u → u.report = some e → u.state = .active →
    let due := (s.advance dt).warp e
    let told := raise { due with units := modifyRec s.units a fun v => { v with state := .silent, report := none } }
      .unitState a (UnitState.active.code * 256 + UnitState.silent.code)
    ∃ x new, exec (.reportTimerExpiry dt a) s = .next (finish due x) ∧
      (∃ ts ls ps ns v, x = { told with tracks := ts, levers := ls, lamps := ps, sections := ns, events := v } ∧
        (b.kindAt a ≠ .tu → ts = s.tracks) ∧ (b.kindAt a ≠ .tu → b.kindAt a ≠ .lfu → ls = s.levers) ∧
        (b.kindAt a ≠ .lu → ps = s.lamps) ∧ (b.kindAt a ≠ .tu → b.kindAt a ≠ .iu → ns = s.sections)) ∧
      EventsJoined told x new ∧ LampsFell b (fun z => z = a) s x new ∧
      recAt (finish due x).units a = some { u with state := .silent, report := none } ∧ ObjectsFell b a s (finish due x) ∧
      ReadersFollow b [onePass s.tracks (finish due x).tracks] s (finish due x)

/-! ### Tracks -/

/-- The four steps of the computation on a counted sample, for each assigned track of the frame: median and spread, ratio,
filtered value, good run (R40, R41, R42, R43). -/
def Obligations.SampleComputation : Prop :=
  ∀ (dt : Time) (f : Frame) (s : State) (b : Bank) (u : UnitRec) (ch n : Nat) (r : TrackRec),
    Counted s b .tu 9 f u → ((b.assignedChannels (srcOf f)).map Prod.snd).Nodup →
    (ch, n) ∈ b.assignedChannels (srcOf f) → recAt s.tracks n = some r → r.s ≤ 2047 →
    let e := b.trackEntry n
    let x := sampleAt f.payload ch
    ∃ t r' low vm high, exec (.trackSample dt f) s = .next t ∧ recAt t.tracks n = some r' ∧
      [low, vm, high].Perm [x.v1, x.v2, x.v3] ∧ low ≤ vm ∧ vm ≤ high ∧
      let noisy := e.nlim.toNat < high - low
      let feed := x.f < e.fmin.toNat
      r'.noisy = (if noisy then min 8 (r.noisy + 1) else 0) ∧
      r'.q = (if feed then 0 else min 2047 (vm * 1024 / x.f)) ∧
      (r'.s : Int) = r.s + ⌊(((r'.q : Int) - (r.s : Int) : Int) : ℚ) / 2 ^ e.k.toNat⌋ ∧
      r'.good = (if noisy ∨ feed then 0 else min 4 (r.good + 1)) ∧
      r'.q ≤ 2047 ∧ r'.s ≤ 2047 ∧ (r.s ≤ r'.q → r.s ≤ r'.s ∧ r'.s ≤ r'.q) ∧ (r'.q < r.s → r'.q ≤ r'.s ∧ r'.s < r.s)

/-- The decision on a counted sample: the first case of R44 that applies, with the thresholds, the pick-up and the recovery
(R44, R45, R46, R47, R50, R51); where the delay is 0 the clearing decision gives CLEAR or SUSPECT, reading the neighbours as the
first pass left them (R39, R61). TRACK_FAILED,
TRACK_RECOVERED, TRACK_SUSPECT and UNEXPECTED_OCCUPATION are raised of exactly the tracks that give cause, each with its detail
(R50, R51, R60, R62). After the first pass the proving flags are judged (R58, R59, R60), and sections and approach locks follow
the tracks pass by pass (R53, R84, R135, R141). A counted TRACK_SAMPLE changes only the tracks that the unit's channels assign,
exit-seen flags, the consumption and the progress of sections, approach locks, and what the end of an arrival decides (R39). -/
def Obligations.SampleDecision : Prop :=
  (∀ (dt : Time) (f : Frame) (s : State) (b : Bank) (u : UnitRec) (ch n : Nat) (r : TrackRec),
    Counted s b .tu 9 f u → ((b.assignedChannels (srcOf f)).map Prod.snd).Nodup →
    (ch, n) ∈ b.assignedChannels (srcOf f) → recAt s.tracks n = some r →
    let e := b.trackEntry n
    let x := sampleAt f.payload ch
    ∃ t r' new, exec (.trackSample dt f) s = .next t ∧ recAt t.tracks n = some r' ∧ EventsJoined (s.advance dt) t new ∧
      (if r.state = .suspect then r'.state = .suspect ∧ r'.cause = r.cause ∧ r'.timer = r.timer
      else if x.f < e.fmin.toNat then r'.state = .failed ∧ r'.cause = some .feed ∧ r'.timer = none
      else if r'.noisy = 8 then r'.state = .failed ∧ r'.cause = some .noise ∧ r'.timer = none
      else
        match r.state with
        | .failed =>
          if r'.good = 4 then r'.state = .occupied ∧ r'.cause = none else r'.state = .failed ∧ r'.cause = r.cause
        | .clear => r'.state = (if r'.s < e.d.toNat then .occupied else .clear) ∧ r'.timer = r.timer
        | .occupied =>
          if r'.s < e.p.toNat then r'.state = .occupied ∧ r'.timer = r.timer
          else if e.delay = 0 then r'.timer = none ∧
            (Clears e (betweenPasses s.tracks t.tracks) r'.exitSeen r → r'.state = .clear) ∧
            (¬ Clears e (betweenPasses s.tracks t.tracks) r'.exitSeen r → r'.state = .suspect)
          else r'.state = .pickingUp ∧ r'.timer = some ((s.now + dt).plus (e.delay.toNat * 10))
        | .pickingUp =>
          if r'.s < e.p.toNat then r'.state = .occupied ∧ r'.timer = none
          else r'.state = .pickingUp ∧ r'.timer = r.timer
        | .suspect => True) ∧
      (∀ d, (EventKind.trackFailed, n, d) ∈ new ↔ r.state ≠ .suspect ∧ r'.state = .failed ∧
        (∃ c, r'.cause = some c ∧ d = c.code) ∧ ¬ (r.state = .failed ∧ r.cause = r'.cause)) ∧
      (∀ d, (EventKind.trackRecovered, n, d) ∈ new ↔ r.state = .failed ∧ r'.state = .occupied ∧
        ∃ c, r.cause = some c ∧ d = c.code) ∧
      (∀ d, (EventKind.trackSuspect, n, d) ∈ new ↔ r.state ≠ .suspect ∧ r'.state = .suspect ∧ d = r'.s) ∧
      (∀ d, (EventKind.unexpectedOccupation, n, d) ∈ new ↔
        Unexplained e (samplePass s.tracks t.tracks) n r ∧ d = r'.s)) ∧
  (∀ (dt : Time) (f : Frame) (s : State) (b : Bank) (u : UnitRec),
    Counted s b .tu 9 f u → ((b.assignedChannels (srcOf f)).map Prod.snd).Nodup →
    ∃ t, exec (.trackSample dt f) s = .next t ∧
      FlagsFollow b (samplePass s.tracks t.tracks) s.tracks t.tracks ∧
      ReadersFollow b (samplePasses s.tracks t.tracks) s t) ∧
  ∀ (dt : Time) (f : Frame) (s : State) (b : Bank) (u : UnitRec), Counted s b .tu 9 f u →
    ∃ x t, exec (.trackSample dt f) s = .next t ∧ Concluded x t ∧
      t = concluded (s.advance dt) (samplesTaken b (srcOf f) f.payload (reportCounted (loopHeard (s.advance dt)) b (srcOf f))) ∧
      (∃ ts ls ns os v q n y p, x = { loopHeard (s.advance dt) with
        units := modifyRec s.units (srcOf f) (fun v =>
          { v with report := some ((s.now + dt).plus ((b.rosterAt (srcOf f)).timeout.toNat * 10)) }),
        tracks := ts, levers := ls, sections := ns, outputs := os, events := v, outQueue := q, seq := n, sending := y,
        pendingReturns := p }) ∧
      (∀ n, n ∉ (b.assignedChannels (srcOf f)).map Prod.snd → ∀ r, recAt s.tracks n = some r →
        ∃ r', recAt t.tracks n = some r' ∧ r' = { r with exitSeen := r'.exitSeen }) ∧
      (∀ n r, recAt s.sections n = some r → ∃ r', recAt t.sections n = some r' ∧
        r' = { r with consumed := r'.consumed, progress := r'.progress }) ∧
      ∀ n l, recAt s.levers n = some l → ∃ l', recAt t.levers n = some l' ∧ l'.position = l.position ∧
        l'.catchUp = l.catchUp ∧ l'.violation = l.violation ∧ (l'.approach = l.approach ∨ l'.approach = none)

/-- At the expiry of a track's pick-up timer the clearing decision gives CLEAR where its proving is off, it was never proved,
it has no neighbours, its exit was seen, or a neighbour is OCCUPIED or PICKING_UP; otherwise SUSPECT, with TRACK_SUSPECT. Reaching
CLEAR sets proved-once and clears unexpected-entry; the timer becomes idle and nothing else of the record changes (R48, R61,
R62). Sections and approach locks follow the change (R53, R84, R135, R141). -/
def Obligations.PickUpExpiryDecidesClearing : Prop :=
  ∀ (dt : Time) (n : Nat) (s : State) (b : Bank) (r : TrackRec) (e : Time), s.inReset = false → s.bank = some b →
    recAt s.tracks n = some r → r.timer = some e →
    let due := (s.advance dt).warp e
    let entry := b.trackEntry n
    let proves := entry.provingOn = false ∨ r.provedOnce = false ∨ entry.neighbourNumbers = [] ∨ r.exitSeen = true ∨
      ∃ m ∈ entry.neighbourNumbers, ∃ x, recAt s.tracks m = some x ∧ (x.state = .occupied ∨ x.state = .pickingUp)
    ∃ x new, exec (.pickUpTimerExpiry dt n) s = .next (finish due x) ∧
      (∃ ts ls ns v q n y p, x = { due with
        tracks := ts, levers := ls, sections := ns, events := v, outQueue := q, seq := n, sending := y, pendingReturns := p }) ∧
      EventsJoined due x new ∧
      (proves → new = [] ∧ recAt (finish due x).tracks n =
        some { r with state := .clear, timer := none, provedOnce := true, unexpected := false }) ∧
      (¬ proves → new = [(.trackSuspect, n, r.s)] ∧
        recAt (finish due x).tracks n = some { r with state := .suspect, timer := none }) ∧
      (∀ m, m ≠ n → recAt (finish due x).tracks m = recAt s.tracks m) ∧
      ReadersFollow b [onePass s.tracks (finish due x).tracks] s (finish due x)

/-! ### Levers -/

/-- A counted LEVER_REPORT gives each assigned lever its position and its catch; a lever that leaves an end against its lock
is violated; an arrival at NORMAL clears stroke loss and may start the approach lock; a FREE stroke that it ends at REVERSE, or at
FAULT (log entry 49), with its list not holding sets stroke loss (R97); nothing else of a lever changes but its release, its lock
and its stroke-loss flag. From a sound RUNNING, or with every lock LOCKED, STROKE_LOSS is raised, at most once of a lever, of
exactly the levers whose FREE stroke has its list not holding and has not raised it before, with the end left as detail (R79, R97;
that the lists are read after a trip is log entry 8). Levers of other units keep their positions. LEVER_CONTACT_FAULT and LEVER_VIOLATION are raised of exactly the levers that give cause, in
channel order (log entry 4; R71, R75, R76, R77, R80, R83). The premise on releases is the clause `fits` of the invariant
`Interlocked`. A report that completes a held switch is left aside. -/
def Obligations.LeverReportIsJudged : Prop :=
  ∀ (dt : Time) (f : Frame) (s : State) (b : Bank) (u : UnitRec), Counted s b .lfu 8 f u → s.switchHeld = false →
    ((b.assignedChannels (srcOf f)).map Prod.snd).Nodup → (∀ p ∈ s.levers, leverFits p.2) →
    ∃ t new, exec (.leverReport dt f) s = .next t ∧ EventsJoined (s.advance dt) t new ∧
      ofKinds [.leverContactFault, .leverViolation] new = ((b.assignedChannels (srcOf f)).flatMap fun c =>
        match recAt s.levers c.2 with
        | some l =>
          let pos := reportedPosition f.payload c.1
          (if pos = .fault ∧ l.position ≠ .fault then [(EventKind.leverContactFault, c.2, l.position.code)] else []) ++
          (if leavesLocked l pos then [(EventKind.leverViolation, c.2, l.position.code)] else [])
        | none => []) ∧
      ((ofKinds [.strokeLoss] new).map fun k => k.2.1).Nodup ∧
      (s.part = .running ∨ (∀ p ∈ s.levers, p.2.lock = .locked) →
        (∀ c n l d, (c, n) ∈ b.assignedChannels (srcOf f) → recAt s.levers n = some l →
          ((EventKind.strokeLoss, n, d) ∈ new ↔ LosesStroke b t n l (reportedPosition f.payload c) d)) ∧
        (∀ n l d, n ∉ (b.assignedChannels (srcOf f)).map Prod.snd → recAt s.levers n = some l →
          ((EventKind.strokeLoss, n, d) ∈ new ↔ LosesStroke b t n l l.position d))) ∧
      (∀ ch n l, (ch, n) ∈ b.assignedChannels (srcOf f) → recAt s.levers n = some l →
        let normal := (byteAt f.payload ch).getLsbD 0
        let reverse := (byteAt f.payload ch).getLsbD 1
        let pos : Position := if normal && reverse then .fault else if normal then .normal else if reverse then .reverse
          else .mid
        let e := b.leverEntry n
        ∃ l', recAt t.levers n = some l' ∧ l'.position = pos ∧ l'.catchUp = (byteAt f.payload ch).getLsbD 2 ∧
          l'.violation = (l.violation || leavesLocked l pos) ∧
          l'.approach = (if pos = .normal ∧ l.position ≠ .normal ∧ startsApproach s e l = true then
              some ((s.now + dt).plus (e.approachTime.toNat * 100))
            else l.approach) ∧
          (pos = .normal → l.position ≠ .normal → l'.strokeLoss = false) ∧
          (l.strokeLoss = true → ¬ (pos = .normal ∧ l.position ≠ .normal) → l'.strokeLoss = true) ∧ leverFits l' ∧
          (pos = .mid → l.position = .normal ∨ l.position = .reverse → s.part = .running → t.part = .running →
            l'.release = (if l.position = .normal then .strokeN else .strokeR) ∧ l'.lock = l.lock) ∧
          (pos = .reverse ∨ pos = .fault → l.lock = .free → l.lossTold = false →
            (l.release = .strokeN → listHolds t b e.reverseList = false → l'.strokeLoss = true) ∧
            (l.release = .strokeR → listHolds t b e.normalList = false → l'.strokeLoss = true))) ∧
      (∀ n l, n ∉ (b.assignedChannels (srcOf f)).map Prod.snd → recAt s.levers n = some l →
        ∃ l', recAt t.levers n = some l' ∧ leverCore l' = leverCore l) ∧
      t.tracks = s.tracks ∧ t.exchanges = s.exchanges ∧ t.incoming = s.incoming ∧ t.here = s.here ∧
      t.groupLive = s.groupLive ∧ t.stored = s.stored ∧ t.active = s.active ∧ t.shadow = s.shadow ∧ t.check = s.check ∧
      t.storeOp = s.storeOp ∧ t.lastRequester = s.lastRequester ∧ t.lossMarks = s.lossMarks ∧
      t.obstructionA = s.obstructionA ∧ t.obstructionB = s.obstructionB ∧ LineStays s.lineA t.lineA ∧
      LineStays s.lineB t.lineB ∧ (t.part = s.part → t.lamps = s.lamps) ∧
      (t.part ≠ .tripped ∨ s.part = .tripped → t.sections = s.sections ∧ t.trip = s.trip)

/-- A report that violates a lever trips the part with MULTI_VIOLATION and the event TRIP where it violates another too or another's flag stood
before it, naming the lowest-numbered lever it violates (R81, R176; log entry 41 on repeated violations). -/
def Obligations.SecondViolationTrips : Prop :=
  ∀ (dt : Time) (f : Frame) (s : State) (b : Bank) (u : UnitRec) (ch n : Nat) (l : LeverRec), Counted s b .lfu 8 f u →
    ((b.assignedChannels (srcOf f)).map Prod.snd).Nodup → (∀ p ∈ s.levers, leverFits p.2) →
    s.part = .starting ∨ s.part = .running ∨ s.part = .switching →
    let violated := fun c m => ∃ l, recAt s.levers m = some l ∧
      leavesLocked l (reportedPosition f.payload c) = true
    (ch, n) ∈ b.assignedChannels (srcOf f) → recAt s.levers n = some l →
    leavesLocked l (reportedPosition f.payload ch) = true →
    (∀ c m, (c, m) ∈ b.assignedChannels (srcOf f) → violated c m → n ≤ m) →
    (∃ c m, (c, m) ∈ b.assignedChannels (srcOf f) ∧ m ≠ n ∧ violated c m) ∨ (∃ p ∈ s.levers, p.1 ≠ n ∧ p.2.violation = true) →
    ∃ t, exec (.leverReport dt f) s = .next t ∧ TripTaken s t .multiViolation n none none ∧
      ∃ l', recAt t.levers n = some l' ∧ l'.violation = true

/-- The readings of the conditions and of a list: LEVER_NORMAL, LEVER_REVERSE and NORMAL_IF from the records of the levers,
TRACK_CLEAR, SECTION_CLEAR, SECTION_BLOCKED, LAMP_PROVEN; a list holds when every entry of its range holds (R88, R89, R90,
R91, R92, R93, R136). -/
def Obligations.ConditionsRead : Prop :=
  (∀ (s : State) (b : Bank) (e : PoolEntry) (m : LeverRec), recAt s.levers e.object.toNat = some m →
    let normal := m.position = .normal ∧ m.violation = false ∧ m.approach = none
    (e.kind = 1 → (conditionHolds s b e = true ↔ normal)) ∧
    (e.kind = 2 → (conditionHolds s b e = true ↔
      m.position = .reverse ∧ m.violation = false ∧ m.strokeLoss = false)) ∧
    (e.kind = 3 → e.position = 1 ∨ e.position = 2 → ∀ x, recAt s.levers e.second.toNat = some x →
      let pos : Position := if e.position = 1 then .normal else .reverse
      let other : Position := if e.position = 1 then .reverse else .normal
      (conditionHolds s b e = true ↔
        m.violation = false ∧ x.violation = false ∧ ((x.position = pos ∧ normal) ∨ x.position = other)))) ∧
  ∀ (s : State) (b : Bank) (e : PoolEntry),
    let n := e.object.toNat
    let d := b.sectionEntry n
    (e.kind = 4 → (conditionHolds s b e = true ↔ ∃ r, recAt s.tracks n = some r ∧ r.state = .clear)) ∧
    (e.kind = 5 → (conditionHolds s b e = true ↔ ∃ r, recAt s.sections n = some r ∧
      (d.dir = .outbound ∨ d.dir = .single) ∧ s.part = .running ∧ (s.line d.lineOf).link = .up ∧ r.far = .clear ∧
      r.consumed = false ∧ s.obstruction d.lineOf = false ∧ (d.dir = .single → r.own = .blocked))) ∧
    (e.kind = 6 → (conditionHolds s b e = true ↔ ∃ r, recAt s.sections n = some r ∧
      (d.dir = .inbound ∨ d.dir = .single) ∧ r.own = .blocked)) ∧
    (e.kind = 7 → (conditionHolds s b e = true ↔ ∃ r, recAt s.lamps n = some r ∧ r.state = .lit)) ∧
    ∀ r : ListRange, (listHolds s b r = true ↔
      ∀ i, r.start.toNat ≤ i → i < r.start.toNat + r.count.toNat → conditionHolds s b (b.pool.getD i default) = true)

/-- At the expiry of a lever's approach timer its approach lock ends, and nothing else changes but what the end of an arrival
decides (R84). At the expiry of a repetition timer the exchange record becomes EXPIRED, its other fields kept (R127). -/
def Obligations.ApproachAndRepetitionTimers : Prop :=
  ∀ (dt : Time) (n : Nat) (s : State) (e : Time), s.inReset = false →
    let due := (s.advance dt).warp e
    (∀ l, recAt s.levers n = some l → l.approach = some e →
      let ended := finish due { due with levers := modifyRec s.levers n fun l => { l with approach := none } }
      exec (.approachTimerExpiry dt n) s = .next ended ∧
      ∃ l', recAt ended.levers n = some l' ∧ l'.approach = none ∧ l'.position = l.position ∧ l'.violation = l.violation) ∧
    (∀ x, recAt s.exchanges n = some x → x.timer = some e →
      let expired :=
        finish due { due with exchanges := modifyRec s.exchanges n fun x => { x with status := .expired, timer := none } }
      exec (.repetitionTimerExpiry dt n) s = .next expired ∧
      recAt expired.exchanges n = some { x with status := .expired, timer := none })

/-! ### Lamps and diagram outputs -/

/-- A counted LAMP_REPORT classes each assigned lamp's current by its limits: the state moves when the class differs from it
and is the class of the report before, the last class and the current are those of this report, and no other lamp's state
changes (R148). The alarm follows the fault condition while the part is RUNNING or TRIPPED, with LAMP_FAULT and LAMP_RECOVERED
of exactly the lamps whose alarm it moves, and is held while it is SWITCHING (R150). -/
def Obligations.LampReportIsClassed : Prop :=
  ∀ (dt : Time) (f : Frame) (s : State) (b : Bank) (u : UnitRec), Counted s b .lu 10 f u →
    ((b.assignedChannels (srcOf f)).map Prod.snd).Nodup →
    ∃ x t new, exec (.lampReport dt f) s = .next t ∧ EventsJoined (s.advance dt) x new ∧
      t = finish (s.advance dt) x ∧ Concluded x t ∧
      (∀ ch n r, (ch, n) ∈ b.assignedChannels (srcOf f) → recAt s.lamps n = some r →
        let current := packed12 f.payload ch
        let e := b.lampEntry n
        let cls : LampState := if current < e.openLimit.toNat then .out
          else if current ≤ e.shortLimit.toNat then .lit else .short
        ∃ r', recAt t.lamps n = some r' ∧ r'.last = some cls ∧ r'.current = some current ∧
          r'.state = (if cls ≠ r.state ∧ r.last = some cls then cls else r.state) ∧
          (s.part = .switching → r'.alarm = r.alarm) ∧
          (s.part = .running ∨ s.part = .tripped →
            let appears := r.state = .lit ∧ r'.state ≠ .lit
            let clears := r.state ≠ .lit ∧ r'.state = .lit
            (∀ d, (EventKind.lampFault, n, d) ∈ new ↔
              appears ∧ (r.alarm = .quiet ∨ r.alarm = .recovered) ∧ d = r'.state.code) ∧
            (∀ d, (EventKind.lampRecovered, n, d) ∈ new ↔
              clears ∧ (r.alarm = .alarm ∨ r.alarm = .accepted) ∧ d = r'.alarm.code) ∧
            r'.alarm = match r.alarm with
              | .quiet => if appears then .alarm else .quiet
              | .alarm => if clears then .recovered else .alarm
              | .accepted => if clears then .quiet else .accepted
              | .recovered => if appears then .alarm else .recovered)) ∧
      (∀ n r, n ∉ (b.assignedChannels (srcOf f)).map Prod.snd → recAt s.lamps n = some r →
        ∃ r', recAt t.lamps n = some r' ∧ r' = { r with alarm := r'.alarm }) ∧
      ∃ ps v q n y p, x = { loopHeard (s.advance dt) with
        units := modifyRec s.units (srcOf f) (fun v =>
          { v with report := some ((s.now + dt).plus ((b.rosterAt (srcOf f)).timeout.toNat * 10)) }),
        lamps := ps, events := v, outQueue := q, seq := n, sending := y, pendingReturns := p }

/-- A counted DIAG_REPORT writes the fault of each assigned channel into the unit record, code 3 read as SHORT, raises
DIAGRAM_FAULT of exactly the outputs whose fault it changes, in channel order (log entry 4), and leaves those of unassigned
channels and everything else but what the end of an arrival decides (R158, R180). -/
def Obligations.DiagReportWritesFaults : Prop :=
  ∀ (dt : Time) (f : Frame) (s : State) (b : Bank) (u : UnitRec), Counted s b .du 12 f u → u.faults.length = 16 →
    let fault := fun ch : Nat => match (byteAt f.payload (ch / 4)).toNat / 4 ^ (3 - ch % 4) % 4 with
      | 0 => OutputFault.none | 1 => .openCircuit | _ => .short
    let heard := loopHeard (s.advance dt)
    ∃ x v new, exec (.diagReport dt f) s = .next (finish (s.advance dt) x) ∧
      (∃ us e q n y p, x = { heard with
          units := us, events := e, outQueue := q, seq := n, sending := y, pendingReturns := p } ∧
        ∀ a, a ≠ srcOf f → recAt us a = recAt s.units a) ∧
      EventsJoined heard x new ∧
      new = ((b.assignedChannels (srcOf f)).filterMap fun c =>
        if u.faults.getD c.1 .none = fault c.1 then none else some (EventKind.diagramFault, c.2, (fault c.1).code)) ∧
      recAt (finish (s.advance dt) x).units (srcOf f) = some v ∧ v.state = .active ∧ v.faults.length = 16 ∧
      (∀ c ∈ b.assignedChannels (srcOf f), v.faults[c.1]? = some (fault c.1)) ∧
      ∀ ch, ch ∉ (b.assignedChannels (srcOf f)).map Prod.fst → v.faults[ch]? = u.faults[ch]?

/-- The mode of a diagram output, computed from its source record by the first condition that applies, FLASH_FAST before
FLASH_SLOW before STEADY before OFF (R155). -/
def Obligations.DiagramModes : Prop :=
  ∀ (s : State) (e : DiagramEntry),
    let n := e.object.toNat
    let mode := sourceMode s e
    (e.source = 1 → ∀ r, recAt s.tracks n = some r → mode = match r.state with
      | .suspect => .flashFast | .failed => .flashFast | .occupied => .steady | .pickingUp => .steady | .clear => .off) ∧
    (e.source = 2 → ∀ l, recAt s.levers n = some l → mode =
      if l.violation = true ∨ l.position = .fault ∨ l.position = .unknown then .flashFast
      else if l.strokeLoss = true then .flashSlow
      else if l.position = .normal then .off else .steady) ∧
    (e.source = 3 → ∀ r, recAt s.sections n = some r → r.own ≠ .unknown → mode =
      if r.disagreement = true then .flashFast
      else match r.own with | .clear => .flashSlow | .onLine => .steady | _ => .off) ∧
    (e.source = 4 → ∀ r, recAt s.sections n = some r → mode = match r.far with
      | .unknown => .flashFast | .clear => .flashSlow | .onLine => .steady | .blocked => .off) ∧
    (e.source = 5 → ∀ x, recAt s.exchanges n = some x → mode =
      if x.origin = none then .off
      else match x.status with | .misrepeated => .flashFast | .awaiting => .flashSlow | _ => .off) ∧
    (e.source = 6 → ∀ r, recAt s.lamps n = some r → mode = match r.alarm with
      | .alarm => .flashFast | .recovered => .flashSlow | .accepted => .steady | .quiet => .off) ∧
    (e.source = 7 → (e.object = 0 → mode = if s.lineA.link = .down then .flashFast else .off) ∧
      (e.object = 1 → mode = if s.lineB.link = .down then .flashFast else .off)) ∧
    (e.source = 8 → ∀ u, recAt s.units n = some u → mode = match u.state with
      | .silent => .flashFast | .absent => .flashFast | .mismatch => .flashFast | .probing => .flashSlow | .active => .off) ∧
    (e.source = 9 → s.part ≠ .unconfigured → mode = match s.part with
      | .tripped => .flashFast | .starting => .steady | .switching => .steady | _ => .off)

/-- The contents of the commands that carry state: a LOCK_SET frees exactly the outputs of the assigned channels whose lever
is FREE; a REPEATER_SET carries far and own states, disagreement and the awaiting lamp; a DIAGRAM_SET carries modes and
intensities; unassigned channels are sent as R20 gives (R20, R74, R144, R157). What a change places at the end of an arrival,
where the queues have room: a command for every address whose contents the arrival changed or whose roster entry is new, a
LOCK_SET for every LFU where the part left RUNNING or entered TRIPPED, and an INSTR for every section whose own state changed
(R11, R17, R73, R74, R115, R144, R157, R176). -/
def Obligations.CommandContents : Prop :=
  (∀ (s : State) (b : Bank) (a : Nat),
    (b.kindAt a = .lfu → ∃ x : Byte, stateCommand s b a = some { kind := .lockSet, dest := a, payload := [x] } ∧
      ∀ ch, ch < 8 → (x.getLsbD ch = true ↔ ∃ n l, (ch, n) ∈ b.assignedChannels a ∧ recAt s.levers n = some l ∧ l.lock = .free)) ∧
    (b.kindAt a = .iu →
      ∃ x0 y0 x1 y1 : Byte, stateCommand s b a = some { kind := .repeaterSet, dest := a, payload := [x0, y0, x1, y1] } ∧
      ∀ ch x y, (ch, x, y) ∈ [(0, x0, y0), (1, x1, y1)] →
        (∀ n r, (ch, n) ∈ b.assignedChannels a → recAt s.sections n = some r →
          x.toNat % 16 = r.far.code ∧ x.toNat / 16 = r.own.code ∧ y.getLsbD 0 = r.disagreement ∧
          (y.getLsbD 1 = true ↔ ∃ z, recAt s.exchanges n = some z ∧ z.origin.isSome = true ∧
            (z.status = .awaiting ∨ z.status = .misrepeated))) ∧
        (ch ∉ (b.assignedChannels a).map Prod.fst → recAt s.sections 0 = none → x = 0x10 ∧ y = 0)) ∧
    (b.kindAt a = .du → ∃ p, stateCommand s b a = some { kind := .diagramSet, dest := a, payload := p } ∧ p.length = 16 ∧
      (∀ ch n m, (ch, n) ∈ b.assignedChannels a → recAt s.outputs n = some m →
        ∃ x, p[ch]? = some x ∧ x.toNat / 16 = m.code ∧
          x.toNat % 16 = groupIntensity s (b.diagramEntry n).group.toNat % 16) ∧
      ∀ ch, ch < 16 → ch ∉ (b.assignedChannels a).map Prod.fst → recAt s.outputs 0 = none → p[ch]? = some 0)) ∧
  ∀ (old s : State) (b : Bank), s.bank = some b → s.part ≠ .starting →
    let t := finish old s
    (Roomy s b → ∀ a f, a ∈ addresses → stateCommand t b a = some f →
      (∀ o, old.bank = some o → o.rosterAt a = b.rosterAt a → stateCommand old o a = some f →
        b.kindAt a = .lfu ∧ ((old.part = .running ∧ s.part ≠ .running) ∨ (old.part ≠ .tripped ∧ s.part = .tripped))) →
      OnItsWay s t f) ∧
    ∀ n r r', recAt old.sections n = some r → recAt s.sections n = some r' → r.own ≠ r'.own →
      (s.sections.map Prod.fst).Nodup →
      let l := (b.sectionEntry n).lineOf
      let ch := (b.sectionEntry n).channel.toNat
      (∀ m r, m ≠ n → recAt s.sections m = some r →
        (b.sectionEntry m).lineOf ≠ l ∨ (b.sectionEntry m).channel.toNat ≠ ch) →
      (s.line l).queue.length + s.sections.length ≤ 16 →
      LineMsg.instr ch r'.own ∈ (t.line l).queue ∨ (t.line l).sending = some (.instr ch r'.own)

/-! ### Instruments, bells and exchanges -/

/-- A counted INSTR_REPORT of a unit with one assigned channel: the commutator takes the position; a position that differs
from the own state is a move, taken by the tests of R138 and R139 and otherwise refused with COMMUTATOR_REFUSED and the
disagreement flag set; an acceptance or a cancel consumes the exchange record; a set tapper mark is a local stroke, placed on the
section's line and invalid while the link is DOWN; a set acknowledge mark acknowledges the alarms (R137, R138, R139, R119, R121,
R151, R180); the order of the reasons for refusing the move of an OUTBOUND section is log entry 23. Of a unit with any number of
assigned channels, one without included (R20): that the commutators are taken in channel order, then the strokes in channel
order, then the acknowledge push, is the model's choice (log entry 24), R7 giving one running time to all. -/
def Obligations.InstrReportMovesTheInstrument : Prop :=
  (∀ (dt : Time) (f : Frame) (s : State) (b : Bank) (u : UnitRec) (ch n : Nat) (r : SectionRec), Counted s b .iu 11 f u →
    b.assignedChannels (srcOf f) = [(ch, n)] → recAt s.sections n = some r →
    let now := s.now + dt
    let tapped := (byteAt f.payload ch).getLsbD 7
    let acknowledges := (byteAt f.payload 2).getLsbD 0
    let code := (byteAt f.payload ch).toNat % 4
    let pos : Instrument := if code = 1 then .blocked else if code = 2 then .clear else if code = 3 then .onLine else .unknown
    let moves := pos ≠ r.commutator ∧ pos ≠ .unknown ∧ pos ≠ r.own
    let taken := moves ∧ MoveTaken s b n r now pos
    let spends := taken ∧ ((r.own = .blocked ∧ pos = .clear) ∨ (r.own = .clear ∧ pos = .blocked))
    let line := (b.sectionEntry n).lineOf
    let channel := (b.sectionEntry n).channel.toNat
    ∃ x t new, exec (.instrReport dt f) s = .next t ∧ Concluded x t ∧ t = finish (s.advance dt) x ∧
      EventsJoined (s.advance dt) x new ∧
      (∃ us ns z h ps la lb v q n y p, x = { loopHeard (s.advance dt) with
        units := us, sections := ns, exchanges := z, here := h, lamps := ps, lineA := la, lineB := lb, events := v,
        outQueue := q, seq := n, sending := y, pendingReturns := p }) ∧
      (pos = r.commutator → recAt t.sections n = some r) ∧
      (pos ≠ r.commutator → pos = .unknown → recAt t.sections n = some { r with commutator := .unknown }) ∧
      (pos ≠ r.commutator → pos ≠ .unknown → pos = r.own →
        recAt t.sections n = some { r with commutator := pos, disagreement := false }) ∧
      (taken → recAt t.sections n = some { r with
        commutator := pos, own := pos, disagreement := false,
        progress := if pos = .onLine ∨ r.own = .onLine then .seen 0 else r.progress }) ∧
      (moves → ¬ taken → recAt t.sections n = some { r with commutator := pos, disagreement := true } ∧
        ∃ why, moveRefused (s.advance dt) b n r pos = some why ∧
          ofKinds [.commutatorRefused] new = [(.commutatorRefused, n, why.code)]) ∧
      (taken ∨ ¬ moves → ofKinds [.commutatorRefused] new = []) ∧
      (∀ y, recAt s.exchanges n = some y →
        (spends → recAt t.exchanges n = some { y with status := .expired }) ∧
        (¬ spends → recAt t.exchanges n = some y)) ∧
      (∀ g, recAt s.here n = some g → recAt t.here n = some
        (if tapped = true then recogniserTakes b.timing now (decide ((s.line line).link = .down)) g else g)) ∧
      (tapped = true → (s.line line).link = .down → (.strokeDropped, line.code, channel) ∈ new) ∧
      (tapped = true → (s.line line).link = .up → (s.line line).queue.length < 15 →
        LineMsg.stroke channel ∈ (t.line line).queue ∨ (t.line line).sending = some (.stroke channel)) ∧
      (acknowledges = true → s.part = .running ∨ s.part = .tripped → t.lamps = s.lamps.map fun p =>
        (p.1, { p.2 with alarm := match p.2.alarm with | .alarm => .accepted | .recovered => .quiet | a => a })) ∧
      (acknowledges = false ∨ s.part = .switching → s.part ≠ .starting → t.lamps = s.lamps) ∧
      (∀ m, m ≠ n → recAt t.sections m = recAt s.sections m ∧ recAt t.exchanges m = recAt s.exchanges m ∧
        recAt t.here m = recAt s.here m) ∧
      LineStays s.lineA t.lineA ∧ LineStays s.lineB t.lineB) ∧
  ∀ (dt : Time) (f : Frame) (s : State) (b : Bank) (u : UnitRec), Counted s b .iu 11 f u →
    let channels := b.assignedChannels (srcOf f)
    let counted : State := { loopHeard (s.advance dt) with units := modifyRec s.units (srcOf f) (fun v =>
      { v with report := some ((s.now + dt).plus ((b.rosterAt (srcOf f)).timeout.toNat * 10)) }) }
    let turned := channels.foldl (fun y c => takeCommutator y b c.2 (reportedCommutator f.payload c.1)) counted
    let tapped := (channels.filter fun c => tapperMark f.payload c.1).foldl (fun y c => localStroke y b c.2) turned
    exec (.instrReport dt f) s = .next (finish (s.advance dt)
      (if acknowledgeMark f.payload then
        { tapped with lamps := if s.part = .running ∨ s.part = .tripped then
            s.lamps.map fun p => (p.1, { p.2 with alarm := match p.2.alarm with
              | .alarm => .accepted | .recovered => .quiet | a => a })
          else s.lamps }
       else tapped))

/-- A stroke reaching a recogniser (R122): from IDLE it begins a code; in COLLECTING a gap below Tg adds to the last group and
any other begins a new one; a tenth stroke of a group and a fifth group set the invalid flag instead; the last stroke and the end
timer are always set. That no count changes once the flag is set, where the example of 8.10 counts on, is the model's reading of
R122 (log entry 43), and so is that a dropped stroke in COLLECTING changes none. -/
def Obligations.RecogniserTakesAStroke : Prop :=
  ∀ (t : Timing) (now : Time) (dropped : Bool) (r : Recogniser),
    let x := recogniserTakes t now dropped r
    x.collecting = true ∧ x.last = some now ∧ x.endTimer = some (now.plus t.te.toNat) ∧
    (r.collecting = false → x.groups = [1] ∧ x.invalid = dropped) ∧
    (r.collecting = true → r.invalid = true ∨ dropped = true → x.groups = r.groups ∧ x.invalid = true) ∧
    ∀ before n last, r.collecting = true → r.invalid = false → dropped = false → r.groups = before ++ [n] →
      r.last = some last →
      let gap := (now - last).toNat
      (gap < t.tg.toNat → n < 9 → x.groups = before ++ [n + 1] ∧ x.invalid = false) ∧
      (gap < t.tg.toNat → 9 ≤ n → x.groups = r.groups ∧ x.invalid = true) ∧
      (t.tg.toNat ≤ gap → before.length < 3 → x.groups = before ++ [n, 1] ∧ x.invalid = false) ∧
      (t.tg.toNat ≤ gap → 3 ≤ before.length → x.groups = r.groups ∧ x.invalid = true)

/-- At the expiry of its end timer a recogniser becomes IDLE. An invalid code has no other effect but CODE_INVALID. A valid code,
with CODE_RECEIVED or CODE_SENT, and CODE_UNKNOWN where no entry has its pattern, of the other origin than an awaiting record's
repeats it where the patterns agree and misrepeats it with CODE_MISREPEATED where they differ; any other valid code replaces the
record as AWAITING, with CODE_UNREPEATED where it was awaiting (R123, R125, R126). An incoming OBSTRUCTION sets its line's flag,
and the repetition of a removal that they sent clears it (R128); that OBSTRUCTION_CLEARED is raised whether or not the flag stood is
the model's reading (log entry 42), and so is which entries of the code table are empty (log entry 29). -/
def Obligations.CodeCompletes : Prop :=
  ∀ (dt : Time) (n : Nat) (side : Side) (s : State) (b : Bank) (r : Recogniser) (e : Time) (y : Exchange),
    s.inReset = false → s.bank = some b → recAt (s.recognisers side) n = some r → r.endTimer = some e →
    recAt s.exchanges n = some y →
    let due := (s.advance dt).warp e
    let origin : Origin := match side with | .incoming => .theySent | .here => .weSent
    let entry := b.bells.find? fun w => !w.isEmpty && patternGroups w.pattern == r.groups
    let cls : BellClass := match entry with | some w => BellClass.ofByte w.cls | none => .unknown
    let train : Option Nat := match entry with
      | some w => if BellClass.ofByte w.cls = .offer then some w.trainClass.toNat else none
      | none => none
    let awaiting := y.origin.isSome = true ∧ (y.status = .awaiting ∨ y.status = .misrepeated)
    let replaced := fun st : ExStatus =>
      ({
        origin := some origin, pattern := r.groups, cls := some cls, trainClass := train, status := st, time := due.now,
        ackTime := none, timer := some (due.now.plus (b.timing.tr.toNat * 100)) } : Exchange)
    let repeats := awaiting ∧ y.origin ≠ some origin ∧ y.pattern = r.groups
    let line := (b.sectionEntry n).lineOf
    let clears := repeats ∧ y.origin = some .theySent ∧ y.cls = some .obstructionRemoved
    let code := patternCode r.groups
    ∃ x t new, exec (.endTimerExpiry dt n side) s = .next t ∧ Concluded x t ∧ t = finish due x ∧
      (∃ i h z oa ob v q n y p, x = { due with
        incoming := i, here := h, exchanges := z, obstructionA := oa, obstructionB := ob, events := v, outQueue := q,
        seq := n, sending := y, pendingReturns := p }) ∧
      EventsJoined due x new ∧
      ofKinds [.codeInvalid, .codeUnknown, .codeReceived, .codeSent, .codeMisrepeated, .codeUnrepeated, .obstructionSet,
          .obstructionCleared] new =
        (if r.invalid then [(EventKind.codeInvalid, n, side.code)]
         else [((match side with | .incoming => EventKind.codeReceived | .here => .codeSent), n, code)] ++
          (if entry.isNone then [(.codeUnknown, n, code)] else []) ++
          (if clears then [(.obstructionCleared, line.code, n)] else []) ++
          (if awaiting ∧ y.origin ≠ some origin ∧ y.pattern ≠ r.groups then [(.codeMisrepeated, n, code)] else []) ++
          (if awaiting ∧ y.origin = some origin then [(.codeUnrepeated, n, patternCode y.pattern)] else []) ++
          (if side = .incoming ∧ cls = .obstruction ∧ s.obstruction line = false then [(.obstructionSet, line.code, n)]
           else [])) ∧
      t.recognisers side = modifyRec (s.recognisers side) n (fun _ => {}) ∧
      (∀ other, other ≠ side → t.recognisers other = s.recognisers other) ∧
      (∀ m, m ≠ n → recAt t.exchanges m = recAt s.exchanges m) ∧
      (∀ other, other ≠ line → t.obstruction other = s.obstruction other) ∧
      (r.invalid = true → t.exchanges = s.exchanges ∧ t.obstruction line = s.obstruction line) ∧
      (r.invalid = false →
        (repeats → recAt t.exchanges n = some { y with status := .acknowledged, ackTime := some due.now, timer := none }) ∧
        (awaiting → y.origin ≠ some origin → y.pattern ≠ r.groups → recAt t.exchanges n = some (replaced .misrepeated)) ∧
        (¬ awaiting ∨ y.origin = some origin → recAt t.exchanges n = some (replaced .awaiting)) ∧
        t.obstruction line =
          (if side = .incoming ∧ cls = .obstruction then true else if clears then false else s.obstruction line))

/-! ### Block lines -/

/-- A line's characters are read by majorities: the start is confirmed by two spaces, each element is the majority of its three
samples, the least significant bit first; the noise, framing and break marks (R106, R107). The assembly takes each character:
a valid STROKE header completes a message at once, a valid INSTR or STATUS header starts one, valid data goes on with it or
completes it, and what does not fit discards and counts the message that was begun, as does a damaged header (R108, R109). -/
def Obligations.CharactersAreAssembled : Prop :=
  (∀ (x : LineSamples) (d : Fin 8 → BitVec 3), x.data = List.ofFn d →
    let mark := fun e : BitVec 3 => 2 ≤ (List.ofFn fun i : Fin 3 => e.getLsbD i).count true
    let agree := fun e : BitVec 3 => e = 0 ∨ e = 7
    let all := x.start :: x.data ++ [x.markBit, x.stop]
    (mark x.start → readCharacter x = none) ∧
    (¬ mark x.start → ∃ c, readCharacter x = some c ∧ c.value < 256 ∧
      (∀ i : Fin 8, c.value.testBit i = true ↔ mark (d i)) ∧ (c.markBit = true ↔ mark x.markBit) ∧
      (c.noise = true ↔ ∃ e ∈ all, ¬ agree e) ∧ (c.brk = true ↔ ∀ e ∈ all, ¬ mark e) ∧
      (c.framing = true ↔ ¬ mark x.stop ∧ c.brk = false))) ∧
  ∀ (r : Receiver) (c : Character),
    let sound := c.noise = false ∧ c.framing = false ∧ c.brk = false ∧ c.value / 16 + c.value % 16 = 15
    let header := sound ∧ c.markBit = true ∧ c.value % 16 ≤ 4
    let data := sound ∧ c.markBit = false ∧ 1 ≤ c.value % 16 ∧ c.value % 16 ≤ 3
    let begun := decide (r ≠ .hunt)
    let o := assemble r c
    (header → c.value % 16 ≤ 1 → o = { receiver := .hunt, discarded := begun, message := some (.stroke (c.value % 16)) }) ∧
    (header → 2 ≤ c.value % 16 → o = { receiver := .assemble (c.value % 16) [], discarded := begun, message := none }) ∧
    (¬ header → r = .hunt → o = { receiver := .hunt, discarded := c.markBit, message := none }) ∧
    (¬ header → ¬ data → ∀ h got, r = .assemble h got → o = { receiver := .hunt, discarded := true, message := none }) ∧
    (data → ∀ ch, r = .assemble (2 + ch) [] → ch ≤ 1 → o = {
      receiver := .hunt, discarded := false, message := some (.instr ch (Instrument.ofCode (c.value % 16))) }) ∧
    (data → r = .assemble 4 [] →
      o = { receiver := .assemble 4 [Instrument.ofCode (c.value % 16)], discarded := false, message := none }) ∧
    (data → ∀ x, r = .assemble 4 [x] → o = {
      receiver := .hunt, discarded := false, message := some (.status x (Instrument.ofCode (c.value % 16))) })

/-- A character on a line: nothing is read without a rate or while the receiver waits for mark; a start that is not
confirmed is passed over; a character that completes no message moves the receiver, its gap timer and the discard run; one
that completes a STROKE, wherever the receiver stood, or the last of an INSTR or a STATUS that the receiver holds, is what
STROKE_MESSAGE, INSTR_MESSAGE or STATUS_MESSAGE stands for (R105, R106, R107, R109, R110; log entries 17 and 18). -/
def Obligations.LineCharacterIsTaken : Prop :=
  ∀ (dt : Time) (l : Line) (markBefore : Bool) (x : LineSamples) (s : State), s.inReset = false →
    let now := s.now + dt
    let receiver := (s.line l).receiver
    let searching := (s.line l).settings.isSome = true ∧ (markBefore = true ∨ (s.line l).markHold = false)
    (¬ searching → exec (.lineCharacter dt l markBefore x) s = .next (s.advance dt)) ∧
    (searching → readCharacter x = none → exec (.lineCharacter dt l markBefore x) s =
      .next (modifyLine (s.advance dt) l fun r => { r with markHold := false })) ∧
    (∀ c, searching → readCharacter x = some c → (assemble receiver c).message = none →
      let o := assemble receiver c
      let run := if o.discarded then min 8 ((s.line l).discardRun + 1) else (s.line l).discardRun
      let noisy := o.discarded && run == 8 && !(s.line l).noisyReported
      let taken := modifyLine (s.advance dt) l fun r => { r with
        receiver := o.receiver, gapStart := if o.receiver = .hunt then none else some now, markHold := c.framing || c.brk,
        discardRun := run, noisyReported := (s.line l).noisyReported || (o.discarded && run == 8) }
      exec (.lineCharacter dt l markBefore x) s = .next (arbiters (if noisy then raise taken .linkNoisy l.code 0 else taken))) ∧
    (∀ ch : Fin 2, searching → readCharacter x = some (soundCharacter ch true) →
      exec (.lineCharacter dt l markBefore x) s = exec (.strokeMessage dt l ch) s) ∧
    (∀ (ch : Fin 2) (far : Instrument), searching → far ≠ .unknown → receiver = .assemble (2 + ch) [] →
      readCharacter x = some (soundCharacter far.code false) →
      exec (.lineCharacter dt l markBefore x) s = exec (.instrMessage dt l ch far) s) ∧
    ∀ far0 far1 : Instrument, searching → far1 ≠ .unknown → receiver = .assemble 4 [far0] →
      readCharacter x = some (soundCharacter far1.code false) →
      exec (.lineCharacter dt l markBefore x) s = exec (.statusMessage dt l far0 far1) s

/-- The link rule. A valid message clears the discard run and its report; while UP it restarts the link timer; while DOWN it
sets the first-heard time where that is absent or one timeout or more ago, and else brings the link UP with LINK_UP (R110,
R112). At the link timer's expiry the link goes DOWN with LINK_DOWN, its strokes are dropped, each with STROKE_DROPPED, its
sections' far states are lost, and the codes being collected on it become invalid (R112, R113, R124, R134). That LINK_DOWN comes
before the STROKE_DROPPED events, and these oldest first, is the model's choice (log entry 4); the expiry is taken at its time (log
entry 2). -/
def Obligations.LinkRule : Prop :=
  (∀ (s : State) (l : Line) (x : LineSettings), (s.line l).settings = some x →
    let r := s.line l
    let timeout := x.linkTimeout.toNat * 100
    let clean : LineRec := { r with discardRun := 0, noisyReported := false }
    (r.link = .up → linkHeard s l = modifyLine s l fun _ => { clean with linkTimer := some (s.now.plus timeout) }) ∧
    (r.link = .down → r.firstHeard = none → linkHeard s l = modifyLine s l fun _ => { clean with firstHeard := some s.now }) ∧
    (∀ t, r.link = .down → r.firstHeard = some t → timeout ≤ (s.now - t).toNat →
      linkHeard s l = modifyLine s l fun _ => { clean with firstHeard := some s.now }) ∧
    (∀ t, r.link = .down → r.firstHeard = some t → (s.now - t).toNat < timeout →
      linkHeard s l = raise (modifyLine s l fun _ =>
        { clean with link := .up, firstHeard := none, linkTimer := some (s.now.plus timeout) }) .linkUp l.code 0)) ∧
  ∀ (dt : Time) (l : Line) (s : State) (b : Bank) (e : Time), s.inReset = false → s.bank = some b →
    (s.line l).linkTimer = some e →
    let due := (s.advance dt).warp e
    let strokes := (s.line l).queue.filterMap fun m => match m with | .stroke c => some c | _ => none
    let down := modifyLine due l fun r => { r with
      link := .down, linkTimer := none, firstHeard := none,
      queue := (s.line l).queue.filter fun m => match m with | .stroke _ => false | _ => true }
    let told := raiseAll down ((.linkDown, l.code, 0) :: strokes.map fun c => (.strokeDropped, l.code, c))
    let invalid := fun rs : Recs Recogniser => rs.map fun p =>
      if (b.sectionEntry p.1).lineOf = l ∧ p.2.collecting = true then (p.1, { p.2 with invalid := true }) else p
    let x : State := { told with
      sections := s.sections.map fun p =>
        if (b.sectionEntry p.1).lineOf = l then (p.1, { p.2 with far := .unknown }) else p,
      incoming := invalid s.incoming, here := invalid s.here }
    exec (.linkTimerExpiry dt l) s = .next (finish due x) ∧
    EventsJoined due x ((.linkDown, l.code, 0) :: strokes.map fun c => (.strokeDropped, l.code, c)) ∧
    (∀ c, LineMsg.stroke c ∉ ((finish due x).line l).queue) ∧ ((finish due x).line l).link = .down

/-- A valid STROKE of a channel on a line that has its rate: the link rule is applied; the section bound to the channel has
its bell rung and its incoming recogniser take the stroke; on a channel with no section STROKE_UNASSIGNED is raised (R111,
R119, R120, R122). On a line without its rate nothing is received (R105). -/
def Obligations.StrokeMessageIsTaken : Prop :=
  ∀ (dt : Time) (l : Line) (ch : Fin 2) (s : State), s.inReset = false →
    let now := s.now + dt
    let quiet : State := modifyLine (s.advance dt) l fun r => { r with markHold := false }
    let heard := linkHeard quiet l
    ((s.line l).settings = none → exec (.strokeMessage dt l ch) s = .next (finish (s.advance dt) (s.advance dt))) ∧
    ((s.line l).settings.isSome = true → (s.line l).receiver = .hunt → (s.line l).gapStart = none →
      (∀ b n a c, s.bank = some b → b.sectionAt l ch = some n → b.assignment .iu n = some (a, c) →
        let ring : OutFrame := { kind := .bellRing, dest := a, payload := [b1 c, 1] }
        let rung := place heard ring
        exec (.strokeMessage dt l ch) s = .next (finish (s.advance dt)
          { rung with incoming := modifyRec s.incoming n (recogniserTakes b.timing now false) }) ∧
        (s.outQueue.length + 1 < 24 → OnItsWay heard rung ring)) ∧
      (∀ b, s.bank = some b → b.sectionAt l ch = none → exec (.strokeMessage dt l ch) s =
        .next (finish (s.advance dt) (raise heard .strokeUnassigned l.code ch)))) ∧
    ((s.line l).settings.isSome = true → ∃ t, exec (.strokeMessage dt l ch) s = .next t ∧
      (t.line l).receiver = .hunt ∧ (t.line l).gapStart = none ∧ (t.line l).discardRun = 0 ∧
      (t.line l).noisyReported = false ∧ t.here = s.here ∧ t.sections = s.sections ∧ t.exchanges = s.exchanges)

/-- A valid INSTR or STATUS on a line that has its rate: the link rule is applied, and while the link is then UP each far state
carried for a channel with a section is taken. A far BLOCKED or ON_LINE ends consumption; a far CLEAR that meets an own CLEAR
of a SINGLE section is held by the senior end, with CONFLICT_HELD, and makes the junior end BLOCKED, with CONFLICT_WITHDRAWN
(R111, R134, R135, R140, R143); of a STATUS channel 0's event comes first (log entry 4). -/
def Obligations.FarStatesAreTaken : Prop :=
  ∀ (dt : Time) (l : Line) (s : State) (b : Bank) (x : LineSettings), s.inReset = false → s.bank = some b →
    (s.line l).settings = some x →
    let now := s.now + dt
    let r := s.line l
    let up := r.link = .up ∨ ∃ t, r.firstHeard = some t ∧ (now - t).toNat < x.linkTimeout.toNat * 100
    let taken := fun (n : Nat) (far : Instrument) (r : SectionRec) =>
      if r.far = far then r
      else
        let e := b.sectionEntry n
        let withdraws := e.dir = .single ∧ r.own = .clear ∧ far = .clear ∧ e.senior ≠ 1
        { r with far := far, consumed := r.consumed && !decide (far = .blocked ∨ far = .onLine),
                 own := if withdraws then .blocked else r.own,
                 disagreement := if withdraws then !decide (r.commutator = .unknown ∨ r.commutator = .blocked)
                   else r.disagreement }
    let received := fun t : State => (t.line l).receiver = .hunt ∧ (t.line l).gapStart = none ∧
      (t.line l).discardRun = 0 ∧ (t.line l).noisyReported = false ∧ ((t.line l).link = .up ↔ up) ∧ t.incoming = s.incoming ∧
      t.here = s.here ∧ t.exchanges = s.exchanges ∧ t.tracks = s.tracks
    let conflict := fun (ch : Fin 2) (far : Instrument) =>
      match b.sectionAt l ch with
      | some n =>
        match recAt s.sections n with
        | some y =>
          if up ∧ y.far ≠ .clear ∧ far = .clear ∧ (b.sectionEntry n).dir = .single ∧ y.own = .clear then
            [((if (b.sectionEntry n).senior = 1 then EventKind.conflictHeld else .conflictWithdrawn), n, 0)]
          else []
        | none => []
      | none => []
    (∀ (ch : Fin 2) (far : Instrument), far ≠ .unknown → ∃ t new, exec (.instrMessage dt l ch far) s = .next t ∧ received t ∧
      EventsJoined (s.advance dt) t new ∧ ofKinds [.conflictHeld, .conflictWithdrawn] new = conflict ch far ∧
      ∀ n y, recAt s.sections n = some y →
        recAt t.sections n = some (if up ∧ b.sectionAt l ch = some n then taken n far y else y)) ∧
    ∀ far0 far1 : Instrument, far0 ≠ .unknown → far1 ≠ .unknown →
      ∃ t new, exec (.statusMessage dt l far0 far1) s = .next t ∧ received t ∧ EventsJoined (s.advance dt) t new ∧
      ofKinds [.conflictHeld, .conflictWithdrawn] new = conflict 0 far0 ++ conflict 1 far1 ∧
      ∀ n y, recAt s.sections n = some y → recAt t.sections n = some
        (if up ∧ b.sectionAt l 0 = some n then taken n far0 y
         else if up ∧ b.sectionAt l 1 = some n then taken n far1 y else y)

/-- A line's transmit queue. Its arbiter: a free transmitter, its start sequence idle, takes the oldest STROKE, else the oldest
INSTR, else the oldest of the rest (R114). A message joins it: an INSTR of the channel, or the STATUS, that stands there is
replaced in place; a stroke is dropped while the link is DOWN; a queue of 16 drops a stroke, or has its youngest stroke
displaced; each stroke dropped raises STROKE_DROPPED (R113). -/
def Obligations.LineQueue : Prop :=
  (∀ r : LineRec,
    (r.settings = none ∨ r.sending.isSome = true ∨ r.startSeq ≠ .idle ∨ r.queue = [] → r.arbiter = r) ∧
    (r.settings.isSome = true → r.sending = none → r.startSeq = .idle → r.queue ≠ [] →
      ∃ older m younger, r.queue = older ++ m :: younger ∧
        r.arbiter = { r with queue := older ++ younger, sending := some m } ∧
        let rank := fun w : LineMsg => match w with | .stroke _ => 1 | .instr _ _ => 2 | .status _ _ => 3
        (∀ w ∈ older, rank m < rank w) ∧ ∀ w ∈ younger, rank m ≤ rank w)) ∧
  ∀ (s : State) (l : Line),
    let r := s.line l
    let queued := fun q => modifyLine s l fun r => { r with queue := q }
    (∀ c, (r.link = .up → r.queue.length < 16 → placeLine s l (.stroke c) = queued (r.queue ++ [.stroke c])) ∧
      (r.link = .down ∨ 16 ≤ r.queue.length → placeLine s l (.stroke c) = raise s .strokeDropped l.code c)) ∧
    ∀ m, (∃ c x, m = .instr c x) ∨ (∃ x y, m = .status x y) →
      let stands := fun w : LineMsg => match m, w with
        | .instr c _, .instr d _ => c = d
        | .status _ _, .status _ _ => True
        | _, _ => False
      (∀ older w younger, r.queue = older ++ w :: younger → stands w → (∀ v ∈ older ++ younger, ¬ stands v) →
        placeLine s l m = queued (older ++ m :: younger)) ∧
      ((∀ w ∈ r.queue, ¬ stands w) → r.queue.length < 16 → placeLine s l m = queued (r.queue ++ [m])) ∧
      ∀ older c younger, (∀ w ∈ r.queue, ¬ stands w) → 16 ≤ r.queue.length → r.queue = older ++ .stroke c :: younger →
        (∀ d, LineMsg.stroke d ∉ younger) →
        placeLine s l m = raise (queued (older ++ younger ++ [m])) .strokeDropped l.code c

/-- The transmitter of a line: when a message has left, the arbiter applies; the break of a start sequence is followed by its
idle time, at whose end the arbiter applies (R114, R116). The gap timer's expiry discards and counts the partial message
(R109, R110; log entry 19). The status timer's expiry places a STATUS with the present own states and restarts it (R115). -/
def Obligations.LineTransmitterAndTimers : Prop :=
  ∀ (dt : Time) (l : Line) (s : State), s.inReset = false →
    let made := fun (z : State) (g : LineRec → LineRec) => modifyLine z l g
    ((s.line l).sending.isSome = true →
      exec (.lineMessageSent dt l) s = .next (arbiters (made (s.advance dt) fun r => { r with sending := none }))) ∧
    ((s.line l).sending = none → exec (.lineMessageSent dt l) s = .next (s.advance dt)) ∧
    ((s.line l).startSeq = .sendingBreak →
      exec (.sendingBreakEnd dt l) s = .next (made (s.advance dt) fun r => { r with startSeq := .sendingIdle })) ∧
    ((s.line l).startSeq ≠ .sendingBreak → exec (.sendingBreakEnd dt l) s = .next (s.advance dt)) ∧
    ((s.line l).startSeq = .sendingIdle →
      exec (.sendingIdleEnd dt l) s = .next (arbiters (made (s.advance dt) fun r => { r with startSeq := .idle }))) ∧
    ((s.line l).startSeq ≠ .sendingIdle → exec (.sendingIdleEnd dt l) s = .next (s.advance dt)) ∧
    (∀ e x, (s.line l).gapStart = some e → (s.line l).settings = some x →
      let due := (s.advance dt).warp (e.plus (2200 / x.rate.toNat))
      let run := min 8 ((s.line l).discardRun + 1)
      let noisy := run == 8 && !(s.line l).noisyReported
      let hunting := made due fun r =>
        { r with receiver := .hunt, gapStart := none, discardRun := run, noisyReported := r.noisyReported || noisy }
      exec (.gapTimerExpiry dt l) s =
        .next (arbiters (if noisy then raise hunting .linkNoisy l.code 0 else hunting))) ∧
    (∀ e x b, (s.line l).statusTimer = some e → (s.line l).settings = some x → s.bank = some b →
      let due := (s.advance dt).warp e
      let own := fun ch => match b.sectionAt l ch with
        | some n => match recAt s.sections n with | some r => r.own | none => .blocked
        | none => .blocked
      exec (.statusTimerExpiry dt l) s = .next (arbiters (placeLine
        (made due fun r => { r with statusTimer := some (due.now.plus (x.statusInterval.toNat * 10)) }) l
        (.status (own 0) (own 1)))))

/-! ### Maintenance requests -/

/-- Where a request goes. From a source that the handler does not take requests from, or from a terminal in MISMATCH, it
raises FOREIGN_REQUEST and is discarded; a faulty form is answered BAD_REQUEST; while SWITCHING all but READ_RECORD and
READ_EVENTS are refused with BUSY; the request of a SILENT terminal also puts it into PROBING. Each handled request's source
is the last requester (R31, R36, R161, R179). -/
def Obligations.RequestsAreAdmitted : Prop :=
  ∀ (dt : Time) (k : Bool) (f : RequestFrame) (s : State) (code : Byte) (key : Option Bool) (c : Instr),
    (code, key, c) ∈ requestsOf dt k f →
    let src := srcOf (requestFrame code f)
    let heard := loopHeard ((s.advance dt).sampled key)
    (∀ b, s.inReset = false → wfFromUnit 14 (requestFrame code f) = true → s.bank = some b →
      (b.kindAt src ≠ .mt ∧ b.kindAt src ≠ .none) ∨
        (b.kindAt src = .mt ∧ ∃ u, recAt s.units src = some u ∧ u.state = .mismatch) →
      exec c s = .next (arbiters (raise heard .foreignRequest src code.toNat))) ∧
    (Requested s code f → readRequest code.toNat f.params = none →
      exec c s = .next (arbiters (place (heardRequest s dt key code f) (replyTo code f 2 0 [])))) ∧
    (Requested s code f → wfRequest code f = true → s.part = .switching → code ≠ 1 → code ≠ 12 →
      exec c s = .next (arbiters (place (heardRequest s dt key code f) (replyTo code f 1 1 [])))) ∧
    (∀ b u, s.inReset = false → wfFromUnit 14 (requestFrame code f) = true → s.bank = some b → b.kindAt src = .mt →
      recAt s.units src = some u → u.state = .silent → ∃ t v, exec c s = .next t ∧ recAt t.units src = some v ∧
        (v.state = .probing ∨ v.state = .absent) ∧ t.lastRequester = some src) ∧
    ∀ g : Frame, (s.active = none ∨ ∃ b, s.bank = some b ∧ b.kindAt (srcOf g) = .mt ∧
        ∀ u, recAt s.units (srcOf g) = some u → u.state ≠ .mismatch ∧ u.state ≠ .silent) →
      s.inReset = false → wfBadRequest g = true →
      exec (.badRequest dt g) s = .next (arbiters (place { loopHeard (s.advance dt) with lastRequester := some (srcOf g) }
        { kind := .maintReply, dest := srcOf g, payload := [byteAt g.payload 0, byteAt g.payload 1, 2, 0] }))

/-- READ_RECORD answers the record of its class and index behind its marker, cut into frames of 20 bytes that are numbered
from 0, and changes nothing; READ_EVENTS takes the oldest entries off the event queue and answers them, two a frame, only
the last frame marked (R162, R178, R179, R181). Both are answered in every part state. -/
def Obligations.RecordsAndEventsAreRead : Prop :=
  ∀ (dt : Time) (f : RequestFrame) (s : State),
    (∀ c i, Requested s 1 f → readRequest 1 f.params = some (.readRecord c i) →
      let h := heardRequest s dt none 1 f
      let m := readRecord h c i
      let results : List Byte := b1 m.1.code :: m.2
      let frame := fun (k : Nat) (bs : List Byte) => replyTo 1 f 0 k bs
      exec (.readRecord dt f) s = .next (arbiters (placeAll h
        (if results.length ≤ 20 then [frame 0 results]
         else if results.length ≤ 40 then [frame 0 (results.take 20), frame 1 (results.drop 20)]
         else [frame 0 (results.take 20), frame 1 ((results.drop 20).take 20), frame 2 (results.drop 40)])))) ∧
    (∀ n, Requested s 12 f → readRequest 12 f.params = some (.readEvents n) →
      let h := heardRequest s dt none 12 f
      ∃ fs : List (List Byte), exec (.readEvents dt f) s = .next (arbiters (placeAll { h with events := h.events.drop n }
          (fs.map fun bs => replyTo 12 f 0 0 bs))) ∧
        (fs.flatMap fun bs => bs.drop 1) = (h.events.take n).flatMap eventBytes ∧
        fs.length = max 1 (((h.events.take n).length + 1) / 2) ∧
        ∀ i bs, fs[i]? = some bs → ∃ x, bs.head? = some x ∧ (x.getLsbD 7 = true ↔ i + 1 = fs.length) ∧
          x.toNat % 128 = min 2 ((h.events.take n).length - 2 * i))

/-- What a record reads as: an object without a record, and an active-bank class without a bank, as zeros with the undefined
marker; the records of tracks, levers, sections, lamps and outputs as STALE while their unit is not ACTIVE; every other as
CURRENT; each of the length of its class (R162, 13.1; that a UNIT record shows 16 fault bytes for every kind is log entry 20, and
the length of the check state log entry 21). The premises say that the lists have the places of the layouts. -/
def Obligations.RecordsAreMarked : Prop :=
  ∀ (s : State) (c : RecordClass) (i : Nat), c.indexOk i = true → (∀ b, s.bank = some b → b.wf = true) →
    (∀ a u, recAt s.units a = some u → u.faults.length = 16) →
    let m := readRecord s c i
    let kept := fun (k : UnitKind) (there : Bool) =>
      let served := ∃ b a ch, s.bank = some b ∧ b.assignment k i = some (a, ch) ∧ s.unitActive a = true
      (there = true → (served → m.1 = .current) ∧ (¬ served → m.1 = .stale)) ∧
      (there = false → m.1 = .undefined ∧ m.2 = List.replicate (recordLength c) 0)
    let plain := fun there : Bool => (there = true → m.1 = .current) ∧
      (there = false → m.1 = .undefined ∧ m.2 = List.replicate (recordLength c) 0)
    m.2.length = recordLength c ∧
    match c with
    | .track => kept .tu (recAt s.tracks i).isSome
    | .lever => kept .lfu (recAt s.levers i).isSome
    | .sectionRec => kept .iu (recAt s.sections i).isSome
    | .lamp => kept .lu (recAt s.lamps i).isSome
    | .output => kept .du (recAt s.outputs i).isSome
    | .unit => plain (recAt s.units i).isSome
    | .exchange => plain (recAt s.exchanges i).isSome
    | .line | .bankState | .trip => m.1 = .current
    | _ => plain s.active.isSome

/-- LOAD_TABLE writes one entry of the shadow bank as given, or its edition, and makes the check state UNCHECKED; a class that
is no table is refused with READ_ONLY. COPY_BANK copies the active bank, or is refused with STATE. CHECK_BANK keeps and
answers what the checks find. None of them touches the active bank or a record of a block (R163, R164). -/
def Obligations.ShadowBankIsEdited : Prop :=
  ∀ (dt : Time) (f : RequestFrame) (s : State), s.part ≠ .switching →
    (Requested s 2 f →
      let h := heardRequest s dt none 2 f
      (∀ c i bs b, readRequest 2 f.params = some (.loadTable c i bs) → s.shadow.loadEntry c i bs = some b →
        exec (.loadTable dt f) s =
          .next (arbiters (place { h with shadow := b, check := .unchecked } (replyTo 2 f 0 0 [])))) ∧
      (∀ c i bs, readRequest 2 f.params = some (.loadTable c i bs) → c.code ≤ 10 →
        exec (.loadTable dt f) s = .next (arbiters (place h (replyTo 2 f 1 2 [])))) ∧
      ∀ e, readRequest 2 f.params = some (.loadEdition e) →
        exec (.loadTable dt f) s = .next (arbiters
          (place { h with shadow := { s.shadow with edition := e }, check := .unchecked } (replyTo 2 f 0 0 [])))) ∧
    (Requested s 3 f →
      let h := heardRequest s dt none 3 f
      (∀ b, s.bank = some b → exec (.copyBank dt f) s =
        .next (arbiters (place { h with shadow := b, check := .unchecked } (replyTo 3 f 0 0 [])))) ∧
      (s.bank = none → exec (.copyBank dt f) s = .next (arbiters (place h (replyTo 3 f 1 3 []))))) ∧
    (Requested s 4 f →
      let h := heardRequest s dt none 4 f
      (bankFault s.shadow = none → exec (.checkBank dt f) s = .next (arbiters
        (place { h with check := .passed s.shadow.crc32 } (replyTo 4 f 0 0 (1 :: be32 s.shadow.crc32))))) ∧
      ∀ e, bankFault s.shadow = some e → exec (.checkBank dt f) s = .next (arbiters
        (place { h with check := .failed e }
          (replyTo 4 f 0 0 ([2, b1 e.error.code, b1 e.table.code] ++ b2 e.entry ++ b2 e.second)))))

/-- A bank that passes CHECK_BANK has exactly one terminal, serves no object of a unit kind twice, gives every defined track
thresholds in order, has Te above Tg, leaves the normal list of every SIGNAL lever empty, and its locking is reciprocal
(R19, R37, R102, R103, R118, R164). -/
def Obligations.CheckedBankIsSound : Prop :=
  ∀ b : Bank, bankFault b = none →
    TracksChecked b ∧ (addresses.filter fun a => b.kindAt a = .mt).length = 1 ∧ b.timing.tg.toNat < b.timing.te.toNat ∧
    (∀ a c a' c' n, b.kindAt a = b.kindAt a' → a ∈ addresses → a' ∈ addresses → (c, n) ∈ b.assignedChannels a →
      (c', n) ∈ b.assignedChannels a' → a = a' ∧ c = c') ∧
    (∀ t, b.defined .tu t = true → 1 ≤ (b.trackEntry t).fmin.toNat ∧ (b.trackEntry t).k.toNat ≤ 4) ∧
    (∀ l, b.defined .lfu l = true → LeverKind.ofByte (b.leverEntry l).kind = .signal →
      (b.leverEntry l).normalList.count = 0) ∧
    ∀ l, b.defined .lfu l = true → ∀ p ∈ b.covered (b.leverEntry l).reverseList, p.2.kind = 1 →
      b.defined .lfu p.2.object.toNat = true ∧
      ∃ q ∈ b.covered (b.leverEntry p.2.object.toNat).reverseList, q.2.kind = 1 ∧ q.2.object.toNat = l

/-- SWITCH_BANK is judged by its tests in their order and refused at the first that fails; where every test passes the part
enters SWITCHING, every lock is LOCKED, and the store of the shadow bank with its checked CRC begins (R165, R166, R73). -/
def Obligations.SwitchBankIsJudged : Prop :=
  ∀ (dt : Time) (key : Bool) (f : RequestFrame) (s : State), Requested s 5 f → s.part ≠ .switching →
    let h := heardRequest s dt (some key) 5 f
    let out := exec (.switchBank dt key f) s
    let refused := fun n : Nat => out = .next (arbiters (place h (replyTo 5 f 1 n [])))
    let inUse := fun p : Nat × SectionRec =>
      (∀ b, s.bank = some b → (b.sectionEntry p.1).dir ≠ .outbound) ∧ p.2.own ≠ .blocked
    (s.part ≠ .running → s.part ≠ .unconfigured → refused 3) ∧
    (s.part = .running ∨ s.part = .unconfigured →
      (key = false → refused 4) ∧
      (key = true → (∀ crc, s.check ≠ .passed crc) → refused 5) ∧
      ∀ crc, key = true → s.check = .passed crc →
        let atRest := ∀ p ∈ s.levers, p.2.position = .normal ∧ p.2.catchUp = false
        let unforced := ∀ p ∈ s.levers, p.2.violation = false
        let free := ∀ p ∈ s.sections, ¬ inUse p
        let unlocked := ∀ p ∈ s.levers, p.2.approach = none
        (¬ atRest → refused 6) ∧ (atRest → ¬ unforced → refused 7) ∧ (atRest → unforced → ¬ free → refused 8) ∧
        (atRest → unforced → free → ¬ unlocked → refused 9) ∧
        (atRest → unforced → free → unlocked → ∃ t, out = .next t ∧
          t = finish ((s.advance dt).sampled (some key))
            (place { h with part := .switching, storeOp := some { bank := s.shadow, crc := crc } } (replyTo 5 f 0 0 [])) ∧
          t.part = .switching ∧ t.storeOp = some { bank := s.shadow, crc := crc } ∧ t.active = s.active ∧
          (s.active.isSome = true → ∀ p ∈ t.levers, p.2.lock = .locked)))

/-- RESTORE_TRACK takes a SUSPECT track to CLEAR where its TU is ACTIVE and its filtered value at or above P, to OCCUPIED where
it is below, and to FAILED with cause UNIT where the TU is not ACTIVE, with TRACK_RESTORED and no other event, and is answered;
sections and approach locks follow the change (R53, R84, R135, R141). Any other track is refused with NOT_SUSPECT (R65, R161). -/
def Obligations.RestoreTrackIsJudged : Prop :=
  ∀ (dt : Time) (f : RequestFrame) (s : State) (n : Nat), Requested s 6 f → s.part ≠ .switching →
    readRequest 6 f.params = some (.restoreTrack n) →
    let h := heardRequest s dt none 6 f
    ((∀ r, recAt s.tracks n = some r → r.state ≠ .suspect) ∨ s.bank = none →
      exec (.restoreTrack dt f) s = .next (arbiters (place h (replyTo 6 f 1 10 [])))) ∧
    ∀ b r, s.bank = some b → recAt s.tracks n = some r → r.state = .suspect →
      let served := ∃ a c, b.assignment .tu n = some (a, c) ∧ s.unitActive a = true
      let p := (b.trackEntry n).p.toNat
      ∃ x r', exec (.restoreTrack dt f) s = .next (finish (s.advance dt) (place x (replyTo 6 f 0 0 []))) ∧
        (∃ ts ls ns v q n y p, x = { h with
          tracks := ts, levers := ls, sections := ns, events := v, outQueue := q, seq := n, sending := y, pendingReturns := p }) ∧
        EventsJoined h x [(.trackRestored, n, r'.state.code)] ∧
        recAt (finish (s.advance dt) (place x (replyTo 6 f 0 0 []))).tracks n = some r' ∧
        (served → p ≤ r.s → r' = { r with state := .clear, provedOnce := true, unexpected := false, exitSeen := false }) ∧
        (served → r.s < p → r' = { r with state := .occupied, exitSeen := false }) ∧
        (¬ served → r' = { r with state := .failed, cause := some .unit }) ∧
        (∀ m y, m ≠ n → recAt s.tracks m = some y → recAt x.tracks m = some y) ∧
        ReadersFollow b [onePass s.tracks x.tracks] s (finish (s.advance dt) (place x (replyTo 6 f 0 0 [])))

/-- The requests that need KEY: CLEAR_VIOLATION clears the flag of a lever at NORMAL (R82), BLOCK_RELEASE proves a section that
is ON_LINE (R142), and RESTART is answered DONE, its reply leading to the restart reset (R172); each is refused, in the order
of its tests, otherwise. -/
def Obligations.KeyedRequestsAreJudged : Prop :=
  ∀ (dt : Time) (key : Bool) (f : RequestFrame) (s : State), s.part ≠ .switching →
    let old := (s.advance dt).sampled (some key)
    (∀ n, Requested s 7 f → readRequest 7 f.params = some (.clearViolation n) →
      let h := heardRequest s dt (some key) 7 f
      let out := exec (.clearViolation dt key f) s
      (key = false → out = .next (arbiters (place h (replyTo 7 f 1 4 [])))) ∧
      (key = true → (∀ l, recAt s.levers n = some l → l.position ≠ .normal) →
        out = .next (arbiters (place h (replyTo 7 f 1 11 [])))) ∧
      ∀ l, key = true → recAt s.levers n = some l → l.position = .normal →
        let t := finish old (place
          (if l.violation then
            raise { h with levers := modifyRec s.levers n fun l => { l with violation := false } } .violationCleared n 0
           else h) (replyTo 7 f 0 0 []))
        out = .next t ∧ ∃ l', recAt t.levers n = some l' ∧ l'.violation = false ∧ l'.position = .normal) ∧
    (∀ n, Requested s 8 f → readRequest 8 f.params = some (.blockRelease n) →
      let h := heardRequest s dt (some key) 8 f
      let out := exec (.blockRelease dt key f) s
      (key = false → out = .next (arbiters (place h (replyTo 8 f 1 4 [])))) ∧
      (key = true → (∀ r, recAt s.sections n = some r → r.own ≠ .onLine) →
        out = .next (arbiters (place h (replyTo 8 f 1 12 [])))) ∧
      ∀ r, key = true → recAt s.sections n = some r → r.own = .onLine →
        let t := finish old (place
          (if r.progress = .proven then h
           else raise { h with sections := modifyRec s.sections n fun r => { r with progress := .proven } }
             .blockReleased n r.progress.code) (replyTo 8 f 0 0 []))
        out = .next t ∧ recAt t.sections n = some { r with progress := .proven }) ∧
    (Requested s 13 f → readRequest 13 f.params = some .restart →
      let h := heardRequest s dt (some key) 13 f
      (key = false → exec (.restart dt key f) s = .next (arbiters (place h (replyTo 13 f 1 4 [])))) ∧
      (key = true → exec (.restart dt key f) s =
        .next (arbiters (place h { replyTo 13 f 0 0 [] with restart := true }))))

/-- The requests that need no KEY: ACK_ALARMS acknowledges every alarm while they are judged (R151); SET_GROUP_INTENSITY sets a
group's live intensity, at most 15, and answers it, or is refused with STATE (R156, R171); REPROBE_UNIT puts a unit into
PROBING with a probe, its count 0 and its timers idle, with UNIT_STATE where its state changes, the objects of an ACTIVE one
falling and their readers following (R53), or is refused with UNDEFINED (R22, R26, R32, R34, R171). Each is answered (R161). That
the notice of UNIT_STATE joins the outbound queue before the probe, and the reply after both, is the model's choice (log entry
4). -/
def Obligations.UnkeyedRequestsAreJudged : Prop :=
  ∀ (dt : Time) (f : RequestFrame) (s : State), s.part ≠ .switching →
    let done := fun (y : State) (code : Byte) (results : List Byte) =>
      (.next (finish (s.advance dt) (place y (replyTo code f 0 0 results))) : Host.Outcome State Fault Refusal)
    (Requested s 9 f → readRequest 9 f.params = some .ackAlarms →
      exec (.ackAlarms dt f) s = done
        { heardRequest s dt none 9 f with
          lamps := if s.part = .running ∨ s.part = .tripped then
              s.lamps.map fun p => (p.1, { p.2 with alarm := match p.2.alarm with
                | .alarm => .accepted | .recovered => .quiet | a => a })
            else s.lamps } 9 []) ∧
    (∀ g v, Requested s 10 f → readRequest 10 f.params = some (.setGroup g v) →
      let h := heardRequest s dt none 10 f
      (s.bank = none → exec (.setGroupIntensity dt f) s = .next (arbiters (place h (replyTo 10 f 1 3 [])))) ∧
      (s.bank.isSome = true → g = 0 → exec (.setGroupIntensity dt f) s = done h 10 [15]) ∧
      (s.bank.isSome = true → 0 < g → g ≤ s.groupLive.length → exec (.setGroupIntensity dt f) s =
        done { h with groupLive := s.groupLive.set (g - 1) (min v 15) } 10 [BitVec.ofNat 8 (min v 15)])) ∧
    ∀ a, Requested s 11 f → readRequest 11 f.params = some (.reprobe a) →
      let h := heardRequest s dt none 11 f
      (s.bank = none ∨ (∃ b, s.bank = some b ∧ b.kindAt a = .none) →
        exec (.reprobeUnit dt f) s = .next (arbiters (place h (replyTo 11 f 1 13 [])))) ∧
      ∀ b u, s.bank = some b → b.kindAt a ≠ .none → recAt s.units a = some u →
        let reset : State := { h with units := modifyRec s.units a fun v =>
          { v with state := .probing, probeCount := 0, probeWindow := none, reprobe := none, report := none } }
        let told := if u.state = .probing then reset
          else raise reset .unitState a (u.state.code * 256 + UnitState.probing.code)
        let probe : OutFrame := { kind := .identProbe, dest := a }
        let probed := place told probe
        exec (.reprobeUnit dt f) s = done (if u.state = .active then unitObjectsLost b a probed else probed) 11 [] ∧
        (s.outQueue.length + 2 < 24 → OnItsWay told probed probe ∧ ∃ w, recAt probed.units a = some { u with
          state := .probing, probeCount := 0, probeWindow := w, reprobe := none, report := none }) ∧
        (u.state = .active →
          let t := finish (s.advance dt) (place (unitObjectsLost b a probed) (replyTo 11 f 0 0 []))
          ObjectsFell b a s t ∧ ReadersFollow b [onePass s.tracks t.tracks] s t)

/-! ### Start, switches and part states -/

/-- The start timer ends STARTING: the part enters RUNNING and every alarm is brought into agreement with its lamp, with
LAMP_FAULT and LAMP_RECOVERED by lamp number (log entry 4), and then START is raised (R152, R173). In any other state it does
nothing. -/
def Obligations.StartTimerEndsStarting : Prop :=
  ∀ (dt : Time) (s : State) (e : Time), s.inReset = false → s.startTimer = some e →
    let due := (s.advance dt).warp e
    (s.part ≠ .starting → exec (.startTimerExpiry dt) s = .next (s.advance dt)) ∧
    (s.part = .starting → ∃ x new, exec (.startTimerExpiry dt) s = .next (finish due x) ∧
      (∃ ps v q n y p, x = { due with
        part := .running, startTimer := none, lamps := ps, events := v, outQueue := q, seq := n, sending := y,
        pendingReturns := p }) ∧
      (finish due x).part = .running ∧ EventsJoined due x new ∧
      new = (s.lamps.filterMap fun p => match p.2.state, p.2.alarm with
          | .lit, .alarm => some (EventKind.lampRecovered, p.1, Alarm.recovered.code)
          | .lit, .accepted => some (.lampRecovered, p.1, Alarm.quiet.code)
          | .lit, _ => none
          | x, .quiet => some (.lampFault, p.1, x.code)
          | x, .recovered => some (.lampFault, p.1, x.code)
          | _, _ => none) ++ [(.start, 0, s.resetKind.code * 256 + PartState.running.code)] ∧
      ((s.lamps.map Prod.fst).Nodup → ∀ n r, recAt s.lamps n = some r → recAt (finish due x).lamps n = some { r with
        alarm := match r.state, r.alarm with
          | .lit, .alarm => .recovered
          | .lit, .accepted => .quiet
          | .lit, a => a
          | _, .quiet => .alarm
          | _, .recovered => .alarm
          | _, a => a }))

/-- The comparison at start-up. Where the stored CRC is wrong the part goes to UNCONFIGURED with START and nothing more. Where
it agrees the bank is taken into use: every block makes its records, the lines start, the refresh timers run from their
first frames, and the start timer runs for 2 s (R173, R21, R54, R86, R116, R130, R146, R153, R156, R159). With no bank in use
there are no track records, a clause of the invariant `TracksSound`. -/
def Obligations.StartupComparison : Prop :=
  ∀ (dt : Time) (s : State), s.inReset = false →
    let b := s.stored.bank
    let now := s.now + dt
    (s.part ≠ .starting ∨ s.active.isSome = true → exec (.startupCrcCheck dt) s = .next (s.advance dt)) ∧
    (s.part = .starting → s.active = none → b.crc32 ≠ s.stored.crc →
      exec (.startupCrcCheck dt) s = .next (arbiters (raise { s.advance dt with part := .unconfigured } .start 0
        (s.resetKind.code * 256 + PartState.unconfigured.code)))) ∧
    (s.part = .starting → s.active = none → s.tracks = [] → b.crc32 = s.stored.crc →
      ∃ t, exec (.startupCrcCheck dt) s = .next t ∧ t.active = some s.stored ∧
        (t.part = .starting ∧ t.startTimer = some (now.plus 200) ∨ t.part = .running ∧ t.startTimer = none) ∧
        t.stored = s.stored ∧ t.shadow = s.shadow ∧ t.check = s.check ∧ t.loop = s.loop ∧ t.watch = s.watch ∧ t.trip = s.trip ∧
        t.lossMarks = s.lossMarks ∧
        (∀ a, (∃ u, recAt t.units a = some u ∧ (u.state = .probing ∨ u.state = .absent)) ↔ a ∈ addresses ∧ b.kindAt a ≠ .none) ∧
        (∀ n, recAt t.tracks n = if b.defined .tu n then some {} else none) ∧
        (∀ n, recAt t.levers n = if b.defined .lfu n then some {} else none) ∧
        (∀ n, recAt t.sections n = if b.defined .iu n then
            some { own := if (b.sectionEntry n).dir = .outbound then .blocked else .onLine } else none) ∧
        (∀ n, recAt t.exchanges n = if b.defined .iu n then some {} else none) ∧
        (∀ side n, recAt (t.recognisers side) n = if b.defined .iu n then some {} else none) ∧
        (∀ n, (recAt t.lamps n).map (fun r => { r with alarm := .quiet }) = if b.defined .lu n then some {} else none) ∧
        (∀ o, (recAt t.outputs o).isSome = b.defined .du o) ∧ OutputsShow t ∧
        t.groupLive = (List.range 5).map (fun i => (b.groups.getD i 0).toNat) ∧
        (∀ l, (t.line l).settings = some (b.lineSettings l) ∧ (t.line l).link = .down ∧ (t.line l).receiver = .hunt ∧
          (t.line l).startSeq = .sendingBreak ∧ (t.line l).sending = none ∧
          (t.line l).statusTimer = some (now.plus ((b.lineSettings l).statusInterval.toNat * 10))) ∧
        ∀ a ∈ addresses, recAt t.refresh a = (b.kindAt a).refreshed.map fun k => now.plus k.period)

/-- The store operation ends. With an equal read-back the storage holds the new bank: SWITCHING with every lever at NORMAL
completes the switch into RUNNING with BANK_SWITCHED, SWITCHING with a lever away holds the completion with SWITCH_HELD, and
TRIPPED leaves the bank for the next reset with BANK_STORED. With a different read-back STORE_FAIL trips the part, and what the
storage holds is a free value (R165, R168, R170, R176, R177; log entry 12). -/
def Obligations.StoreOperationEnds : Prop :=
  ∀ (dt : Time) (s : State), s.inReset = false →
    (∀ equal, s.storeOp = none → exec (.storeOperationEnd dt equal) s = .next (s.advance dt)) ∧
    ∀ img, s.storeOp = some img →
      let ended : State := { s.advance dt with stored := img, storeOp := none }
      let lost : State := { s.advance dt with
        stored := Config.storageUnknown s.freeCount, freeCount := s.freeCount + 1, storeOp := none }
      (s.part = .switching → (∀ p ∈ s.levers, p.2.position = .normal) →
        ∃ t new, exec (.storeOperationEnd dt true) s = .next t ∧ t.part = .running ∧ t.active = some img ∧ t.stored = img ∧
          t.storeOp = none ∧ t.check = .unchecked ∧ t.shadow = s.shadow ∧ t.switchHeld = false ∧ t.trip = s.trip ∧
          t.obstructionA = s.obstructionA ∧ t.obstructionB = s.obstructionB ∧ EventsJoined (s.advance dt) t new ∧
          ofKinds [.bankSwitched, .bankStored, .switchHeld] new = [(.bankSwitched, 0, img.bank.edition.toNat)]) ∧
      (∀ atNormal n l away, s.part = .switching → s.levers = atNormal ++ (n, l) :: away → l.position ≠ .normal →
        (∀ p ∈ atNormal, p.2.position = .normal) →
        exec (.storeOperationEnd dt true) s =
          .next (finish (s.advance dt) (raise { ended with switchHeld := true } .switchHeld n l.position.code))) ∧
      (s.part = .tripped → exec (.storeOperationEnd dt true) s =
        .next (finish (s.advance dt) (raise ended .bankStored 0 img.bank.edition.toNat))) ∧
      (s.part = .switching → ∃ t, exec (.storeOperationEnd dt false) s = .next t ∧
        TripTaken s t .storeFail 0 none none ∧ t.stored = lost.stored ∧ t.freeCount = lost.freeCount ∧ t.storeOp = none ∧
        t.shadow = s.shadow ∧ t.check = s.check) ∧
      (s.part = .tripped → ∃ t, exec (.storeOperationEnd dt false) s = .next t ∧
        t = finish (s.advance dt) (raise lost .tripRepeated 0 TripCause.storeFail.code) ∧ t.trip = s.trip)

/-- A switch that completes, from an old bank or out of UNCONFIGURED, keeps what the new bank does not redefine and makes the rest
afresh, as `Redefined` says (R17, R35, R55, R86, R99, R116, R131, R146, R153, R156, R159, R168, R169). So does the counted
LEVER_REPORT after which every lever stands at NORMAL, where the completion was held, on the lever records and the report timer
that the report leaves, also where it violates a lever without a trip (R168; that the completion is looked for there is log entry
39). The model's choices are that the changes of tracks are handed to the sections before a line restarts, so that they find its
old far state (log entry 4), that a line's start ends its wait for mark (log entry 47), and the order in which the changes of a
section's arrival tracks are taken (log entry 50). What a kept object's own unit loses is left aside. -/
def Obligations.SwitchRedefines : Prop :=
  (∀ (dt : Time) (s : State) (img : BankImage), s.inReset = false → s.storeOp = some img → s.part = .switching →
    (∀ p ∈ s.levers, p.2.position = .normal) →
    ∃ t, exec (.storeOperationEnd dt true) s = .next t ∧ t.part = .running ∧ t.active = some img ∧
      Redefined s.bank img.bank s t) ∧
  ∀ (dt : Time) (f : Frame) (s : State) (b : Bank) (u : UnitRec), Counted s b .lfu 8 f u →
    s.part = .switching → s.switchHeld = true →
    ((b.assignedChannels (srcOf f)).map Prod.snd).Nodup → (∀ p ∈ s.levers, leverFits p.2) →
    let violated := fun n => n ∈ (b.assignedChannels (srcOf f)).map Prod.snd ∧
      ∃ l, recAt s.levers n = some l ∧ leavesLocked l .normal = true
    (∀ c ∈ b.assignedChannels (srcOf f), reportedPosition f.payload c.1 = .normal) →
    (∀ n, violated n → (∀ m, violated m → m = n) ∧ ∀ p ∈ s.levers, p.1 ≠ n → p.2.violation = false) →
    (∀ p ∈ s.levers, p.1 ∉ (b.assignedChannels (srcOf f)).map Prod.snd → p.2.position = .normal) →
    ∃ t ls, exec (.leverReport dt f) s = .next t ∧ t.part = .running ∧ t.active = some s.stored ∧ t.stored = s.stored ∧
      t.switchHeld = false ∧ t.check = .unchecked ∧
      (∀ n l, recAt s.levers n = some l → ∃ l', recAt ls n = some l' ∧ l'.position = .normal ∧
        (l'.violation = true ↔ l.violation = true ∨ violated n)) ∧
      Redefined (some b) s.stored.bank
        { s with levers := ls, units := modifyRec s.units (srcOf f) fun v =>
            { v with report := some ((s.now + dt).plus ((b.rosterAt (srcOf f)).timeout.toNat * 10)) } } t

/-! ### The whole machine -/

/-- The part state changes by the routes of the table and by no other; TRIPPED is left only by a reset, and the trip record is
kept but for a trip's entry and for resets (R174, R175, R176, R177). -/
def Obligations.PartStateRoutes : Prop :=
  ∀ (c : Instr) (s t : State), exec c s = .next t →
    (t.part = s.part ∨ partMoves s.part t.part = true ∨ (isReset c = true ∧ t.part = .starting)) ∧
    (t.trip = s.trip ∨ (s.part ≠ .tripped ∧ t.part = .tripped) ∨ (isReset c = true ∧ t.trip = none)) ∧
    (s.part = .tripped → isReset c = false → t.part = .tripped)

/-- A section's own state becomes CLEAR only from BLOCKED, by a commutator move of an INBOUND or SINGLE section while the part
is RUNNING, the link is UP, the line is not obstructed and an acknowledged OFFER that they sent stands within its window; it
goes from ON_LINE to BLOCKED under one bank only with train-out proving PROVEN (R138, R139). The roster serves each section by
one channel (R19). -/
def Obligations.OwnStateMoves : Prop :=
  ∀ (c : Instr) (s t : State) (b : Bank) (n : Nat) (r r' : SectionRec), exec c s = .next t → s.bank = some b →
    (∀ a ∈ addresses, b.kindAt a = .iu → ((b.assignedChannels a).map Prod.snd).Nodup) →
    recAt s.sections n = some r → recAt t.sections n = some r' →
    let e := b.sectionEntry n
    (r.own ≠ .clear → r'.own = .clear →
      (∃ dt f, c = .instrReport dt f) ∧ s.part = .running ∧ r.own = .blocked ∧ e.dir ≠ .outbound ∧
      (s.line e.lineOf).link = .up ∧ s.obstruction e.lineOf = false ∧ (e.dir = .single → r.far = .blocked) ∧
      ∃ x u, HoldsCode s n .offer x ∧ x.ackTime = some u ∧ t.now.since u < e.window.toNat * 100) ∧
    (r.own = .onLine → r'.own = .blocked → t.active = s.active →
      (∃ dt f, c = .instrReport dt f) ∧ s.part = .running ∧ e.dir ≠ .outbound ∧ r.progress = .proven)

/-- No step takes a queue over its capacity (R8, R12, R113, R178). -/
def Obligations.CapacitiesAreKept : Prop :=
  ∀ s t : State, Capacities s → step s = .next t → Capacities t

/-- Every step keeps the interlocking: a lever that stands at an end is FREE exactly while its release test holds, so that one
whose test comes to hold in RUNNING is FREE after the step; a FREE stroke whose list has ceased to hold has its stroke-loss flag
set; every lock is LOCKED while the part is not RUNNING, and release states fit positions (R70, R72, R73, R79, R86, R95, R96,
R103). With a reverse list that holds LEVER_NORMAL of a lever, a FREE lever at NORMAL has that lever at NORMAL without
violation. -/
def Obligations.InterlockingIsKept : Prop :=
  (∀ s t : State, Interlocked s → step s = .next t → Interlocked t) ∧
  ∀ (s : State) (b : Bank) (n : Nat) (l : LeverRec), Interlocked s → s.bank = some b → (n, l) ∈ s.levers →
    l.position = .normal → l.lock = .free → ∀ p ∈ b.covered (b.leverEntry n).reverseList, p.2.kind = 1 →
      ∃ m, recAt s.levers p.2.object.toNat = some m ∧ m.position = .normal ∧ m.violation = false

/-- Every step keeps the records of the tracks sound, under a bank that CHECK_BANK passes: a CLEAR track has its filtered value
at or above D (R38, R45, R48). Every step keeps the records of the sections sound, keeps every alarm telling what its lamp
does while the alarms are judged, and keeps every diagram output at the mode that its source's records give (R133, R135, R141,
R150, R152, R155, R159). -/
def Obligations.RecordsAreKeptSound : Prop :=
  (∀ s t : State, TracksSound s → (∀ b, s.bank = some b → TracksChecked b) → step s = .next t → TracksSound t) ∧
  (∀ s t : State, SectionsSound s → step s = .next t → SectionsSound t) ∧
  (∀ s t : State, AlarmsTell s → step s = .next t → AlarmsTell t) ∧
  ∀ s t : State, OutputsShow s → step s = .next t → OutputsShow t

/-- The state after power-on is within the capacities, interlocked, and sound in its tracks, sections, alarms and outputs; it
holds no record, no bank and no trip, the loop is BROKEN and the part STARTING (R18, R21, R54, R86, R117, R130, R146, R153, R159,
R173, R175). -/
def Obligations.ResetStateIsSound : Prop :=
  let s := State.reset
  Capacities s ∧ Interlocked s ∧ TracksSound s ∧ SectionsSound s ∧ AlarmsTell s ∧ OutputsShow s ∧ s.part = .starting ∧
  s.now = 0 ∧ s.active = none ∧ s.units = [] ∧ s.tracks = [] ∧ s.levers = [] ∧ s.sections = [] ∧ s.lamps = [] ∧
  s.exchanges = [] ∧ s.outputs = [] ∧ s.outQueue = [] ∧ s.seq = 0 ∧ s.loop = .broken ∧ s.events = [] ∧ s.trip = none ∧
  s.startTimer = none ∧ s.lineA.settings = none ∧ s.lineB.settings = none ∧ s.check = .unchecked ∧ s.shadow = Bank.empty

/-- What LOAD_TABLE writes reads back: an entry's contents of the length of its class, whatever their bits, are the entry's
encoding once loaded, and no other entry and no edition changes (R163, R180, 13.1). -/
def Obligations.TableEntriesRoundTrip : Prop :=
  ∀ (b : Bank) (c : RecordClass) (i : Nat) (bs : List Byte), b.wf = true → 11 ≤ c.code → c.indexOk i = true →
    bs.length = c.entryLength → ∃ b' : Bank, b.loadEntry c i bs = some b' ∧ b'.wf = true ∧ b'.edition = b.edition ∧
      b'.encodeEntry c i = some bs ∧
      ∀ d j, d.indexOk j = true → (d ≠ c ∨ j ≠ i) → b'.encodeEntry d j = b.encodeEntry d j

end Statements
end

