-- ==== Sys2Proof/Laws/State.lean ====
section
/-! SUPPORT. What the plain updates of the state leave, field by field: each conjunction gives the simplifier one rule for
each field that the update does not touch, and a rule for the field that it writes follows it. -/

namespace Sys2Proof.Machine

@[simp] theorem State.advance_same (s : State) (dt : Time) :
    (s.advance dt).pending = s.pending ∧ (s.advance dt).key = s.key ∧ (s.advance dt).inReset = s.inReset ∧
    (s.advance dt).outQueue = s.outQueue ∧ (s.advance dt).seq = s.seq ∧ (s.advance dt).sending = s.sending ∧
    (s.advance dt).txHold = s.txHold ∧ (s.advance dt).pendingReturns = s.pendingReturns ∧
    (s.advance dt).lossMarks = s.lossMarks ∧ (s.advance dt).refresh = s.refresh ∧ (s.advance dt).loop = s.loop ∧
    (s.advance dt).watch = s.watch ∧ (s.advance dt).units = s.units ∧ (s.advance dt).tracks = s.tracks ∧
    (s.advance dt).levers = s.levers ∧ (s.advance dt).lineA = s.lineA ∧ (s.advance dt).lineB = s.lineB ∧
    (s.advance dt).incoming = s.incoming ∧ (s.advance dt).here = s.here ∧ (s.advance dt).exchanges = s.exchanges ∧
    (s.advance dt).obstructionA = s.obstructionA ∧ (s.advance dt).obstructionB = s.obstructionB ∧
    (s.advance dt).sections = s.sections ∧ (s.advance dt).lamps = s.lamps ∧ (s.advance dt).outputs = s.outputs ∧
    (s.advance dt).groupLive = s.groupLive ∧ (s.advance dt).stored = s.stored ∧ (s.advance dt).active = s.active ∧
    (s.advance dt).shadow = s.shadow ∧ (s.advance dt).check = s.check ∧ (s.advance dt).storeOp = s.storeOp ∧
    (s.advance dt).switchHeld = s.switchHeld ∧ (s.advance dt).restartDue = s.restartDue ∧
    (s.advance dt).lastRequester = s.lastRequester ∧ (s.advance dt).part = s.part ∧
    (s.advance dt).resetKind = s.resetKind ∧ (s.advance dt).startTimer = s.startTimer ∧
    (s.advance dt).trip = s.trip ∧ (s.advance dt).events = s.events ∧ (s.advance dt).freeCount = s.freeCount := by and_intros <;> rfl

@[simp] theorem State.advance_now (s : State) (dt : Time) : (s.advance dt).now = s.now + dt := rfl

@[simp] theorem State.warp_same (s : State) (t : Time) :
    (s.warp t).pending = s.pending ∧ (s.warp t).key = s.key ∧ (s.warp t).inReset = s.inReset ∧
    (s.warp t).outQueue = s.outQueue ∧ (s.warp t).seq = s.seq ∧ (s.warp t).sending = s.sending ∧
    (s.warp t).txHold = s.txHold ∧ (s.warp t).pendingReturns = s.pendingReturns ∧
    (s.warp t).lossMarks = s.lossMarks ∧ (s.warp t).refresh = s.refresh ∧ (s.warp t).loop = s.loop ∧
    (s.warp t).watch = s.watch ∧ (s.warp t).units = s.units ∧ (s.warp t).tracks = s.tracks ∧
    (s.warp t).levers = s.levers ∧ (s.warp t).lineA = s.lineA ∧ (s.warp t).lineB = s.lineB ∧
    (s.warp t).incoming = s.incoming ∧ (s.warp t).here = s.here ∧ (s.warp t).exchanges = s.exchanges ∧
    (s.warp t).obstructionA = s.obstructionA ∧ (s.warp t).obstructionB = s.obstructionB ∧
    (s.warp t).sections = s.sections ∧ (s.warp t).lamps = s.lamps ∧ (s.warp t).outputs = s.outputs ∧
    (s.warp t).groupLive = s.groupLive ∧ (s.warp t).stored = s.stored ∧ (s.warp t).active = s.active ∧
    (s.warp t).shadow = s.shadow ∧ (s.warp t).check = s.check ∧ (s.warp t).storeOp = s.storeOp ∧
    (s.warp t).switchHeld = s.switchHeld ∧ (s.warp t).restartDue = s.restartDue ∧
    (s.warp t).lastRequester = s.lastRequester ∧ (s.warp t).part = s.part ∧ (s.warp t).resetKind = s.resetKind ∧
    (s.warp t).startTimer = s.startTimer ∧ (s.warp t).trip = s.trip ∧ (s.warp t).events = s.events ∧
    (s.warp t).freeCount = s.freeCount := by unfold State.warp; split <;> and_intros <;> rfl

@[simp] theorem State.warp_now (s : State) (t : Time) :
    (s.warp t).now = if t.notBefore s.now then t else s.now := by unfold State.warp; split <;> rfl

@[simp] theorem modifyUnit_same (s : State) (a : Nat) (f : UnitRec → UnitRec) :
    (modifyUnit s a f).pending = s.pending ∧ (modifyUnit s a f).key = s.key ∧
    (modifyUnit s a f).inReset = s.inReset ∧ (modifyUnit s a f).now = s.now ∧
    (modifyUnit s a f).outQueue = s.outQueue ∧ (modifyUnit s a f).seq = s.seq ∧
    (modifyUnit s a f).sending = s.sending ∧ (modifyUnit s a f).txHold = s.txHold ∧
    (modifyUnit s a f).pendingReturns = s.pendingReturns ∧ (modifyUnit s a f).lossMarks = s.lossMarks ∧
    (modifyUnit s a f).refresh = s.refresh ∧ (modifyUnit s a f).loop = s.loop ∧
    (modifyUnit s a f).watch = s.watch ∧ (modifyUnit s a f).tracks = s.tracks ∧
    (modifyUnit s a f).levers = s.levers ∧ (modifyUnit s a f).lineA = s.lineA ∧
    (modifyUnit s a f).lineB = s.lineB ∧ (modifyUnit s a f).incoming = s.incoming ∧
    (modifyUnit s a f).here = s.here ∧ (modifyUnit s a f).exchanges = s.exchanges ∧
    (modifyUnit s a f).obstructionA = s.obstructionA ∧ (modifyUnit s a f).obstructionB = s.obstructionB ∧
    (modifyUnit s a f).sections = s.sections ∧ (modifyUnit s a f).lamps = s.lamps ∧
    (modifyUnit s a f).outputs = s.outputs ∧ (modifyUnit s a f).groupLive = s.groupLive ∧
    (modifyUnit s a f).stored = s.stored ∧ (modifyUnit s a f).active = s.active ∧
    (modifyUnit s a f).shadow = s.shadow ∧ (modifyUnit s a f).check = s.check ∧
    (modifyUnit s a f).storeOp = s.storeOp ∧ (modifyUnit s a f).switchHeld = s.switchHeld ∧
    (modifyUnit s a f).restartDue = s.restartDue ∧ (modifyUnit s a f).lastRequester = s.lastRequester ∧
    (modifyUnit s a f).part = s.part ∧ (modifyUnit s a f).resetKind = s.resetKind ∧
    (modifyUnit s a f).startTimer = s.startTimer ∧ (modifyUnit s a f).trip = s.trip ∧
    (modifyUnit s a f).events = s.events ∧ (modifyUnit s a f).freeCount = s.freeCount := by and_intros <;> rfl

@[simp] theorem modifyUnit_units (s : State) (a : Nat) (f : UnitRec → UnitRec) : (modifyUnit s a f).units = modifyRec s.units a f := rfl

@[simp] theorem modifyTrack_same (s : State) (n : Nat) (f : TrackRec → TrackRec) :
    (modifyTrack s n f).pending = s.pending ∧ (modifyTrack s n f).key = s.key ∧
    (modifyTrack s n f).inReset = s.inReset ∧ (modifyTrack s n f).now = s.now ∧
    (modifyTrack s n f).outQueue = s.outQueue ∧ (modifyTrack s n f).seq = s.seq ∧
    (modifyTrack s n f).sending = s.sending ∧ (modifyTrack s n f).txHold = s.txHold ∧
    (modifyTrack s n f).pendingReturns = s.pendingReturns ∧ (modifyTrack s n f).lossMarks = s.lossMarks ∧
    (modifyTrack s n f).refresh = s.refresh ∧ (modifyTrack s n f).loop = s.loop ∧
    (modifyTrack s n f).watch = s.watch ∧ (modifyTrack s n f).units = s.units ∧
    (modifyTrack s n f).levers = s.levers ∧ (modifyTrack s n f).lineA = s.lineA ∧
    (modifyTrack s n f).lineB = s.lineB ∧ (modifyTrack s n f).incoming = s.incoming ∧
    (modifyTrack s n f).here = s.here ∧ (modifyTrack s n f).exchanges = s.exchanges ∧
    (modifyTrack s n f).obstructionA = s.obstructionA ∧ (modifyTrack s n f).obstructionB = s.obstructionB ∧
    (modifyTrack s n f).sections = s.sections ∧ (modifyTrack s n f).lamps = s.lamps ∧
    (modifyTrack s n f).outputs = s.outputs ∧ (modifyTrack s n f).groupLive = s.groupLive ∧
    (modifyTrack s n f).stored = s.stored ∧ (modifyTrack s n f).active = s.active ∧
    (modifyTrack s n f).shadow = s.shadow ∧ (modifyTrack s n f).check = s.check ∧
    (modifyTrack s n f).storeOp = s.storeOp ∧ (modifyTrack s n f).switchHeld = s.switchHeld ∧
    (modifyTrack s n f).restartDue = s.restartDue ∧ (modifyTrack s n f).lastRequester = s.lastRequester ∧
    (modifyTrack s n f).part = s.part ∧ (modifyTrack s n f).resetKind = s.resetKind ∧
    (modifyTrack s n f).startTimer = s.startTimer ∧ (modifyTrack s n f).trip = s.trip ∧
    (modifyTrack s n f).events = s.events ∧ (modifyTrack s n f).freeCount = s.freeCount := by and_intros <;> rfl

@[simp] theorem modifyTrack_tracks (s : State) (n : Nat) (f : TrackRec → TrackRec) : (modifyTrack s n f).tracks = modifyRec s.tracks n f := rfl

@[simp] theorem modifyLever_same (s : State) (n : Nat) (f : LeverRec → LeverRec) :
    (modifyLever s n f).pending = s.pending ∧ (modifyLever s n f).key = s.key ∧
    (modifyLever s n f).inReset = s.inReset ∧ (modifyLever s n f).now = s.now ∧
    (modifyLever s n f).outQueue = s.outQueue ∧ (modifyLever s n f).seq = s.seq ∧
    (modifyLever s n f).sending = s.sending ∧ (modifyLever s n f).txHold = s.txHold ∧
    (modifyLever s n f).pendingReturns = s.pendingReturns ∧ (modifyLever s n f).lossMarks = s.lossMarks ∧
    (modifyLever s n f).refresh = s.refresh ∧ (modifyLever s n f).loop = s.loop ∧
    (modifyLever s n f).watch = s.watch ∧ (modifyLever s n f).units = s.units ∧
    (modifyLever s n f).tracks = s.tracks ∧ (modifyLever s n f).lineA = s.lineA ∧
    (modifyLever s n f).lineB = s.lineB ∧ (modifyLever s n f).incoming = s.incoming ∧
    (modifyLever s n f).here = s.here ∧ (modifyLever s n f).exchanges = s.exchanges ∧
    (modifyLever s n f).obstructionA = s.obstructionA ∧ (modifyLever s n f).obstructionB = s.obstructionB ∧
    (modifyLever s n f).sections = s.sections ∧ (modifyLever s n f).lamps = s.lamps ∧
    (modifyLever s n f).outputs = s.outputs ∧ (modifyLever s n f).groupLive = s.groupLive ∧
    (modifyLever s n f).stored = s.stored ∧ (modifyLever s n f).active = s.active ∧
    (modifyLever s n f).shadow = s.shadow ∧ (modifyLever s n f).check = s.check ∧
    (modifyLever s n f).storeOp = s.storeOp ∧ (modifyLever s n f).switchHeld = s.switchHeld ∧
    (modifyLever s n f).restartDue = s.restartDue ∧ (modifyLever s n f).lastRequester = s.lastRequester ∧
    (modifyLever s n f).part = s.part ∧ (modifyLever s n f).resetKind = s.resetKind ∧
    (modifyLever s n f).startTimer = s.startTimer ∧ (modifyLever s n f).trip = s.trip ∧
    (modifyLever s n f).events = s.events ∧ (modifyLever s n f).freeCount = s.freeCount := by and_intros <;> rfl

@[simp] theorem modifyLever_levers (s : State) (n : Nat) (f : LeverRec → LeverRec) : (modifyLever s n f).levers = modifyRec s.levers n f := rfl

@[simp] theorem modifySection_same (s : State) (n : Nat) (f : SectionRec → SectionRec) :
    (modifySection s n f).pending = s.pending ∧ (modifySection s n f).key = s.key ∧
    (modifySection s n f).inReset = s.inReset ∧ (modifySection s n f).now = s.now ∧
    (modifySection s n f).outQueue = s.outQueue ∧ (modifySection s n f).seq = s.seq ∧
    (modifySection s n f).sending = s.sending ∧ (modifySection s n f).txHold = s.txHold ∧
    (modifySection s n f).pendingReturns = s.pendingReturns ∧ (modifySection s n f).lossMarks = s.lossMarks ∧
    (modifySection s n f).refresh = s.refresh ∧ (modifySection s n f).loop = s.loop ∧
    (modifySection s n f).watch = s.watch ∧ (modifySection s n f).units = s.units ∧
    (modifySection s n f).tracks = s.tracks ∧ (modifySection s n f).levers = s.levers ∧
    (modifySection s n f).lineA = s.lineA ∧ (modifySection s n f).lineB = s.lineB ∧
    (modifySection s n f).incoming = s.incoming ∧ (modifySection s n f).here = s.here ∧
    (modifySection s n f).exchanges = s.exchanges ∧ (modifySection s n f).obstructionA = s.obstructionA ∧
    (modifySection s n f).obstructionB = s.obstructionB ∧ (modifySection s n f).lamps = s.lamps ∧
    (modifySection s n f).outputs = s.outputs ∧ (modifySection s n f).groupLive = s.groupLive ∧
    (modifySection s n f).stored = s.stored ∧ (modifySection s n f).active = s.active ∧
    (modifySection s n f).shadow = s.shadow ∧ (modifySection s n f).check = s.check ∧
    (modifySection s n f).storeOp = s.storeOp ∧ (modifySection s n f).switchHeld = s.switchHeld ∧
    (modifySection s n f).restartDue = s.restartDue ∧ (modifySection s n f).lastRequester = s.lastRequester ∧
    (modifySection s n f).part = s.part ∧ (modifySection s n f).resetKind = s.resetKind ∧
    (modifySection s n f).startTimer = s.startTimer ∧ (modifySection s n f).trip = s.trip ∧
    (modifySection s n f).events = s.events ∧ (modifySection s n f).freeCount = s.freeCount := by and_intros <;> rfl

@[simp] theorem modifySection_sections (s : State) (n : Nat) (f : SectionRec → SectionRec) : (modifySection s n f).sections = modifyRec s.sections n f := rfl

@[simp] theorem modifyExchange_same (s : State) (n : Nat) (f : Exchange → Exchange) :
    (modifyExchange s n f).pending = s.pending ∧ (modifyExchange s n f).key = s.key ∧
    (modifyExchange s n f).inReset = s.inReset ∧ (modifyExchange s n f).now = s.now ∧
    (modifyExchange s n f).outQueue = s.outQueue ∧ (modifyExchange s n f).seq = s.seq ∧
    (modifyExchange s n f).sending = s.sending ∧ (modifyExchange s n f).txHold = s.txHold ∧
    (modifyExchange s n f).pendingReturns = s.pendingReturns ∧ (modifyExchange s n f).lossMarks = s.lossMarks ∧
    (modifyExchange s n f).refresh = s.refresh ∧ (modifyExchange s n f).loop = s.loop ∧
    (modifyExchange s n f).watch = s.watch ∧ (modifyExchange s n f).units = s.units ∧
    (modifyExchange s n f).tracks = s.tracks ∧ (modifyExchange s n f).levers = s.levers ∧
    (modifyExchange s n f).lineA = s.lineA ∧ (modifyExchange s n f).lineB = s.lineB ∧
    (modifyExchange s n f).incoming = s.incoming ∧ (modifyExchange s n f).here = s.here ∧
    (modifyExchange s n f).obstructionA = s.obstructionA ∧ (modifyExchange s n f).obstructionB = s.obstructionB ∧
    (modifyExchange s n f).sections = s.sections ∧ (modifyExchange s n f).lamps = s.lamps ∧
    (modifyExchange s n f).outputs = s.outputs ∧ (modifyExchange s n f).groupLive = s.groupLive ∧
    (modifyExchange s n f).stored = s.stored ∧ (modifyExchange s n f).active = s.active ∧
    (modifyExchange s n f).shadow = s.shadow ∧ (modifyExchange s n f).check = s.check ∧
    (modifyExchange s n f).storeOp = s.storeOp ∧ (modifyExchange s n f).switchHeld = s.switchHeld ∧
    (modifyExchange s n f).restartDue = s.restartDue ∧ (modifyExchange s n f).lastRequester = s.lastRequester ∧
    (modifyExchange s n f).part = s.part ∧ (modifyExchange s n f).resetKind = s.resetKind ∧
    (modifyExchange s n f).startTimer = s.startTimer ∧ (modifyExchange s n f).trip = s.trip ∧
    (modifyExchange s n f).events = s.events ∧ (modifyExchange s n f).freeCount = s.freeCount := by and_intros <;> rfl

@[simp] theorem modifyExchange_exchanges (s : State) (n : Nat) (f : Exchange → Exchange) : (modifyExchange s n f).exchanges = modifyRec s.exchanges n f := rfl

@[simp] theorem modifyLamp_same (s : State) (p : Nat) (f : LampRec → LampRec) :
    (modifyLamp s p f).pending = s.pending ∧ (modifyLamp s p f).key = s.key ∧
    (modifyLamp s p f).inReset = s.inReset ∧ (modifyLamp s p f).now = s.now ∧
    (modifyLamp s p f).outQueue = s.outQueue ∧ (modifyLamp s p f).seq = s.seq ∧
    (modifyLamp s p f).sending = s.sending ∧ (modifyLamp s p f).txHold = s.txHold ∧
    (modifyLamp s p f).pendingReturns = s.pendingReturns ∧ (modifyLamp s p f).lossMarks = s.lossMarks ∧
    (modifyLamp s p f).refresh = s.refresh ∧ (modifyLamp s p f).loop = s.loop ∧
    (modifyLamp s p f).watch = s.watch ∧ (modifyLamp s p f).units = s.units ∧
    (modifyLamp s p f).tracks = s.tracks ∧ (modifyLamp s p f).levers = s.levers ∧
    (modifyLamp s p f).lineA = s.lineA ∧ (modifyLamp s p f).lineB = s.lineB ∧
    (modifyLamp s p f).incoming = s.incoming ∧ (modifyLamp s p f).here = s.here ∧
    (modifyLamp s p f).exchanges = s.exchanges ∧ (modifyLamp s p f).obstructionA = s.obstructionA ∧
    (modifyLamp s p f).obstructionB = s.obstructionB ∧ (modifyLamp s p f).sections = s.sections ∧
    (modifyLamp s p f).outputs = s.outputs ∧ (modifyLamp s p f).groupLive = s.groupLive ∧
    (modifyLamp s p f).stored = s.stored ∧ (modifyLamp s p f).active = s.active ∧
    (modifyLamp s p f).shadow = s.shadow ∧ (modifyLamp s p f).check = s.check ∧
    (modifyLamp s p f).storeOp = s.storeOp ∧ (modifyLamp s p f).switchHeld = s.switchHeld ∧
    (modifyLamp s p f).restartDue = s.restartDue ∧ (modifyLamp s p f).lastRequester = s.lastRequester ∧
    (modifyLamp s p f).part = s.part ∧ (modifyLamp s p f).resetKind = s.resetKind ∧
    (modifyLamp s p f).startTimer = s.startTimer ∧ (modifyLamp s p f).trip = s.trip ∧
    (modifyLamp s p f).events = s.events ∧ (modifyLamp s p f).freeCount = s.freeCount := by and_intros <;> rfl

@[simp] theorem modifyLamp_lamps (s : State) (p : Nat) (f : LampRec → LampRec) : (modifyLamp s p f).lamps = modifyRec s.lamps p f := rfl

@[simp] theorem modifyLine_same (s : State) (l : Line) (f : LineRec → LineRec) :
    (modifyLine s l f).pending = s.pending ∧ (modifyLine s l f).key = s.key ∧
    (modifyLine s l f).inReset = s.inReset ∧ (modifyLine s l f).now = s.now ∧
    (modifyLine s l f).outQueue = s.outQueue ∧ (modifyLine s l f).seq = s.seq ∧
    (modifyLine s l f).sending = s.sending ∧ (modifyLine s l f).txHold = s.txHold ∧
    (modifyLine s l f).pendingReturns = s.pendingReturns ∧ (modifyLine s l f).lossMarks = s.lossMarks ∧
    (modifyLine s l f).refresh = s.refresh ∧ (modifyLine s l f).loop = s.loop ∧
    (modifyLine s l f).watch = s.watch ∧ (modifyLine s l f).units = s.units ∧
    (modifyLine s l f).tracks = s.tracks ∧ (modifyLine s l f).levers = s.levers ∧
    (modifyLine s l f).incoming = s.incoming ∧ (modifyLine s l f).here = s.here ∧
    (modifyLine s l f).exchanges = s.exchanges ∧ (modifyLine s l f).obstructionA = s.obstructionA ∧
    (modifyLine s l f).obstructionB = s.obstructionB ∧ (modifyLine s l f).sections = s.sections ∧
    (modifyLine s l f).lamps = s.lamps ∧ (modifyLine s l f).outputs = s.outputs ∧
    (modifyLine s l f).groupLive = s.groupLive ∧ (modifyLine s l f).stored = s.stored ∧
    (modifyLine s l f).active = s.active ∧ (modifyLine s l f).shadow = s.shadow ∧
    (modifyLine s l f).check = s.check ∧ (modifyLine s l f).storeOp = s.storeOp ∧
    (modifyLine s l f).switchHeld = s.switchHeld ∧ (modifyLine s l f).restartDue = s.restartDue ∧
    (modifyLine s l f).lastRequester = s.lastRequester ∧ (modifyLine s l f).part = s.part ∧
    (modifyLine s l f).resetKind = s.resetKind ∧ (modifyLine s l f).startTimer = s.startTimer ∧
    (modifyLine s l f).trip = s.trip ∧ (modifyLine s l f).events = s.events ∧
    (modifyLine s l f).freeCount = s.freeCount := by cases l <;> and_intros <;> rfl

@[simp] theorem modifyLine_line (s : State) (l : Line) (f : LineRec → LineRec) :
    (modifyLine s l f).line l = f (s.line l) := by cases l <;> rfl

theorem modifyLine_other (s : State) (l m : Line) (f : LineRec → LineRec) (h : m ≠ l) :
    (modifyLine s l f).line m = s.line m := by cases l <;> cases m <;> first | rfl | exact absurd rfl h

@[simp] theorem modifyLine_modifyLine (s : State) (l : Line) (f g : LineRec → LineRec) :
    modifyLine (modifyLine s l f) l g = modifyLine s l (fun r => g (f r)) := by cases l <;> rfl

@[simp] theorem modifyRecogniser_same (s : State) (x : Side) (n : Nat) (f : Recogniser → Recogniser) :
    (modifyRecogniser s x n f).pending = s.pending ∧ (modifyRecogniser s x n f).key = s.key ∧
    (modifyRecogniser s x n f).inReset = s.inReset ∧ (modifyRecogniser s x n f).now = s.now ∧
    (modifyRecogniser s x n f).outQueue = s.outQueue ∧ (modifyRecogniser s x n f).seq = s.seq ∧
    (modifyRecogniser s x n f).sending = s.sending ∧ (modifyRecogniser s x n f).txHold = s.txHold ∧
    (modifyRecogniser s x n f).pendingReturns = s.pendingReturns ∧
    (modifyRecogniser s x n f).lossMarks = s.lossMarks ∧ (modifyRecogniser s x n f).refresh = s.refresh ∧
    (modifyRecogniser s x n f).loop = s.loop ∧ (modifyRecogniser s x n f).watch = s.watch ∧
    (modifyRecogniser s x n f).units = s.units ∧ (modifyRecogniser s x n f).tracks = s.tracks ∧
    (modifyRecogniser s x n f).levers = s.levers ∧ (modifyRecogniser s x n f).lineA = s.lineA ∧
    (modifyRecogniser s x n f).lineB = s.lineB ∧ (modifyRecogniser s x n f).exchanges = s.exchanges ∧
    (modifyRecogniser s x n f).obstructionA = s.obstructionA ∧
    (modifyRecogniser s x n f).obstructionB = s.obstructionB ∧ (modifyRecogniser s x n f).sections = s.sections ∧
    (modifyRecogniser s x n f).lamps = s.lamps ∧ (modifyRecogniser s x n f).outputs = s.outputs ∧
    (modifyRecogniser s x n f).groupLive = s.groupLive ∧ (modifyRecogniser s x n f).stored = s.stored ∧
    (modifyRecogniser s x n f).active = s.active ∧ (modifyRecogniser s x n f).shadow = s.shadow ∧
    (modifyRecogniser s x n f).check = s.check ∧ (modifyRecogniser s x n f).storeOp = s.storeOp ∧
    (modifyRecogniser s x n f).switchHeld = s.switchHeld ∧ (modifyRecogniser s x n f).restartDue = s.restartDue ∧
    (modifyRecogniser s x n f).lastRequester = s.lastRequester ∧ (modifyRecogniser s x n f).part = s.part ∧
    (modifyRecogniser s x n f).resetKind = s.resetKind ∧ (modifyRecogniser s x n f).startTimer = s.startTimer ∧
    (modifyRecogniser s x n f).trip = s.trip ∧ (modifyRecogniser s x n f).events = s.events ∧
    (modifyRecogniser s x n f).freeCount = s.freeCount := by cases x <;> and_intros <;> rfl

@[simp] theorem modifyRecogniser_recognisers (s : State) (x : Side) (n : Nat) (f : Recogniser → Recogniser) :
    (modifyRecogniser s x n f).recognisers x = modifyRec (s.recognisers x) n f := by cases x <;> rfl

@[simp] theorem setObstruction_same (s : State) (l : Line) (v : Bool) :
    (setObstruction s l v).pending = s.pending ∧ (setObstruction s l v).key = s.key ∧
    (setObstruction s l v).inReset = s.inReset ∧ (setObstruction s l v).now = s.now ∧
    (setObstruction s l v).outQueue = s.outQueue ∧ (setObstruction s l v).seq = s.seq ∧
    (setObstruction s l v).sending = s.sending ∧ (setObstruction s l v).txHold = s.txHold ∧
    (setObstruction s l v).pendingReturns = s.pendingReturns ∧ (setObstruction s l v).lossMarks = s.lossMarks ∧
    (setObstruction s l v).refresh = s.refresh ∧ (setObstruction s l v).loop = s.loop ∧
    (setObstruction s l v).watch = s.watch ∧ (setObstruction s l v).units = s.units ∧
    (setObstruction s l v).tracks = s.tracks ∧ (setObstruction s l v).levers = s.levers ∧
    (setObstruction s l v).lineA = s.lineA ∧ (setObstruction s l v).lineB = s.lineB ∧
    (setObstruction s l v).incoming = s.incoming ∧ (setObstruction s l v).here = s.here ∧
    (setObstruction s l v).exchanges = s.exchanges ∧ (setObstruction s l v).sections = s.sections ∧
    (setObstruction s l v).lamps = s.lamps ∧ (setObstruction s l v).outputs = s.outputs ∧
    (setObstruction s l v).groupLive = s.groupLive ∧ (setObstruction s l v).stored = s.stored ∧
    (setObstruction s l v).active = s.active ∧ (setObstruction s l v).shadow = s.shadow ∧
    (setObstruction s l v).check = s.check ∧ (setObstruction s l v).storeOp = s.storeOp ∧
    (setObstruction s l v).switchHeld = s.switchHeld ∧ (setObstruction s l v).restartDue = s.restartDue ∧
    (setObstruction s l v).lastRequester = s.lastRequester ∧ (setObstruction s l v).part = s.part ∧
    (setObstruction s l v).resetKind = s.resetKind ∧ (setObstruction s l v).startTimer = s.startTimer ∧
    (setObstruction s l v).trip = s.trip ∧ (setObstruction s l v).events = s.events ∧
    (setObstruction s l v).freeCount = s.freeCount := by cases l <;> and_intros <;> rfl

@[simp] theorem setObstruction_obstruction (s : State) (l : Line) (v : Bool) :
    (setObstruction s l v).obstruction l = v := by cases l <;> rfl

/-! ### Derived readings -/

theorem State.line_of (s t : State) (ha : t.lineA = s.lineA) (hb : t.lineB = s.lineB) (l : Line) : t.line l = s.line l := by
  cases l <;> assumption

theorem State.obstruction_of (s t : State) (ha : t.obstructionA = s.obstructionA) (hb : t.obstructionB = s.obstructionB)
    (l : Line) : t.obstruction l = s.obstruction l := by
  cases l <;> assumption

theorem State.bank_of (s t : State) (h : t.active = s.active) : t.bank = s.bank := by simp only [State.bank, h]

theorem State.bank_some {s : State} {b : Bank} (h : s.bank = some b) : ∃ img, s.active = some img ∧ img.bank = b := by
  simpa [State.bank, Option.map_eq_some_iff] using h

/-! ### Records by number -/

@[simp] theorem recAt_nil {α : Type} (n : Nat) : recAt ([] : Recs α) n = none := rfl

theorem recAt_cons {α : Type} (m : Nat) (x : α) (r : Recs α) (n : Nat) :
    recAt ((m, x) :: r) n = if m = n then some x else recAt r n := rfl

theorem recAt_mem {α : Type} {r : Recs α} {n : Nat} {x : α} (h : recAt r n = some x) : (n, x) ∈ r := by
  induction r with
  | nil => simp at h
  | cons p r ih =>
    obtain ⟨m, y⟩ := p
    rw [recAt_cons] at h
    split at h
    · simp_all
    · exact List.mem_cons_of_mem _ (ih h)

/-- Changing the record of a number changes what is read at that number, and at no other. -/
theorem recAt_modifyRec {α : Type} (r : Recs α) (n m : Nat) (f : α → α) :
    recAt (modifyRec r n f) m = if m = n then (recAt r m).map f else recAt r m := by
  induction r with
  | nil => simp [modifyRec]
  | cons p r ih =>
    obtain ⟨k, x⟩ := p
    simp only [modifyRec, List.map_cons] at ih ⊢
    by_cases hk : k = n
    · subst hk
      by_cases hm : m = k
      · subst hm; simp [recAt_cons]
      · have : ¬ k = m := fun h => hm h.symm
        simp_all [recAt_cons]
    · by_cases hm : k = m
      · subst hm; simp [recAt_cons, hk]
      · by_cases hmn : m = n <;> simp_all [recAt_cons]

@[simp] theorem recAt_modifyRec_self {α : Type} (r : Recs α) (n : Nat) (f : α → α) :
    recAt (modifyRec r n f) n = (recAt r n).map f := by simp [recAt_modifyRec]

/-- Changing every record by its number changes each reading by its own. -/
theorem recAt_mapRec {α β : Type} (r : Recs α) (g : Nat → α → β) (n : Nat) :
    recAt (r.map fun p => (p.1, g p.1 p.2)) n = (recAt r n).map (g n) := by
  induction r with
  | nil => rfl
  | cons p r ih =>
    obtain ⟨k, x⟩ := p
    rw [List.map_cons, recAt_cons, recAt_cons]
    split
    · simp_all
    · exact ih

/-- Records made for a list of numbers. -/
theorem recAt_makeRecs {α : Type} (ns : List Nat) (f : Nat → α) (n : Nat) :
    recAt (makeRecs ns f) n = if n ∈ ns then some (f n) else none := by
  induction ns with
  | nil => rfl
  | cons m ns ih =>
    rw [makeRecs, List.map_cons, recAt_cons]
    by_cases h : m = n
    · simp [h]
    · have : n ≠ m := fun e => h e.symm
      simpa [h, this, makeRecs] using ih

@[simp] theorem modifyRec_numbers {α : Type} (r : Recs α) (n : Nat) (f : α → α) :
    (modifyRec r n f).map Prod.fst = r.map Prod.fst := by
  simp only [modifyRec, List.map_map]
  exact List.map_congr_left fun p _ => by by_cases h : p.1 = n <;> simp [h]

/-- A property of every record is kept by a change that keeps it. -/
theorem modifyRec_all {α : Type} {P : Nat → α → Prop} {r : Recs α} {n : Nat} {f : α → α}
    (h : ∀ p ∈ r, P p.1 p.2) (hf : ∀ x, (n, x) ∈ r → P n x → P n (f x)) : ∀ p ∈ modifyRec r n f, P p.1 p.2 := by
  intro p hp
  obtain ⟨q, hq, rfl⟩ := List.mem_map.1 hp
  by_cases hn : q.1 = n
  · simp only [hn, if_true]; exact hf q.2 (by rw [← hn]; exact hq) (by simpa [hn] using h q hq)
  · simpa [hn] using h q hq

end Sys2Proof.Machine
end

