-- ==== Sys2Proof/Laws/Ops.lean ====
section
/-! SUPPORT. What the shared operations of Machine/Ops.lean can do: for each, once, the fields it may change (`_form`), the
rule for every other field (`_same`), and what it does to those it changes. -/

namespace Sys2Proof.Machine

/-! ### The transmitter -/

theorem restartRefresh_form (s : State) (k : FrameKind) (a : Nat) :
    ∃ r, restartRefresh s k a = { s with refresh := r } := by
  unfold restartRefresh
  split
  · split
    · exact ⟨_, rfl⟩
    · exact ⟨_, rfl⟩
  · exact ⟨_, rfl⟩

theorem takeFrame_form (s : State) (f : OutFrame) (rest : List OutFrame) :
    ∃ u r, takeFrame s f rest =
      { s with outQueue := rest, seq := s.seq + 1, units := u, refresh := r,
               sending := some { seq := s.seq, kind := f.kind, dest := f.dest, restart := f.restart,
                                 bytes := frameBytes f.kind.code (sentFrame s.seq f.kind f.dest f.payload) },
               pendingReturns := s.pendingReturns ++
                 [{ seq := s.seq, kind := f.kind, dest := f.dest, payload := f.payload, timer := none }] } := by
  unfold takeFrame
  dsimp only
  split
  · obtain ⟨r, h⟩ := restartRefresh_form (modifyUnit _ f.dest (startWindow (s.after Config.probeTime))) f.kind f.dest
    exact ⟨_, r, h⟩
  · obtain ⟨r, h⟩ := restartRefresh_form _ f.kind f.dest
    exact ⟨_, r, h⟩

/-- The arbiter moves a frame from the queue to the transmitter (R10). -/
theorem arbiter_form (s : State) :
    ∃ q n x p u r, arbiter s =
      { s with outQueue := q, seq := n, sending := x, pendingReturns := p, units := u, refresh := r } := by
  unfold arbiter
  split
  · split
    · obtain ⟨u, r, h⟩ := takeFrame_form s ‹_› ‹_›
      exact ⟨_, _, _, _, _, _, h⟩
    · exact ⟨_, _, _, _, _, _, rfl⟩
  · exact ⟨_, _, _, _, _, _, rfl⟩

@[simp] theorem arbiter_same (s : State) :
    (arbiter s).pending = s.pending ∧ (arbiter s).key = s.key ∧ (arbiter s).inReset = s.inReset ∧
    (arbiter s).now = s.now ∧ (arbiter s).txHold = s.txHold ∧ (arbiter s).lossMarks = s.lossMarks ∧
    (arbiter s).loop = s.loop ∧ (arbiter s).watch = s.watch ∧ (arbiter s).tracks = s.tracks ∧
    (arbiter s).levers = s.levers ∧ (arbiter s).lineA = s.lineA ∧ (arbiter s).lineB = s.lineB ∧
    (arbiter s).incoming = s.incoming ∧ (arbiter s).here = s.here ∧ (arbiter s).exchanges = s.exchanges ∧
    (arbiter s).obstructionA = s.obstructionA ∧ (arbiter s).obstructionB = s.obstructionB ∧
    (arbiter s).sections = s.sections ∧ (arbiter s).lamps = s.lamps ∧ (arbiter s).outputs = s.outputs ∧
    (arbiter s).groupLive = s.groupLive ∧ (arbiter s).stored = s.stored ∧ (arbiter s).active = s.active ∧
    (arbiter s).shadow = s.shadow ∧ (arbiter s).check = s.check ∧ (arbiter s).storeOp = s.storeOp ∧
    (arbiter s).switchHeld = s.switchHeld ∧ (arbiter s).restartDue = s.restartDue ∧
    (arbiter s).lastRequester = s.lastRequester ∧ (arbiter s).part = s.part ∧ (arbiter s).resetKind = s.resetKind ∧
    (arbiter s).startTimer = s.startTimer ∧ (arbiter s).trip = s.trip ∧ (arbiter s).events = s.events ∧
    (arbiter s).freeCount = s.freeCount := by
  obtain ⟨_, _, _, _, _, _, h⟩ := arbiter_form s
  rw [h]; and_intros <;> rfl

theorem takeOldest_length {c : Nat} {q : List OutFrame} {g : OutFrame} {k : List OutFrame}
    (h : takeOldest c q = some (g, k)) : q.length = k.length + 1 := by
  induction q generalizing g k with
  | nil => simp [takeOldest] at h
  | cons f q ih =>
    unfold takeOldest at h
    split at h
    · simp only [Option.some.injEq, Prod.mk.injEq] at h
      obtain ⟨_, rfl⟩ := h
      simp
    · split at h
      · rename_i g' k' h'
        simp only [Option.some.injEq, Prod.mk.injEq] at h
        obtain ⟨rfl, rfl⟩ := h
        simp [ih h']
      · simp at h

theorem takeMostUrgent_length {q : List OutFrame} {g : OutFrame} {k : List OutFrame}
    (h : takeMostUrgent q = some (g, k)) : q.length = k.length + 1 := by
  unfold takeMostUrgent at h
  obtain ⟨c, -, hc⟩ := List.exists_of_findSome?_eq_some h
  exact takeOldest_length hc

/-- A frame that joins the queue, and is taken at once where the queue was empty and the transmitter is free (R8, R10). -/
theorem queueJoined_form (s : State) (k : List OutFrame) :
    ∃ q n x p u r, queueJoined s k =
      { s with outQueue := q, seq := n, sending := x, pendingReturns := p, units := u, refresh := r } := by
  unfold queueJoined
  dsimp only
  split
  · obtain ⟨q, n, x, p, u, r, h⟩ := arbiter_form { s with outQueue := k }
    exact ⟨q, n, x, p, u, r, h⟩
  · exact ⟨_, _, _, _, _, _, rfl⟩

@[simp] theorem queueJoined_events (s : State) (k : List OutFrame) : (queueJoined s k).events = s.events := by
  obtain ⟨_, _, _, _, _, _, h⟩ := queueJoined_form s k
  rw [h]

/-- A frame that joins a queue that is not empty waits in it (R8). -/
theorem queueJoined_waits (s : State) (k : List OutFrame) (h : s.outQueue ≠ []) : queueJoined s k = { s with outQueue := k } := by
  simp [queueJoined, h]

/-- A frame that is no probe and carries no refreshed command moves no unit and no refresh timer when it joins (R10). -/
theorem queueJoined_class4 (s : State) (f : OutFrame) (hc : f.kind.cls = 4) :
    ∃ q n x p, queueJoined s (s.outQueue ++ [f]) = { s with outQueue := q, seq := n, sending := x, pendingReturns := p } := by
  have hr : ∀ k : UnitKind, k.refreshed ≠ some f.kind := by
    intro k h; cases k <;> simp [UnitKind.refreshed] at h <;> rw [← h] at hc <;> simp [FrameKind.cls] at hc
  have hp : f.kind ≠ .identProbe := by intro h; rw [h] at hc; simp [FrameKind.cls] at hc
  unfold queueJoined
  dsimp only
  split
  · rename_i he
    have h0 : s.outQueue = [] := by simpa using he
    have ht : takeMostUrgent [f] = some (f, []) := by simp [takeMostUrgent, takeOldest, hc]
    unfold arbiter
    split
    · simp only [h0, List.nil_append, ht, takeFrame, if_neg hp]
      unfold restartRefresh
      split
      · rw [if_neg (hr _)]; exact ⟨_, _, _, _, rfl⟩
      · exact ⟨_, _, _, _, rfl⟩
    · exact ⟨_, _, _, _, rfl⟩
  · exact ⟨_, _, _, _, rfl⟩

/-- Entries leave the pending-return list, and the transmitter may take a frame in their place (R10). -/
theorem entriesLeave_form (s : State) (k : List PendingReturn) :
    ∃ q n x p u r, entriesLeave s k =
      { s with outQueue := q, seq := n, sending := x, pendingReturns := p, units := u, refresh := r } := by
  unfold entriesLeave
  dsimp only
  split
  · exact ⟨_, _, _, _, _, _, rfl⟩
  · obtain ⟨q, n, x, p, u, r, h⟩ := arbiter_form { s with pendingReturns := k }
    exact ⟨q, n, x, p, u, r, h⟩

/-! ### Events -/

/-- What raising events may change: the event queue and, by a notice, the outbound queue and the transmitter (R178, R179,
R10). -/
def Told (s t : State) : Prop :=
  ∃ e q n x p, t = { s with events := e, outQueue := q, seq := n, sending := x, pendingReturns := p }

theorem Told.refl (s : State) : Told s s := ⟨_, _, _, _, _, rfl⟩

theorem Told.trans {s t r : State} (h : Told s t) (h' : Told t r) : Told s r := by
  obtain ⟨_, _, _, _, _, rfl⟩ := h
  obtain ⟨_, _, _, _, _, rfl⟩ := h'
  exact ⟨_, _, _, _, _, rfl⟩

theorem placeNotice_form (s : State) (a : Nat) : Told s (placeNotice s a) := by
  unfold placeNotice
  split
  · obtain ⟨q, n, x, p, h⟩ := queueJoined_class4 s { kind := .eventNotice, dest := a } rfl
    exact ⟨_, q, n, x, p, h⟩
  · exact ⟨_, _, _, _, _, rfl⟩

/-- Raising an event changes the event queue and, by its notice, the outbound queue and the transmitter (R178, R179). -/
theorem raise_form (s : State) (k : EventKind) (o d : Nat) : Told s (raise s k o d) := by
  have h1 : Told s (joinEvent s k o d) := ⟨_, _, _, _, _, rfl⟩
  unfold raise
  dsimp only
  split
  · split
    · exact h1.trans (placeNotice_form _ _)
    · exact h1
  · exact h1

@[simp] theorem raise_same (s : State) (k : EventKind) (o d : Nat) :
    (raise s k o d).pending = s.pending ∧ (raise s k o d).key = s.key ∧ (raise s k o d).inReset = s.inReset ∧
    (raise s k o d).now = s.now ∧ (raise s k o d).txHold = s.txHold ∧ (raise s k o d).lossMarks = s.lossMarks ∧
    (raise s k o d).refresh = s.refresh ∧ (raise s k o d).loop = s.loop ∧ (raise s k o d).watch = s.watch ∧
    (raise s k o d).units = s.units ∧ (raise s k o d).tracks = s.tracks ∧ (raise s k o d).levers = s.levers ∧
    (raise s k o d).lineA = s.lineA ∧ (raise s k o d).lineB = s.lineB ∧ (raise s k o d).incoming = s.incoming ∧
    (raise s k o d).here = s.here ∧ (raise s k o d).exchanges = s.exchanges ∧
    (raise s k o d).obstructionA = s.obstructionA ∧ (raise s k o d).obstructionB = s.obstructionB ∧
    (raise s k o d).sections = s.sections ∧ (raise s k o d).lamps = s.lamps ∧ (raise s k o d).outputs = s.outputs ∧
    (raise s k o d).groupLive = s.groupLive ∧ (raise s k o d).stored = s.stored ∧ (raise s k o d).active = s.active ∧
    (raise s k o d).shadow = s.shadow ∧ (raise s k o d).check = s.check ∧ (raise s k o d).storeOp = s.storeOp ∧
    (raise s k o d).switchHeld = s.switchHeld ∧ (raise s k o d).restartDue = s.restartDue ∧
    (raise s k o d).lastRequester = s.lastRequester ∧ (raise s k o d).part = s.part ∧
    (raise s k o d).resetKind = s.resetKind ∧ (raise s k o d).startTimer = s.startTimer ∧
    (raise s k o d).trip = s.trip ∧ (raise s k o d).freeCount = s.freeCount := by
  obtain ⟨_, _, _, _, _, h⟩ := raise_form s k o d
  rw [h]; and_intros <;> rfl

theorem raiseAll_form (s : State) (es : List (EventKind × Nat × Nat)) : Told s (raiseAll s es) := by
  induction es generalizing s with
  | nil => exact .refl s
  | cons x es ih => exact (raise_form s x.1 x.2.1 x.2.2).trans (ih _)

@[simp] theorem raiseAll_same (s : State) (es : List (EventKind × Nat × Nat)) :
    (raiseAll s es).pending = s.pending ∧ (raiseAll s es).key = s.key ∧ (raiseAll s es).inReset = s.inReset ∧
    (raiseAll s es).now = s.now ∧ (raiseAll s es).txHold = s.txHold ∧ (raiseAll s es).lossMarks = s.lossMarks ∧
    (raiseAll s es).refresh = s.refresh ∧ (raiseAll s es).loop = s.loop ∧ (raiseAll s es).watch = s.watch ∧
    (raiseAll s es).units = s.units ∧ (raiseAll s es).tracks = s.tracks ∧ (raiseAll s es).levers = s.levers ∧
    (raiseAll s es).lineA = s.lineA ∧ (raiseAll s es).lineB = s.lineB ∧ (raiseAll s es).incoming = s.incoming ∧
    (raiseAll s es).here = s.here ∧ (raiseAll s es).exchanges = s.exchanges ∧
    (raiseAll s es).obstructionA = s.obstructionA ∧ (raiseAll s es).obstructionB = s.obstructionB ∧
    (raiseAll s es).sections = s.sections ∧ (raiseAll s es).lamps = s.lamps ∧ (raiseAll s es).outputs = s.outputs ∧
    (raiseAll s es).groupLive = s.groupLive ∧ (raiseAll s es).stored = s.stored ∧ (raiseAll s es).active = s.active ∧
    (raiseAll s es).shadow = s.shadow ∧ (raiseAll s es).check = s.check ∧ (raiseAll s es).storeOp = s.storeOp ∧
    (raiseAll s es).switchHeld = s.switchHeld ∧ (raiseAll s es).restartDue = s.restartDue ∧
    (raiseAll s es).lastRequester = s.lastRequester ∧ (raiseAll s es).part = s.part ∧
    (raiseAll s es).resetKind = s.resetKind ∧ (raiseAll s es).startTimer = s.startTimer ∧
    (raiseAll s es).trip = s.trip ∧ (raiseAll s es).freeCount = s.freeCount := by
  obtain ⟨_, _, _, _, _, h⟩ := raiseAll_form s es
  rw [h]; and_intros <;> rfl

/-- A raised event stands youngest in the queue, or, with a full outbound queue and an empty event queue, just before the
FRAME_DROPPED of its notice. -/
theorem raise_mem (s : State) (k : EventKind) (o d : Nat) :
    ∃ e ∈ (raise s k o d).events, e.kind = k ∧ e.object = o ∧ e.detail = d ∧ e.time = s.now := by
  have hj : ∀ (q : List Event) (x : Event), ∃ e ∈ joined q x, e.kind = x.kind ∧ e.object = x.object ∧
      e.detail = x.detail ∧ e.time = x.time := by
    intro q x
    unfold joined
    split
    · exact ⟨x, by simp, by simp⟩
    · rcases hd : q.drop (q.length + 1 - Config.eventMax) with _ | ⟨y, ys⟩
      · exact ⟨{ x with gap := true }, by simp [markGap], by simp⟩
      · exact ⟨x, by simp [markGap], by simp⟩
  obtain ⟨e, he, hk⟩ := hj s.events ⟨k, o, d, s.now, false⟩
  unfold raise
  dsimp only
  split
  · rename_i hempty
    have h0 : s.events = [] := by simpa using hempty
    split
    · unfold placeNotice
      split
      · exact ⟨e, by rw [queueJoined_events]; exact he, hk⟩
      · refine ⟨⟨k, o, d, s.now, false⟩, ?_, rfl, rfl, rfl, rfl⟩
        simp [joinEvent, joined, h0, Config.eventMax]
    · exact ⟨e, he, hk⟩
  · exact ⟨e, he, hk⟩

theorem joined_length (q : List Event) (e : Event) (h : q.length ≤ Config.eventMax) :
    (joined q e).length ≤ Config.eventMax := by
  have hm : ∀ l : List Event, (markGap l).length = l.length := fun l => by cases l <;> rfl
  unfold joined
  split
  · simp; omega
  · simp [hm, Config.eventMax] at *; omega

/-- The arbiter keeps the limits of the outbound queue and of the pending-return list (R8, R10). -/
theorem arbiter_lengths (s : State) (hq : s.outQueue.length ≤ Config.outQueueMax)
    (hp : s.pendingReturns.length ≤ Config.pendingMax) :
    (arbiter s).outQueue.length ≤ Config.outQueueMax ∧ (arbiter s).pendingReturns.length ≤ Config.pendingMax := by
  unfold arbiter
  split
  · rename_i hf
    split
    · rename_i f rest ht
      have := takeMostUrgent_length ht
      obtain ⟨_, _, h⟩ := takeFrame_form s f rest
      rw [h]
      simp only [transmitterFree, Bool.and_eq_true, decide_eq_true_eq] at hf
      refine ⟨by dsimp only; omega, ?_⟩
      simp only [List.length_append, List.length_singleton]
      omega
    · exact ⟨hq, hp⟩
  · exact ⟨hq, hp⟩

theorem queueJoined_lengths (s : State) (k : List OutFrame) (hq : k.length ≤ Config.outQueueMax)
    (hp : s.pendingReturns.length ≤ Config.pendingMax) :
    (queueJoined s k).outQueue.length ≤ Config.outQueueMax ∧
    (queueJoined s k).pendingReturns.length ≤ Config.pendingMax := by
  unfold queueJoined
  dsimp only
  split
  · exact arbiter_lengths _ hq hp
  · exact ⟨hq, hp⟩

/-- The limits of the event queue, the outbound queue and the pending-return list (R178, R8, R10). -/
def Within (s : State) : Prop :=
  s.events.length ≤ Config.eventMax ∧ s.outQueue.length ≤ Config.outQueueMax ∧
  s.pendingReturns.length ≤ Config.pendingMax

theorem raise_within (s : State) (k : EventKind) (o d : Nat) (h : Within s) : Within (raise s k o d) := by
  obtain ⟨he, hq, hp⟩ := h
  have h1 := joined_length s.events ⟨k, o, d, s.now, false⟩ he
  unfold raise
  dsimp only
  split
  · split
    · unfold placeNotice
      split
      · rename_i hl
        obtain ⟨h2, h3⟩ := queueJoined_lengths (joinEvent s k o d)
          ((joinEvent s k o d).outQueue ++ [{ kind := .eventNotice, dest := ‹_› }])
          (by simp only [List.length_append, List.length_singleton]; omega) hp
        exact ⟨by rw [queueJoined_events]; exact h1, h2, h3⟩
      · exact ⟨joined_length _ _ h1, hq, hp⟩
    · exact ⟨h1, hq, hp⟩
  · exact ⟨h1, hq, hp⟩

/-! ### The outbound queue -/

/-- What placing a frame may change: what raising events may, and the units, the refresh timers and the restart mark (R8 to
R12, R22, R172). -/
def Placed (s t : State) : Prop :=
  ∃ e q n x p u r d, t = { s with events := e, outQueue := q, seq := n, sending := x, pendingReturns := p, units := u,
                                  refresh := r, restartDue := d }

theorem Placed.refl (s : State) : Placed s s := ⟨_, _, _, _, _, _, _, _, rfl⟩

theorem Placed.trans {s t r : State} (h : Placed s t) (h' : Placed t r) : Placed s r := by
  obtain ⟨_, _, _, _, _, _, _, _, rfl⟩ := h
  obtain ⟨_, _, _, _, _, _, _, _, rfl⟩ := h'
  exact ⟨_, _, _, _, _, _, _, _, rfl⟩

theorem Told.placed {s t : State} (h : Told s t) : Placed s t := by
  obtain ⟨_, _, _, _, _, rfl⟩ := h
  exact ⟨_, _, _, _, _, _, _, _, rfl⟩

theorem Placed.modifyUnit (s : State) (a : Nat) (f : UnitRec → UnitRec) : Placed s (modifyUnit s a f) :=
  ⟨_, _, _, _, _, _, _, _, rfl⟩

theorem queueJoined_placed (s : State) (k : List OutFrame) : Placed s (queueJoined s k) := by
  obtain ⟨_, _, _, _, _, _, h⟩ := queueJoined_form s k
  exact ⟨_, _, _, _, _, _, _, _, h⟩

theorem windowEnd_form (g : State → OutFrame → State) (hg : ∀ s f, Placed s (g s f)) (s : State) (a : Nat) :
    Placed s (windowEnd g s a) := by
  unfold windowEnd
  split
  · split
    · split
      · exact (Placed.modifyUnit _ _ _).trans (hg _ _)
      · exact (Placed.modifyUnit _ _ _).trans (raise_form _ _ _ _).placed
    · exact .modifyUnit _ _ _
    · exact .refl s
  · exact .refl s

theorem placeFuel_form (n : Nat) (s : State) (f : OutFrame) : Placed s (placeFuel n s f) := by
  have hd : ∀ (s t : State) (x : OutFrame), Placed s t →
      Placed s (raise { t with restartDue := t.restartDue || x.restart } .frameDropped x.dest x.kind.code) :=
    fun s t x h => (h.trans ⟨_, _, _, _, _, _, _, _, rfl⟩).trans (raise_form _ _ _ _).placed
  induction n generalizing s f with
  | zero =>
    unfold placeFuel
    dsimp only
    split
    · exact queueJoined_placed _ _
    · split <;> exact hd _ _ _ (queueJoined_placed _ _)
  | succ n ih =>
    unfold placeFuel
    dsimp only
    split
    · exact queueJoined_placed _ _
    · split
      · exact (hd _ _ _ (queueJoined_placed _ _)).trans (windowEnd_form _ (fun s f => ih s f) _ _)
      · exact hd _ _ _ (queueJoined_placed _ _)

/-- Placing a frame changes the outbound queue, the transmitter's side where it takes the frame and, by what it drops, the
event queue, the units and the restart mark (R8, R9, R10, R22, R172). -/
theorem place_form (s : State) (f : OutFrame) : Placed s (place s f) := placeFuel_form 3 s f

@[simp] theorem place_same (s : State) (f : OutFrame) :
    (place s f).pending = s.pending ∧ (place s f).key = s.key ∧ (place s f).inReset = s.inReset ∧
    (place s f).now = s.now ∧ (place s f).txHold = s.txHold ∧ (place s f).lossMarks = s.lossMarks ∧
    (place s f).loop = s.loop ∧ (place s f).watch = s.watch ∧ (place s f).tracks = s.tracks ∧
    (place s f).levers = s.levers ∧ (place s f).lineA = s.lineA ∧ (place s f).lineB = s.lineB ∧
    (place s f).incoming = s.incoming ∧ (place s f).here = s.here ∧ (place s f).exchanges = s.exchanges ∧
    (place s f).obstructionA = s.obstructionA ∧ (place s f).obstructionB = s.obstructionB ∧
    (place s f).sections = s.sections ∧ (place s f).lamps = s.lamps ∧ (place s f).outputs = s.outputs ∧
    (place s f).groupLive = s.groupLive ∧ (place s f).stored = s.stored ∧ (place s f).active = s.active ∧
    (place s f).shadow = s.shadow ∧ (place s f).check = s.check ∧ (place s f).storeOp = s.storeOp ∧
    (place s f).switchHeld = s.switchHeld ∧ (place s f).lastRequester = s.lastRequester ∧ (place s f).part = s.part ∧
    (place s f).resetKind = s.resetKind ∧ (place s f).startTimer = s.startTimer ∧ (place s f).trip = s.trip ∧
    (place s f).freeCount = s.freeCount := by
  obtain ⟨_, _, _, _, _, _, _, _, h⟩ := place_form s f
  rw [h]; and_intros <;> rfl

theorem placeAll_form (s : State) (fs : List OutFrame) : Placed s (placeAll s fs) := by
  induction fs generalizing s with
  | nil => exact .refl s
  | cons f fs ih => exact (place_form s f).trans (ih _)

@[simp] theorem placeAll_same (s : State) (fs : List OutFrame) :
    (placeAll s fs).pending = s.pending ∧ (placeAll s fs).key = s.key ∧ (placeAll s fs).inReset = s.inReset ∧
    (placeAll s fs).now = s.now ∧ (placeAll s fs).txHold = s.txHold ∧ (placeAll s fs).lossMarks = s.lossMarks ∧
    (placeAll s fs).loop = s.loop ∧ (placeAll s fs).watch = s.watch ∧ (placeAll s fs).tracks = s.tracks ∧
    (placeAll s fs).levers = s.levers ∧ (placeAll s fs).lineA = s.lineA ∧ (placeAll s fs).lineB = s.lineB ∧
    (placeAll s fs).incoming = s.incoming ∧ (placeAll s fs).here = s.here ∧ (placeAll s fs).exchanges = s.exchanges ∧
    (placeAll s fs).obstructionA = s.obstructionA ∧ (placeAll s fs).obstructionB = s.obstructionB ∧
    (placeAll s fs).sections = s.sections ∧ (placeAll s fs).lamps = s.lamps ∧ (placeAll s fs).outputs = s.outputs ∧
    (placeAll s fs).groupLive = s.groupLive ∧ (placeAll s fs).stored = s.stored ∧ (placeAll s fs).active = s.active ∧
    (placeAll s fs).shadow = s.shadow ∧ (placeAll s fs).check = s.check ∧ (placeAll s fs).storeOp = s.storeOp ∧
    (placeAll s fs).switchHeld = s.switchHeld ∧ (placeAll s fs).lastRequester = s.lastRequester ∧
    (placeAll s fs).part = s.part ∧ (placeAll s fs).resetKind = s.resetKind ∧
    (placeAll s fs).startTimer = s.startTimer ∧ (placeAll s fs).trip = s.trip ∧
    (placeAll s fs).freeCount = s.freeCount := by
  obtain ⟨_, _, _, _, _, _, _, _, h⟩ := placeAll_form s fs
  rw [h]; and_intros <;> rfl

theorem windowEnd_place_form (s : State) (a : Nat) : Placed s (windowEnd place s a) :=
  windowEnd_form place place_form s a

@[simp] theorem windowEnd_same (s : State) (a : Nat) :
    (windowEnd place s a).pending = s.pending ∧ (windowEnd place s a).key = s.key ∧
    (windowEnd place s a).inReset = s.inReset ∧ (windowEnd place s a).now = s.now ∧
    (windowEnd place s a).txHold = s.txHold ∧ (windowEnd place s a).lossMarks = s.lossMarks ∧
    (windowEnd place s a).loop = s.loop ∧ (windowEnd place s a).watch = s.watch ∧
    (windowEnd place s a).tracks = s.tracks ∧ (windowEnd place s a).levers = s.levers ∧
    (windowEnd place s a).lineA = s.lineA ∧ (windowEnd place s a).lineB = s.lineB ∧
    (windowEnd place s a).incoming = s.incoming ∧ (windowEnd place s a).here = s.here ∧
    (windowEnd place s a).exchanges = s.exchanges ∧ (windowEnd place s a).obstructionA = s.obstructionA ∧
    (windowEnd place s a).obstructionB = s.obstructionB ∧ (windowEnd place s a).sections = s.sections ∧
    (windowEnd place s a).lamps = s.lamps ∧ (windowEnd place s a).outputs = s.outputs ∧
    (windowEnd place s a).groupLive = s.groupLive ∧ (windowEnd place s a).stored = s.stored ∧
    (windowEnd place s a).active = s.active ∧ (windowEnd place s a).shadow = s.shadow ∧
    (windowEnd place s a).check = s.check ∧ (windowEnd place s a).storeOp = s.storeOp ∧
    (windowEnd place s a).switchHeld = s.switchHeld ∧ (windowEnd place s a).lastRequester = s.lastRequester ∧
    (windowEnd place s a).part = s.part ∧ (windowEnd place s a).resetKind = s.resetKind ∧
    (windowEnd place s a).startTimer = s.startTimer ∧ (windowEnd place s a).trip = s.trip ∧
    (windowEnd place s a).freeCount = s.freeCount := by
  obtain ⟨_, _, _, _, _, _, _, _, h⟩ := windowEnd_place_form s a
  rw [h]; and_intros <;> rfl

theorem enterProbing_form (s : State) (a : Nat) : Placed s (enterProbing s a) := by
  unfold enterProbing
  split
  · dsimp only
    split
    · exact (Placed.modifyUnit _ _ _).trans (place_form _ _)
    · exact ((Placed.modifyUnit _ _ _).trans (raise_form _ _ _ _).placed).trans (place_form _ _)
  · exact .refl s

@[simp] theorem enterProbing_same (s : State) (a : Nat) :
    (enterProbing s a).pending = s.pending ∧ (enterProbing s a).key = s.key ∧
    (enterProbing s a).inReset = s.inReset ∧ (enterProbing s a).now = s.now ∧ (enterProbing s a).txHold = s.txHold ∧
    (enterProbing s a).lossMarks = s.lossMarks ∧ (enterProbing s a).loop = s.loop ∧
    (enterProbing s a).watch = s.watch ∧ (enterProbing s a).tracks = s.tracks ∧
    (enterProbing s a).levers = s.levers ∧ (enterProbing s a).lineA = s.lineA ∧ (enterProbing s a).lineB = s.lineB ∧
    (enterProbing s a).incoming = s.incoming ∧ (enterProbing s a).here = s.here ∧
    (enterProbing s a).exchanges = s.exchanges ∧ (enterProbing s a).obstructionA = s.obstructionA ∧
    (enterProbing s a).obstructionB = s.obstructionB ∧ (enterProbing s a).sections = s.sections ∧
    (enterProbing s a).lamps = s.lamps ∧ (enterProbing s a).outputs = s.outputs ∧
    (enterProbing s a).groupLive = s.groupLive ∧ (enterProbing s a).stored = s.stored ∧
    (enterProbing s a).active = s.active ∧ (enterProbing s a).shadow = s.shadow ∧
    (enterProbing s a).check = s.check ∧ (enterProbing s a).storeOp = s.storeOp ∧
    (enterProbing s a).switchHeld = s.switchHeld ∧ (enterProbing s a).lastRequester = s.lastRequester ∧
    (enterProbing s a).part = s.part ∧ (enterProbing s a).resetKind = s.resetKind ∧
    (enterProbing s a).startTimer = s.startTimer ∧ (enterProbing s a).trip = s.trip ∧
    (enterProbing s a).freeCount = s.freeCount := by
  obtain ⟨_, _, _, _, _, _, _, _, h⟩ := enterProbing_form s a
  rw [h]; and_intros <;> rfl

/-- Placing a frame where the queue has room only joins it to the queue, or puts its payload in place of its like's (R8). -/
theorem place_room (s : State) (f : OutFrame) (h : s.outQueue.length < Config.outQueueMax) :
    place s f = queueJoined s (queueJoin s.outQueue f).1 := by
  have : (queueJoin s.outQueue f).2 = none := by
    unfold queueJoin; dsimp only; split
    · rfl
    · simp
  simp [place, placeFuel, this]

theorem takeNewest_length {c : Nat} {q : List OutFrame} {g : OutFrame} {k : List OutFrame}
    (h : takeNewest c q = some (g, k)) : q.length = k.length + 1 := by
  induction q generalizing g k with
  | nil => simp [takeNewest] at h
  | cons f q ih =>
    unfold takeNewest at h
    split at h
    · rename_i g' k' h'
      simp only [Option.some.injEq, Prod.mk.injEq] at h
      obtain ⟨rfl, rfl⟩ := h
      simp [ih h']
    · split at h
      · simp only [Option.some.injEq, Prod.mk.injEq] at h
        obtain ⟨_, rfl⟩ := h
        simp
      · simp at h

/-- The outbound queue never holds more than 24 frames (R8). -/
theorem queueJoin_length (q : List OutFrame) (f : OutFrame) (h : q.length ≤ Config.outQueueMax) :
    (queueJoin q f).1.length ≤ Config.outQueueMax := by
  unfold queueJoin
  dsimp only
  split
  · simpa using h
  · split
    · simp; omega
    · split
      · exact h
      · split
        · rename_i g k hk
          have := takeNewest_length hk
          simp; omega
        · split
          · rename_i g k hk
            have := takeNewest_length hk
            simp; omega
          · exact h

/-- The end of an arrival: what the transmitters take (R10, R114). -/
theorem arbiters_form (s : State) :
    ∃ q n x p u r, arbiters s =
      { s with outQueue := q, seq := n, sending := x, pendingReturns := p, units := u, refresh := r,
               lineA := s.lineA.arbiter, lineB := s.lineB.arbiter } := by
  obtain ⟨q, n, x, p, u, r, h⟩ := arbiter_form s
  exact ⟨q, n, x, p, u, r, by simp only [arbiters, h]⟩

@[simp] theorem arbiters_same (s : State) :
    (arbiters s).pending = s.pending ∧ (arbiters s).key = s.key ∧ (arbiters s).inReset = s.inReset ∧
    (arbiters s).now = s.now ∧ (arbiters s).txHold = s.txHold ∧ (arbiters s).lossMarks = s.lossMarks ∧
    (arbiters s).loop = s.loop ∧ (arbiters s).watch = s.watch ∧ (arbiters s).tracks = s.tracks ∧
    (arbiters s).levers = s.levers ∧ (arbiters s).incoming = s.incoming ∧ (arbiters s).here = s.here ∧
    (arbiters s).exchanges = s.exchanges ∧ (arbiters s).obstructionA = s.obstructionA ∧
    (arbiters s).obstructionB = s.obstructionB ∧ (arbiters s).sections = s.sections ∧ (arbiters s).lamps = s.lamps ∧
    (arbiters s).outputs = s.outputs ∧ (arbiters s).groupLive = s.groupLive ∧ (arbiters s).stored = s.stored ∧
    (arbiters s).active = s.active ∧ (arbiters s).shadow = s.shadow ∧ (arbiters s).check = s.check ∧
    (arbiters s).storeOp = s.storeOp ∧ (arbiters s).switchHeld = s.switchHeld ∧
    (arbiters s).restartDue = s.restartDue ∧ (arbiters s).lastRequester = s.lastRequester ∧
    (arbiters s).part = s.part ∧ (arbiters s).resetKind = s.resetKind ∧ (arbiters s).startTimer = s.startTimer ∧
    (arbiters s).trip = s.trip ∧ (arbiters s).events = s.events ∧ (arbiters s).freeCount = s.freeCount := by
  obtain ⟨_, _, _, _, _, _, h⟩ := arbiters_form s
  rw [h]; and_intros <;> rfl

@[simp] theorem arbiters_line (s : State) (l : Line) : (arbiters s).line l = (s.line l).arbiter := by
  obtain ⟨_, _, _, _, _, _, h⟩ := arbiters_form s
  rw [h]; cases l <;> rfl

/-! ### What placing does to units -/

theorem UnitStays.refl (u : UnitRec) : UnitStays u u := by
  unfold UnitStays
  split
  · exact .inl ⟨u.probeCount, u.probeWindow, le_refl _, rfl⟩
  · exact ⟨u.probeWindow, rfl⟩
  · rfl

/-- A PROBING unit's count may rise and its window move. -/
theorem UnitStays.counted {u : UnitRec} (h : u.state = .probing) {n : Nat} (hn : u.probeCount ≤ n) (w : Option Time) :
    UnitStays u { u with probeCount := n, probeWindow := w } := by
  simp only [UnitStays, h]; exact .inl ⟨n, w, hn, rfl⟩

/-- A PROBING unit may become ABSENT. -/
theorem UnitStays.lost {u : UnitRec} (h : u.state = .probing) (w : Option Time) (e : Time) :
    UnitStays u { u with state := .absent, probeCount := 3, probeWindow := w, reprobe := some e, started := true } := by
  simp only [UnitStays, h]; exact .inr ⟨w, e, rfl⟩

/-- An ABSENT unit's window may move. -/
theorem UnitStays.windowed {u : UnitRec} (h : u.state = .absent) (w : Option Time) :
    UnitStays u { u with probeWindow := w } := by
  simp only [UnitStays, h]; exact ⟨w, rfl⟩

theorem UnitStays.unprobed {u v : UnitRec} (h : UnitStays u v) (hp : u.probed = false) : v = u := by
  unfold UnitStays at h
  split at h
  · simp_all [UnitRec.probed]
  · simp_all [UnitRec.probed]
  · exact h

theorem UnitStays.trans {u v w : UnitRec} (h : UnitStays u v) (h' : UnitStays v w) : UnitStays u w := by
  unfold UnitStays at h
  split at h
  · rename_i hs
    rcases h with ⟨n, x, hn, rfl⟩ | ⟨x, e, rfl⟩
    · simp only [UnitStays, hs] at h' ⊢
      rcases h' with ⟨m, y, hm, rfl⟩ | ⟨y, e, rfl⟩
      · exact .inl ⟨m, y, hn.trans hm, rfl⟩
      · exact .inr ⟨y, e, rfl⟩
    · obtain ⟨y, rfl⟩ := h'
      exact .lost hs y e
  · rename_i hs
    obtain ⟨x, rfl⟩ := h
    simp only [UnitStays, hs] at h' ⊢
    obtain ⟨y, rfl⟩ := h'
    exact ⟨y, rfl⟩
  · subst h; exact h'

theorem UnitsStay.refl (s : State) : UnitsStay s s := ⟨rfl, fun _ u h => ⟨u, h, .refl u⟩⟩

theorem UnitsStay.trans {s t r : State} (h : UnitsStay s t) (h' : UnitsStay t r) : UnitsStay s r := by
  refine ⟨h'.1.trans h.1, fun a u hu => ?_⟩
  obtain ⟨v, hv, e⟩ := h.2 a u hu
  obtain ⟨w, hw, e'⟩ := h'.2 a v hv
  exact ⟨w, hw, e.trans e'⟩

theorem UnitsStay.of_units {s t : State} (h : t.units = s.units) : UnitsStay s t :=
  ⟨by rw [h], fun _ u hu => ⟨u, by rw [h]; exact hu, .refl u⟩⟩

/-- A change of one unit's record that is a `UnitStays`. -/
theorem UnitsStay.modify (s : State) (a : Nat) (f : UnitRec → UnitRec)
    (hf : ∀ u, recAt s.units a = some u → UnitStays u (f u)) : UnitsStay s (modifyUnit s a f) := by
  refine ⟨by simp, fun b u hu => ?_⟩
  simp only [modifyUnit_units, recAt_modifyRec, hu]
  split
  · rename_i h; subst h; exact ⟨f u, rfl, hf u hu⟩
  · exact ⟨u, rfl, .refl u⟩

theorem takeFrame_units (s : State) (f : OutFrame) (rest : List OutFrame) : UnitsStay s (takeFrame s f rest) := by
  have hr : ∀ (t : State) (k : FrameKind) (a : Nat), (restartRefresh t k a).units = t.units := by
    intro t k a
    obtain ⟨r, h⟩ := restartRefresh_form t k a
    rw [h]
  unfold takeFrame
  dsimp only
  split
  · refine UnitsStay.trans ?_ (.of_units (hr _ _ _))
    refine UnitsStay.trans (.of_units rfl) (UnitsStay.modify _ f.dest _ ?_)
    intro u _
    by_cases hp : u.probed = true
    · have hp' : (u.state = .probing) ∨ (u.state = .absent) := by simpa [UnitRec.probed] using hp
      rw [startWindow, if_pos hp]
      rcases hp' with h | h
      · exact .counted h (le_refl _) _
      · exact .windowed h _
    · have : u.probed = false := by simpa using hp
      simpa [startWindow, this] using UnitStays.refl u
  · exact UnitsStay.trans (.of_units rfl) (.of_units (hr _ _ _))

theorem arbiter_units (s : State) : UnitsStay s (arbiter s) := by
  unfold arbiter
  split
  · split
    · exact takeFrame_units _ _ _
    · exact .refl s
  · exact .refl s

theorem arbiters_units (s : State) : UnitsStay s (arbiters s) :=
  (arbiter_units s).trans (.of_units rfl)

theorem queueJoined_units (s : State) (k : List OutFrame) : UnitsStay s (queueJoined s k) := by
  unfold queueJoined
  dsimp only
  split
  · exact (UnitsStay.of_units rfl).trans (arbiter_units _)
  · exact .of_units rfl

theorem entriesLeave_units (s : State) (k : List PendingReturn) : UnitsStay s (entriesLeave s k) := by
  unfold entriesLeave
  dsimp only
  split
  · exact .of_units rfl
  · exact (UnitsStay.of_units rfl).trans (arbiter_units _)

theorem windowEnd_units (g : State → OutFrame → State) (hg : ∀ s f, UnitsStay s (g s f)) (s : State) (a : Nat) :
    UnitsStay s (windowEnd g s a) := by
  unfold windowEnd
  split
  · rename_i u hu
    split
    · rename_i hs
      split
      · refine (UnitsStay.modify s a _ ?_).trans (hg _ _)
        intro v hv
        rw [hu] at hv
        obtain rfl : u = v := by simpa using hv
        exact .counted hs (Nat.le_succ _) _
      · refine (UnitsStay.modify s a (fun v =>
          { v with state := .absent, probeWindow := none, probeCount := 3,
                   reprobe := some (s.after Config.reprobeTime), started := true }) ?_).trans (.of_units (by simp))
        intro v hv
        rw [hu] at hv
        obtain rfl : u = v := by simpa using hv
        exact .lost hs _ _
    · rename_i hs
      refine UnitsStay.modify s a _ ?_
      intro v hv
      rw [hu] at hv
      obtain rfl : u = v := by simpa using hv
      exact .windowed hs _
    · exact .refl s
  · exact .refl s

theorem placeFuel_units (n : Nat) (s : State) (f : OutFrame) : UnitsStay s (placeFuel n s f) := by
  have hd : ∀ (s t : State) (x : OutFrame), UnitsStay s t →
      UnitsStay s (raise { t with restartDue := t.restartDue || x.restart } .frameDropped x.dest x.kind.code) :=
    fun s t x h => h.trans (.of_units (by simp))
  induction n generalizing s f with
  | zero =>
    unfold placeFuel
    dsimp only
    split
    · exact queueJoined_units _ _
    · split <;> exact hd _ _ _ (queueJoined_units _ _)
  | succ n ih =>
    unfold placeFuel
    dsimp only
    split
    · exact queueJoined_units _ _
    · split
      · exact (hd _ _ _ (queueJoined_units _ _)).trans (windowEnd_units _ ih _ _)
      · exact hd _ _ _ (queueJoined_units _ _)

theorem place_units (s : State) (f : OutFrame) : UnitsStay s (place s f) := placeFuel_units 3 s f

theorem placeAll_units (s : State) (fs : List OutFrame) : UnitsStay s (placeAll s fs) := by
  induction fs generalizing s with
  | nil => exact .refl s
  | cons f fs ih => exact (place_units s f).trans (ih _)

/-- Only a probe's drop or taking touches units, and only a refreshed command's taking its refresh timer: a frame of class 4
changes neither (R9, R11, R22). -/
theorem place_class4 (s : State) (f : OutFrame) (hc : f.kind.cls = 4) :
    ∃ e q n x p r, place s f =
      { s with events := e, outQueue := q, seq := n, sending := x, pendingReturns := p, restartDue := r } := by
  have hp : f.kind ≠ .identProbe := by intro h; rw [h] at hc; simp [FrameKind.cls] at hc
  have hs : carriesState f.kind = false := by revert hc; cases f.kind <;> simp [FrameKind.cls, carriesState]
  by_cases hl : s.outQueue.length < Config.outQueueMax
  · have hj : (queueJoin s.outQueue f).1 = s.outQueue ++ [f] := by simp [queueJoin, hs, hl]
    rw [place_room s f hl, hj]
    obtain ⟨q, n, x, p, h⟩ := queueJoined_class4 s f hc
    exact ⟨_, q, n, x, p, _, h⟩
  · have hj : queueJoin s.outQueue f = (s.outQueue, some f) := by simp [queueJoin, hs, hl, hc]
    have hw : queueJoined s s.outQueue = s := by
      rw [queueJoined_waits]
      intro h0; simp [h0, Config.outQueueMax] at hl
    simp only [place, placeFuel, hj, hw, if_neg hp]
    obtain ⟨_, _, _, _, _, h⟩ := raise_form { s with restartDue := s.restartDue || f.restart } .frameDropped f.dest f.kind.code
    exact ⟨_, _, _, _, _, _, h⟩

/-- The arbiter of a line moves a message from the queue to the transmitter, and changes nothing else (R114). -/
theorem lineArbiter_form (r : LineRec) : ∃ q m, r.arbiter = { r with queue := q, sending := m } := by
  unfold LineRec.arbiter
  split
  · split
    · exact ⟨_, _, rfl⟩
    · exact ⟨_, _, rfl⟩
  · exact ⟨_, _, rfl⟩

@[simp] theorem lineArbiter_same (r : LineRec) :
    r.arbiter.settings = r.settings ∧ r.arbiter.receiver = r.receiver ∧ r.arbiter.gapStart = r.gapStart ∧
    r.arbiter.discardRun = r.discardRun ∧ r.arbiter.noisyReported = r.noisyReported ∧ r.arbiter.link = r.link ∧
    r.arbiter.linkTimer = r.linkTimer ∧ r.arbiter.firstHeard = r.firstHeard ∧ r.arbiter.statusTimer = r.statusTimer ∧
    r.arbiter.startSeq = r.startSeq ∧ r.arbiter.markHold = r.markHold := by
  obtain ⟨q, m, h⟩ := lineArbiter_form r
  rw [h]; and_intros <;> rfl

/-! ### The transmit queues of the lines -/

/-- Placing a message changes the queue of its line, and what a dropped stroke raises (R113). -/
theorem placeLine_form (s : State) (l : Line) (m : LineMsg) :
    ∃ k, Told (modifyLine s l fun x => { x with queue := k }) (placeLine s l m) := by
  unfold placeLine
  dsimp only
  split
  · exact ⟨_, raise_form _ _ _ _⟩
  · exact ⟨_, .refl _⟩

@[simp] theorem placeLine_same (s : State) (l : Line) (m : LineMsg) :
    (placeLine s l m).pending = s.pending ∧ (placeLine s l m).key = s.key ∧ (placeLine s l m).inReset = s.inReset ∧
    (placeLine s l m).now = s.now ∧ (placeLine s l m).txHold = s.txHold ∧ (placeLine s l m).lossMarks = s.lossMarks ∧
    (placeLine s l m).refresh = s.refresh ∧ (placeLine s l m).loop = s.loop ∧ (placeLine s l m).watch = s.watch ∧
    (placeLine s l m).units = s.units ∧ (placeLine s l m).tracks = s.tracks ∧ (placeLine s l m).levers = s.levers ∧
    (placeLine s l m).incoming = s.incoming ∧ (placeLine s l m).here = s.here ∧
    (placeLine s l m).exchanges = s.exchanges ∧ (placeLine s l m).obstructionA = s.obstructionA ∧
    (placeLine s l m).obstructionB = s.obstructionB ∧ (placeLine s l m).sections = s.sections ∧
    (placeLine s l m).lamps = s.lamps ∧ (placeLine s l m).outputs = s.outputs ∧
    (placeLine s l m).groupLive = s.groupLive ∧ (placeLine s l m).stored = s.stored ∧
    (placeLine s l m).active = s.active ∧ (placeLine s l m).shadow = s.shadow ∧ (placeLine s l m).check = s.check ∧
    (placeLine s l m).storeOp = s.storeOp ∧ (placeLine s l m).switchHeld = s.switchHeld ∧
    (placeLine s l m).restartDue = s.restartDue ∧ (placeLine s l m).lastRequester = s.lastRequester ∧
    (placeLine s l m).part = s.part ∧ (placeLine s l m).resetKind = s.resetKind ∧
    (placeLine s l m).startTimer = s.startTimer ∧ (placeLine s l m).trip = s.trip ∧
    (placeLine s l m).freeCount = s.freeCount := by
  obtain ⟨_, _, _, _, _, _, h⟩ := placeLine_form s l m
  rw [h]; cases l <;> and_intros <;> rfl

theorem placeLine_line (s : State) (l m : Line) (x : LineMsg) :
    ∃ q, (placeLine s l x).line m = { s.line m with queue := q } := by
  obtain ⟨k, _, _, _, _, _, h⟩ := placeLine_form s l x
  rw [h]
  cases l <;> cases m
  · exact ⟨k, rfl⟩
  · exact ⟨s.lineB.queue, rfl⟩
  · exact ⟨s.lineA.queue, rfl⟩
  · exact ⟨k, rfl⟩

theorem LineStays.refl (r : LineRec) : LineStays r r := ⟨_, _, rfl⟩

theorem LineStays.trans {r x y : LineRec} (h : LineStays r x) (h' : LineStays x y) : LineStays r y := by
  obtain ⟨q, m, rfl⟩ := h
  obtain ⟨q', m', rfl⟩ := h'
  exact ⟨q', m', rfl⟩

end Sys2Proof.Machine
end

