-- ==== Sys2Proof/Laws/Conclusion.lean ====
section
/-! SUPPORT. What the end of an arrival can do: LE's conclusion, the settling of the commands, the end of STARTING and the
arbiters; together, `finishWith_concluded`. -/

namespace Sys2Proof.Machine

/-! ### Folds -/

/-- A relation that is kept step by step is kept by a fold. -/
theorem foldl_rel {α : Type} (R : State → State → Prop) (hr : ∀ s, R s s) (ht : ∀ s t r, R s t → R t r → R s r)
    (f : State → α → State) (hf : ∀ s x, R s (f s x)) (l : List α) (s : State) : R s (l.foldl f s) := by
  induction l generalizing s with
  | nil => exact hr s
  | cons x l ih => exact ht _ _ _ (hf s x) (ih _)

/-! ### LE's conclusion -/

theorem cores_recAt {α β : Type} {f : α → β} {r r' : Recs α} (h : cores f r' = cores f r) (n : Nat) :
    (recAt r' n).map f = (recAt r n).map f := by
  have hc : ∀ q : Recs α, recAt (cores f q) n = (recAt q n).map f := fun q => recAt_mapRec q (fun _ => f) n
  rw [← hc, ← hc, h]

theorem cores_numbers {α β : Type} {f : α → β} {r r' : Recs α} (h : cores f r' = cores f r) :
    r'.map Prod.fst = r.map Prod.fst := by
  have := congrArg (List.map Prod.fst) h
  simpa [cores, Function.comp_def] using this

theorem cores_map {α β : Type} (f : α → β) (r : Recs α) (g : Nat → α → α) (h : ∀ p ∈ r, f (g p.1 p.2) = f p.2) :
    cores f (r.map fun p => (p.1, g p.1 p.2)) = cores f r := by
  simp only [cores, List.map_map]
  exact List.map_congr_left fun p hp => by simp [h p hp]

theorem cores_modify {α β : Type} (f : α → β) (r : Recs α) (n : Nat) (g : α → α) (h : ∀ x, f (g x) = f x) :
    cores f (modifyRec r n g) = cores f r := by
  simp only [cores, modifyRec, List.map_map]
  exact List.map_congr_left fun p _ => by by_cases hp : p.1 = n <;> simp [hp, h]

/-- What LE's readings may change: releases, locks, stroke-loss flags, and what a stroke loss raises (R96). -/
def Read (s t : State) : Prop :=
  ∃ l, Told { s with levers := l } t ∧ cores leverCore l = cores leverCore s.levers

theorem Read.refl (s : State) : Read s s := ⟨s.levers, .refl s, rfl⟩

theorem Read.trans {s t r : State} (h : Read s t) (h' : Read t r) : Read s r := by
  obtain ⟨l, ⟨_, _, _, _, _, rfl⟩, hl⟩ := h
  obtain ⟨l', ⟨_, _, _, _, _, rfl⟩, hl'⟩ := h'
  exact ⟨l', ⟨_, _, _, _, _, rfl⟩, hl'.trans hl⟩

/-- A change of the lever records that keeps their cores. -/
theorem Read.levers (s : State) (l : Recs LeverRec) (h : cores leverCore l = cores leverCore s.levers) :
    Read s { s with levers := l } := ⟨l, .refl _, h⟩

/-- The stroke-loss test sets a flag, and raises its event (R79). -/
theorem strokeTest_read (b : Bank) (ended : List (Nat × Position)) (s : State) (n : Nat) :
    Read s (strokeTest b ended s n) := by
  unfold strokeTest
  split
  · split
    · split
      · exact ⟨_, raise_form _ _ _ _, cores_modify _ _ _ _ fun _ => rfl⟩
      · exact .refl s
    · exact .refl s
  · exact .refl s

theorem strokeTests_read (b : Bank) (ended : List (Nat × Position)) (s : State) : Read s (strokeTests b ended s) :=
  foldl_rel Read .refl (fun _ _ _ => .trans) _ (strokeTest_read b ended) _ s

theorem decided_core (s : State) (b : Bank) (n : Nat) (l : LeverRec) : leverCore (decided s b n l) = leverCore l := by
  unfold decided
  dsimp only
  split
  · split <;> rfl
  · split <;> rfl
  · split <;> rfl

theorem decideAll_read (b : Bank) (s : State) : Read s (decideAll b s) :=
  .levers _ _ (cores_map leverCore s.levers (decided s b) fun p _ => decided_core s b p.1 p.2)

theorem leverRounds_read (b : Bank) (ended : List (Nat × Position)) (k : Nat) (s : State) :
    leverRounds b ended k s ≠ [] ∧ ∀ y ∈ leverRounds b ended k s, Read s y := by
  induction k generalizing s with
  | zero => exact ⟨by simp [leverRounds], by simpa [leverRounds] using decideAll_read b s⟩
  | succ k ih =>
    have h1 := decideAll_read b s
    have h2 := strokeTests_read b ended (decideAll b s)
    unfold leverRounds
    dsimp only
    split
    · exact ⟨by simp, by simpa using h1⟩
    · refine ⟨by simp, fun y hy => ?_⟩
      rcases List.mem_cons.1 hy with rfl | hy
      · exact h1
      · exact (h1.trans h2).trans ((ih _).2 y hy)

/-- Every reading of LE changes only releases, locks and stroke-loss flags, and what a stroke loss raises (R96). -/
theorem leverReadings_read (ended : List (Nat × Position)) (s : State) :
    leverReadings ended s ≠ [] ∧ ∀ y ∈ leverReadings ended s, Read s y := by
  unfold leverReadings
  split
  · rename_i b _
    refine ⟨(leverRounds_read b ended _ _).1, fun y hy => .trans ?_ ((leverRounds_read b ended _ _).2 y hy)⟩
    exact .levers _ _ (cores_map leverCore s.levers (fun _ => lockedUnless (s.part = .running)) fun p _ => by
      unfold lockedUnless; split <;> rfl)
  · exact ⟨by simp, by simpa using Read.refl s⟩

theorem getLastD_mem {α : Type} {l : List α} (h : l ≠ []) (d : α) : l.getLastD d ∈ l := by
  rw [List.getLastD_eq_getLast?, List.getLast?_eq_some_getLast h]
  exact List.getLast_mem h

theorem getLastD_append {α : Type} (l : List α) {r : List α} (h : r ≠ []) (d e : α) :
    (l ++ r).getLastD d = r.getLastD e := by
  rw [List.getLastD_eq_getLast?, List.getLastD_eq_getLast?, List.getLast?_append_of_ne_nil _ h,
    List.getLast?_eq_some_getLast h]
  rfl

/-- LE's conclusion changes only releases, locks and stroke-loss flags, and what a stroke loss raises (R96). -/
theorem concludeLevers_read (ended : List (Nat × Position)) (s : State) : Read s (concludeLevers ended s) :=
  (leverReadings_read ended s).2 _ (getLastD_mem (leverReadings_read ended s).1 s)

@[simp] theorem concludeLevers_same (ended : List (Nat × Position)) (s : State) :
    (concludeLevers ended s).pending = s.pending ∧ (concludeLevers ended s).key = s.key ∧
    (concludeLevers ended s).inReset = s.inReset ∧ (concludeLevers ended s).now = s.now ∧
    (concludeLevers ended s).txHold = s.txHold ∧ (concludeLevers ended s).lossMarks = s.lossMarks ∧
    (concludeLevers ended s).refresh = s.refresh ∧ (concludeLevers ended s).loop = s.loop ∧
    (concludeLevers ended s).watch = s.watch ∧ (concludeLevers ended s).units = s.units ∧
    (concludeLevers ended s).tracks = s.tracks ∧ (concludeLevers ended s).lineA = s.lineA ∧
    (concludeLevers ended s).lineB = s.lineB ∧ (concludeLevers ended s).incoming = s.incoming ∧
    (concludeLevers ended s).here = s.here ∧ (concludeLevers ended s).exchanges = s.exchanges ∧
    (concludeLevers ended s).obstructionA = s.obstructionA ∧ (concludeLevers ended s).obstructionB = s.obstructionB ∧
    (concludeLevers ended s).sections = s.sections ∧ (concludeLevers ended s).lamps = s.lamps ∧
    (concludeLevers ended s).outputs = s.outputs ∧ (concludeLevers ended s).groupLive = s.groupLive ∧
    (concludeLevers ended s).stored = s.stored ∧ (concludeLevers ended s).active = s.active ∧
    (concludeLevers ended s).shadow = s.shadow ∧ (concludeLevers ended s).check = s.check ∧
    (concludeLevers ended s).storeOp = s.storeOp ∧ (concludeLevers ended s).switchHeld = s.switchHeld ∧
    (concludeLevers ended s).restartDue = s.restartDue ∧ (concludeLevers ended s).lastRequester = s.lastRequester ∧
    (concludeLevers ended s).part = s.part ∧ (concludeLevers ended s).resetKind = s.resetKind ∧
    (concludeLevers ended s).startTimer = s.startTimer ∧ (concludeLevers ended s).trip = s.trip ∧
    (concludeLevers ended s).freeCount = s.freeCount := by
  obtain ⟨_, ⟨_, _, _, _, _, h⟩, _⟩ := concludeLevers_read ended s
  rw [h]; and_intros <;> rfl

/-- Without a bank in use LE concludes nothing. -/
theorem concludeLevers_none (ended : List (Nat × Position)) (s : State) (h : s.active = none) :
    concludeLevers ended s = s := by simp [concludeLevers, leverReadings, State.bank, h]

/-! ### The settling of the commands -/

/-- What placing commands and messages can change. -/
structure Settled (x t : State) : Prop where
  rest : t = { x with
    units := t.units, lineA := t.lineA, lineB := t.lineB, outputs := t.outputs, events := t.events,
    outQueue := t.outQueue, restartDue := t.restartDue, seq := t.seq, sending := t.sending,
    pendingReturns := t.pendingReturns, refresh := t.refresh }
  units : UnitsStay x t
  lines : LineStays x.lineA t.lineA ∧ LineStays x.lineB t.lineB

theorem Settled.refl (s : State) : Settled s s := ⟨rfl, .refl s, .refl _, .refl _⟩

theorem Settled.trans {s t r : State} (h : Settled s t) (h' : Settled t r) : Settled s r := by
  refine ⟨?_, h.units.trans h'.units, h.lines.1.trans h'.lines.1, h.lines.2.trans h'.lines.2⟩
  have h1 := h.rest
  have h2 := h'.rest
  rw [h1] at h2
  exact h2

theorem place_settled (s : State) (f : OutFrame) : Settled s (place s f) := by
  have hu := place_units s f
  obtain ⟨_, _, _, _, _, _, _, _, h⟩ := place_form s f
  rw [h] at hu ⊢
  exact ⟨rfl, hu, .refl _, .refl _⟩

theorem placeLine_settled (s : State) (l : Line) (m : LineMsg) : Settled s (placeLine s l m) := by
  obtain ⟨k, _, _, _, _, _, h⟩ := placeLine_form s l m
  rw [h]
  cases l
  · exact ⟨rfl, .of_units rfl, ⟨k, _, rfl⟩, .refl _⟩
  · exact ⟨rfl, .of_units rfl, .refl _, ⟨k, _, rfl⟩⟩

theorem instrPlaced_settled (old : State) (b : Bank) (s : State) : Settled s (instrPlaced old b s) := by
  unfold instrPlaced
  refine foldl_rel Settled .refl (fun _ _ _ => .trans) _ (fun t p => ?_) _ _
  split
  · split
    · exact .refl t
    · exact placeLine_settled _ _ _
  · exact .refl t

theorem commandsPlaced_settled (start : State) (stage : List State) (b : Bank) (k : UnitKind) (s : State) :
    Settled s (commandsPlaced start stage b k s) := by
  unfold commandsPlaced
  refine foldl_rel Settled .refl (fun _ _ _ => .trans) _ (fun t a => ?_) _ _
  unfold commandPlaced
  split
  · split
    · exact place_settled _ _
    · exact .refl t
  · exact .refl t

theorem modesComputed_settled (b : Bank) (s : State) : Settled s (modesComputed b s) :=
  ⟨rfl, .of_units rfl, .refl _, .refl _⟩

/-- Settling places commands and messages and computes the modes of the outputs, and changes nothing else. -/
theorem settle_settled (start : State) (stage : List State) (s : State) : Settled s (settle start stage s) := by
  unfold settle
  split
  · rename_i b _
    exact (((instrPlaced_settled start b s).trans (commandsPlaced_settled start _ b .lfu _)).trans
      (commandsPlaced_settled start _ b .iu _)).trans
      ((modesComputed_settled b _).trans (commandsPlaced_settled start _ b .du _))
  · exact .refl s

theorem settlePass_settled (pass : List State) (s : State) : Settled s (settlePass pass s) := by
  unfold settlePass
  split
  · exact (modesComputed_settled _ _).trans
      ((commandsPlaced_settled _ _ _ .lfu _).trans (commandsPlaced_settled _ _ _ .du _))
  · exact .refl s

@[simp] theorem settle_same (old : State) (stage : List State) (s : State) :
    (settle old stage s).pending = s.pending ∧ (settle old stage s).key = s.key ∧ (settle old stage s).inReset = s.inReset ∧
    (settle old stage s).now = s.now ∧ (settle old stage s).txHold = s.txHold ∧ (settle old stage s).lossMarks = s.lossMarks ∧
    (settle old stage s).loop = s.loop ∧ (settle old stage s).watch = s.watch ∧ (settle old stage s).tracks = s.tracks ∧
    (settle old stage s).levers = s.levers ∧ (settle old stage s).incoming = s.incoming ∧ (settle old stage s).here = s.here ∧
    (settle old stage s).exchanges = s.exchanges ∧ (settle old stage s).obstructionA = s.obstructionA ∧
    (settle old stage s).obstructionB = s.obstructionB ∧ (settle old stage s).sections = s.sections ∧
    (settle old stage s).lamps = s.lamps ∧ (settle old stage s).groupLive = s.groupLive ∧ (settle old stage s).stored = s.stored ∧
    (settle old stage s).active = s.active ∧ (settle old stage s).shadow = s.shadow ∧ (settle old stage s).check = s.check ∧
    (settle old stage s).storeOp = s.storeOp ∧ (settle old stage s).switchHeld = s.switchHeld ∧
    (settle old stage s).lastRequester = s.lastRequester ∧ (settle old stage s).part = s.part ∧
    (settle old stage s).resetKind = s.resetKind ∧ (settle old stage s).startTimer = s.startTimer ∧
    (settle old stage s).trip = s.trip ∧ (settle old stage s).freeCount = s.freeCount := by
  have h := (settle_settled old stage s).rest
  rw [h]; and_intros <;> rfl

theorem settle_none (old : State) (stage : List State) (s : State) (h : s.active = none) : settle old stage s = s := by simp [settle, State.bank, h]

/-! ### The end of STARTING, and the alarms -/

theorem raiseAlarm_form (s : State) (p : Nat) (st : LampState) (a : Alarm) (k : Option EventKind) :
    Told s (raiseAlarm s p st a k) := by
  unfold raiseAlarm
  split
  · exact raise_form _ _ _ _
  · exact raise_form _ _ _ _
  · exact .refl s

/-- What judging alarms may change: alarms, and what it raises (R150, R152). -/
def Judged (s t : State) : Prop :=
  ∃ l, Told { s with lamps := l } t ∧ cores lampCore l = cores lampCore s.lamps

theorem Judged.refl (s : State) : Judged s s := ⟨s.lamps, .refl s, rfl⟩

theorem Judged.trans {s t r : State} (h : Judged s t) (h' : Judged t r) : Judged s r := by
  obtain ⟨l, ⟨_, _, _, _, _, rfl⟩, hl⟩ := h
  obtain ⟨l', ⟨_, _, _, _, _, rfl⟩, hl'⟩ := h'
  exact ⟨l', ⟨_, _, _, _, _, rfl⟩, hl'.trans hl⟩

theorem Told.judged {s t : State} (h : Told s t) : Judged s t := ⟨s.lamps, h, rfl⟩

/-- Bringing the alarms into agreement changes alarms, and what it raises (R152). -/
theorem alarmsAgree_judged (s : State) : Judged s (alarmsAgree s) := by
  have hm : ∀ (s : State) (p : Nat) (a : Alarm), Judged s (modifyLamp s p fun r => { r with alarm := a }) :=
    fun s p a => ⟨_, .refl _, cores_modify lampCore s.lamps p (fun r => { r with alarm := a }) fun _ => rfl⟩
  unfold alarmsAgree
  refine foldl_rel Judged .refl (fun _ _ _ => .trans) _ (fun t p => ?_) _ s
  exact (hm t p.1 _).trans (raiseAlarm_form _ _ _ _ _).judged

@[simp] theorem alarmsAgree_same (s : State) :
    (alarmsAgree s).pending = s.pending ∧ (alarmsAgree s).key = s.key ∧ (alarmsAgree s).inReset = s.inReset ∧
    (alarmsAgree s).now = s.now ∧ (alarmsAgree s).txHold = s.txHold ∧ (alarmsAgree s).lossMarks = s.lossMarks ∧
    (alarmsAgree s).refresh = s.refresh ∧ (alarmsAgree s).loop = s.loop ∧ (alarmsAgree s).watch = s.watch ∧
    (alarmsAgree s).units = s.units ∧ (alarmsAgree s).tracks = s.tracks ∧ (alarmsAgree s).levers = s.levers ∧
    (alarmsAgree s).lineA = s.lineA ∧ (alarmsAgree s).lineB = s.lineB ∧ (alarmsAgree s).incoming = s.incoming ∧
    (alarmsAgree s).here = s.here ∧ (alarmsAgree s).exchanges = s.exchanges ∧
    (alarmsAgree s).obstructionA = s.obstructionA ∧ (alarmsAgree s).obstructionB = s.obstructionB ∧
    (alarmsAgree s).sections = s.sections ∧ (alarmsAgree s).outputs = s.outputs ∧
    (alarmsAgree s).groupLive = s.groupLive ∧ (alarmsAgree s).stored = s.stored ∧ (alarmsAgree s).active = s.active ∧
    (alarmsAgree s).shadow = s.shadow ∧ (alarmsAgree s).check = s.check ∧ (alarmsAgree s).storeOp = s.storeOp ∧
    (alarmsAgree s).switchHeld = s.switchHeld ∧ (alarmsAgree s).restartDue = s.restartDue ∧
    (alarmsAgree s).lastRequester = s.lastRequester ∧ (alarmsAgree s).part = s.part ∧
    (alarmsAgree s).resetKind = s.resetKind ∧ (alarmsAgree s).startTimer = s.startTimer ∧
    (alarmsAgree s).trip = s.trip ∧ (alarmsAgree s).freeCount = s.freeCount := by
  obtain ⟨_, ⟨_, _, _, _, _, h⟩, _⟩ := alarmsAgree_judged s
  rw [h]; and_intros <;> rfl

theorem startingEnds_form (s : State) :
    ∃ l, Told { s with part := .running, startTimer := none, lamps := l } (startingEnds s) ∧
      cores lampCore l = cores lampCore s.lamps := by
  obtain ⟨l, h, hl⟩ := alarmsAgree_judged { s with part := .running, startTimer := none }
  exact ⟨l, h.trans (raise_form _ _ _ _), hl⟩

@[simp] theorem startingEnds_same (s : State) :
    (startingEnds s).pending = s.pending ∧ (startingEnds s).key = s.key ∧ (startingEnds s).inReset = s.inReset ∧
    (startingEnds s).now = s.now ∧ (startingEnds s).txHold = s.txHold ∧ (startingEnds s).lossMarks = s.lossMarks ∧
    (startingEnds s).refresh = s.refresh ∧ (startingEnds s).loop = s.loop ∧ (startingEnds s).watch = s.watch ∧
    (startingEnds s).units = s.units ∧ (startingEnds s).tracks = s.tracks ∧ (startingEnds s).levers = s.levers ∧
    (startingEnds s).lineA = s.lineA ∧ (startingEnds s).lineB = s.lineB ∧ (startingEnds s).incoming = s.incoming ∧
    (startingEnds s).here = s.here ∧ (startingEnds s).exchanges = s.exchanges ∧
    (startingEnds s).obstructionA = s.obstructionA ∧ (startingEnds s).obstructionB = s.obstructionB ∧
    (startingEnds s).sections = s.sections ∧ (startingEnds s).outputs = s.outputs ∧
    (startingEnds s).groupLive = s.groupLive ∧ (startingEnds s).stored = s.stored ∧
    (startingEnds s).active = s.active ∧ (startingEnds s).shadow = s.shadow ∧ (startingEnds s).check = s.check ∧
    (startingEnds s).storeOp = s.storeOp ∧ (startingEnds s).switchHeld = s.switchHeld ∧
    (startingEnds s).restartDue = s.restartDue ∧ (startingEnds s).lastRequester = s.lastRequester ∧
    (startingEnds s).resetKind = s.resetKind ∧ (startingEnds s).trip = s.trip ∧
    (startingEnds s).freeCount = s.freeCount := by
  obtain ⟨_, ⟨_, _, _, _, _, h⟩, _⟩ := startingEnds_form s
  rw [h]; and_intros <;> rfl

@[simp] theorem startingEnds_part (s : State) :
    (startingEnds s).part = .running ∧ (startingEnds s).startTimer = none := by
  obtain ⟨_, ⟨_, _, _, _, _, h⟩, _⟩ := startingEnds_form s
  rw [h]; exact ⟨rfl, rfl⟩

/-- The check for the end of STARTING either does nothing or ends STARTING (R173). -/
theorem startingChecked_cases (s : State) :
    startingChecked s = s ∨ (s.part = .starting ∧ s.active.isSome = true ∧ startingChecked s = startingEnds s) := by
  unfold startingChecked
  split
  · rename_i h
    simp only [Bool.and_eq_true, decide_eq_true_eq] at h
    exact .inr ⟨h.1.1, h.1.2, rfl⟩
  · exact .inl rfl

theorem startingChecked_of_part (s : State) (h : s.part ≠ .starting) : startingChecked s = s := by
  simp [startingChecked, h]

/-! ### The whole end of an arrival -/

theorem Concluded.refl (s : State) : Concluded s s :=
  ⟨rfl, rfl, .refl s, ⟨.refl _, .refl _⟩, ⟨rfl, fun _ => rfl⟩, .inl ⟨rfl, rfl⟩⟩

theorem Concluded.trans {x y z : State} (h : Concluded x y) (h' : Concluded y z) : Concluded x z := by
  refine ⟨?_, h'.levers.trans h.levers, h.units.trans h'.units,
    ⟨h.lines.1.trans h'.lines.1, h.lines.2.trans h'.lines.2⟩, ⟨h'.lamps.1.trans h.lamps.1, ?_⟩, ?_⟩
  · have h1 := h.rest
    have h2 := h'.rest
    rw [h1] at h2
    exact h2
  · intro hp
    have : y.part = x.part := by
      rcases h.part with h1 | h1
      · exact h1.1
      · rcases h'.part with h2 | h2
        · rw [hp, h1.1] at h2; rw [← h2.1, h1.1]
        · rw [h1.2.1] at h2; simp at h2
    exact (h'.lamps.2 (hp.trans this.symm)).trans (h.lamps.2 this)
  · rcases h.part with h1 | h1
    · rcases h'.part with h2 | h2
      · exact .inl ⟨h2.1.trans h1.1, h2.2.trans h1.2⟩
      · exact .inr ⟨h1.1.symm.trans h2.1, h2.2⟩
    · rcases h'.part with h2 | h2
      · exact .inr ⟨h1.1, h2.1.trans h1.2.1, h2.2.trans h1.2.2⟩
      · rw [h1.2.1] at h2; simp at h2

theorem concludeLevers_concluded (ended : List (Nat × Position)) (s : State) : Concluded s (concludeLevers ended s) := by
  obtain ⟨l, ⟨_, _, _, _, _, h⟩, hl⟩ := concludeLevers_read ended s
  rw [h]
  exact ⟨rfl, hl, .of_units rfl, ⟨.refl _, .refl _⟩, ⟨rfl, fun _ => rfl⟩, .inl ⟨rfl, rfl⟩⟩

theorem Settled.concluded {s t : State} (h : Settled s t) : Concluded s t := by
  have hr := h.rest
  refine ⟨?_, ?_, h.units, h.lines, ⟨?_, fun _ => ?_⟩, .inl ⟨?_, ?_⟩⟩ <;> (rw [hr])

theorem startingChecked_concluded (s : State) : Concluded s (startingChecked s) := by
  rcases startingChecked_cases s with h | ⟨hp, _, h⟩
  · rw [h]; exact .refl s
  · obtain ⟨l, ⟨_, _, _, _, _, h'⟩, hl⟩ := startingEnds_form s
    rw [h, h']
    refine ⟨rfl, rfl, .of_units rfl, ⟨.refl _, .refl _⟩, ⟨hl, ?_⟩, .inr ⟨hp, rfl, rfl⟩⟩
    intro hq
    rw [hp] at hq
    simp at hq

theorem arbiters_concluded (s : State) : Concluded s (arbiters s) := by
  have hu := arbiters_units s
  obtain ⟨q, n, x, p, u, r, h⟩ := arbiters_form s
  rw [h] at hu ⊢
  exact ⟨rfl, rfl, hu, ⟨lineArbiter_form _, lineArbiter_form _⟩, ⟨rfl, fun _ => rfl⟩, .inl ⟨rfl, rfl⟩⟩

/-- The last of LE's readings: its conclusion, made again where STARTING ends with the arrival (R96, R173). -/
theorem readingsWith_last (ended : List (Nat × Position)) (s d : State) :
    (readingsWith ended s).getLastD d =
      if (startingChecked (concludeLevers ended s)).part = (concludeLevers ended s).part then concludeLevers ended s
      else concludeLevers [] (startingChecked (concludeLevers ended s)) := by
  have hn := fun e x => (leverReadings_read e x).1
  have hd : ∀ e x, ∀ d d' : State, (leverReadings e x).getLastD d = (leverReadings e x).getLastD d' := fun e x d d' => by
    simpa using getLastD_append [] (hn e x) d d'
  unfold readingsWith concludeLevers
  dsimp only
  split
  · exact hd _ _ _ _
  · exact getLastD_append _ (hn _ _) _ _

theorem readingsWith_concluded (ended : List (Nat × Position)) (s d : State) :
    Concluded s ((readingsWith ended s).getLastD d) := by
  have h1 := concludeLevers_concluded ended s
  rw [readingsWith_last]
  split
  · exact h1
  · exact (h1.trans (startingChecked_concluded _)).trans (concludeLevers_concluded [] _)

theorem startingEnded_concluded (s : State) : Concluded s (startingEnded s) := by
  unfold startingEnded
  dsimp only
  split
  · exact .refl s
  · exact ((startingChecked_concluded s).trans (concludeLevers_concluded [] _)).trans (settle_settled _ _ _).concluded

/-- The end of an arrival: `Concluded` says all that it can do. -/
theorem finishWith_concluded (ended : List (Nat × Position)) (pass : List State) (old s : State) :
    Concluded s (finishWith ended pass old s) := by
  unfold finishWith
  exact ((((readingsWith_concluded ended s s).trans (settlePass_settled _ _).concluded).trans
    (settle_settled _ _ _).concluded).trans (startingEnded_concluded _)).trans (arbiters_concluded _)

theorem finish_concluded (old s : State) : Concluded s (finish old s) := finishWith_concluded [] [] old s

@[simp] theorem finishWith_same (ended : List (Nat × Position)) (pass : List State) (old s : State) :
    (finishWith ended pass old s).pending = s.pending ∧ (finishWith ended pass old s).key = s.key ∧
    (finishWith ended pass old s).inReset = s.inReset ∧ (finishWith ended pass old s).now = s.now ∧
    (finishWith ended pass old s).txHold = s.txHold ∧ (finishWith ended pass old s).lossMarks = s.lossMarks ∧
    (finishWith ended pass old s).loop = s.loop ∧ (finishWith ended pass old s).watch = s.watch ∧
    (finishWith ended pass old s).tracks = s.tracks ∧ (finishWith ended pass old s).incoming = s.incoming ∧
    (finishWith ended pass old s).here = s.here ∧ (finishWith ended pass old s).exchanges = s.exchanges ∧
    (finishWith ended pass old s).obstructionA = s.obstructionA ∧ (finishWith ended pass old s).obstructionB = s.obstructionB ∧
    (finishWith ended pass old s).sections = s.sections ∧ (finishWith ended pass old s).groupLive = s.groupLive ∧
    (finishWith ended pass old s).stored = s.stored ∧ (finishWith ended pass old s).active = s.active ∧
    (finishWith ended pass old s).shadow = s.shadow ∧ (finishWith ended pass old s).check = s.check ∧
    (finishWith ended pass old s).storeOp = s.storeOp ∧ (finishWith ended pass old s).switchHeld = s.switchHeld ∧
    (finishWith ended pass old s).lastRequester = s.lastRequester ∧ (finishWith ended pass old s).resetKind = s.resetKind ∧
    (finishWith ended pass old s).trip = s.trip ∧ (finishWith ended pass old s).freeCount = s.freeCount := by
  have h := (finishWith_concluded ended pass old s).rest
  rw [h]; and_intros <;> rfl

@[simp] theorem finish_same (old s : State) :
    (finish old s).pending = s.pending ∧ (finish old s).key = s.key ∧ (finish old s).inReset = s.inReset ∧
    (finish old s).now = s.now ∧ (finish old s).txHold = s.txHold ∧ (finish old s).lossMarks = s.lossMarks ∧
    (finish old s).loop = s.loop ∧ (finish old s).watch = s.watch ∧ (finish old s).tracks = s.tracks ∧
    (finish old s).incoming = s.incoming ∧ (finish old s).here = s.here ∧ (finish old s).exchanges = s.exchanges ∧
    (finish old s).obstructionA = s.obstructionA ∧ (finish old s).obstructionB = s.obstructionB ∧
    (finish old s).sections = s.sections ∧ (finish old s).groupLive = s.groupLive ∧
    (finish old s).stored = s.stored ∧ (finish old s).active = s.active ∧ (finish old s).shadow = s.shadow ∧
    (finish old s).check = s.check ∧ (finish old s).storeOp = s.storeOp ∧ (finish old s).switchHeld = s.switchHeld ∧
    (finish old s).lastRequester = s.lastRequester ∧ (finish old s).resetKind = s.resetKind ∧
    (finish old s).trip = s.trip ∧ (finish old s).freeCount = s.freeCount := by
  have h := (finish_concluded old s).rest
  rw [h]; and_intros <;> rfl

/-- Where the part is not STARTING, the end of an arrival leaves the part state and the lamps. -/
theorem Concluded.steady {x t : State} (h : Concluded x t) (hp : x.part ≠ .starting) :
    t.part = x.part ∧ t.startTimer = x.startTimer ∧ t.lamps = x.lamps := by
  rcases h.part with h1 | h1
  · exact ⟨h1.1, h1.2, h.lamps.2 h1.1⟩
  · exact absurd h1.1 hp

/-- Without a bank in use, an arrival ends with the arbiters alone. -/
theorem finishWith_none (ended : List (Nat × Position)) (pass : List State) (old s : State) (h : s.active = none) :
    finishWith ended pass old s = arbiters s := by
  have hs : startingChecked s = s := by simp [startingChecked, h]
  have hb : s.bank = none := by simp [State.bank, h]
  have hr : readingsWith ended s = [s] := by simp [readingsWith, leverReadings, hb, hs]
  have hp : settlePass pass s = s := by unfold settlePass; split <;> simp_all
  simp [finishWith, startingEnded, hr, hp, settle_none _ _ _ h, hs]

/-- A lever's record over the end of an arrival. -/
theorem Concluded.lever {x t : State} (h : Concluded x t) {n : Nat} {l : LeverRec} (hl : recAt x.levers n = some l) :
    ∃ l', recAt t.levers n = some l' ∧ l'.position = l.position ∧ l'.catchUp = l.catchUp ∧
      l'.violation = l.violation ∧ l'.approach = l.approach := by
  have := cores_recAt h.levers n
  rw [hl] at this
  obtain ⟨l', hl', he⟩ := Option.map_eq_some_iff.1 this
  simp only [leverCore, LeverRec.mk.injEq] at he
  exact ⟨l', hl', by tauto⟩

/-- A lamp's record over the end of an arrival. -/
theorem Concluded.lamp {x t : State} (h : Concluded x t) {n : Nat} {r : LampRec} (hr : recAt x.lamps n = some r) :
    ∃ r', recAt t.lamps n = some r' ∧ r'.state = r.state ∧ r'.last = r.last ∧ r'.current = r.current := by
  have := cores_recAt h.lamps.1 n
  rw [hr] at this
  obtain ⟨r', hr', he⟩ := Option.map_eq_some_iff.1 this
  simp only [lampCore, LampRec.mk.injEq] at he
  exact ⟨r', hr', he.1, he.2.1, he.2.2.1⟩

/-- A unit that does not wait for an answer keeps its record over the end of an arrival. -/
theorem Concluded.unit {x t : State} (h : Concluded x t) {a : Nat} {u : UnitRec} (hu : recAt x.units a = some u)
    (hp : u.probed = false) : recAt t.units a = some u := by
  obtain ⟨v, hv, hs⟩ := h.units.2 a u hu
  rw [hs.unprobed hp] at hv
  exact hv

/-- A line's record over the end of an arrival. -/
theorem Concluded.line {x t : State} (h : Concluded x t) (l : Line) : LineStays (x.line l) (t.line l) := by
  cases l
  · exact h.lines.1
  · exact h.lines.2

end Sys2Proof.Machine
end

