-- ==== Sys2Proof/Laws/Blocks.lean ====
section
/-! SUPPORT. What the operations of the blocks leave: for each operation, a rule for every field that it does not touch. -/

namespace Sys2Proof.Machine


@[simp] theorem State.requestedBy_same (s : State) (a : Nat) :
    (s.requestedBy a).pending = s.pending ∧ (s.requestedBy a).key = s.key ∧ (s.requestedBy a).inReset = s.inReset ∧
    (s.requestedBy a).now = s.now ∧ (s.requestedBy a).outQueue = s.outQueue ∧ (s.requestedBy a).seq = s.seq ∧
    (s.requestedBy a).sending = s.sending ∧ (s.requestedBy a).txHold = s.txHold ∧
    (s.requestedBy a).pendingReturns = s.pendingReturns ∧ (s.requestedBy a).lossMarks = s.lossMarks ∧
    (s.requestedBy a).refresh = s.refresh ∧ (s.requestedBy a).loop = s.loop ∧ (s.requestedBy a).watch = s.watch ∧
    (s.requestedBy a).units = s.units ∧ (s.requestedBy a).tracks = s.tracks ∧ (s.requestedBy a).levers = s.levers ∧
    (s.requestedBy a).lineA = s.lineA ∧ (s.requestedBy a).lineB = s.lineB ∧ (s.requestedBy a).incoming = s.incoming ∧
    (s.requestedBy a).here = s.here ∧ (s.requestedBy a).exchanges = s.exchanges ∧
    (s.requestedBy a).obstructionA = s.obstructionA ∧ (s.requestedBy a).obstructionB = s.obstructionB ∧
    (s.requestedBy a).sections = s.sections ∧ (s.requestedBy a).lamps = s.lamps ∧
    (s.requestedBy a).outputs = s.outputs ∧ (s.requestedBy a).groupLive = s.groupLive ∧
    (s.requestedBy a).stored = s.stored ∧ (s.requestedBy a).active = s.active ∧ (s.requestedBy a).shadow = s.shadow ∧
    (s.requestedBy a).check = s.check ∧ (s.requestedBy a).storeOp = s.storeOp ∧
    (s.requestedBy a).switchHeld = s.switchHeld ∧ (s.requestedBy a).restartDue = s.restartDue ∧
    (s.requestedBy a).part = s.part ∧ (s.requestedBy a).resetKind = s.resetKind ∧
    (s.requestedBy a).startTimer = s.startTimer ∧ (s.requestedBy a).trip = s.trip ∧
    (s.requestedBy a).events = s.events ∧ (s.requestedBy a).freeCount = s.freeCount := by and_intros <;> rfl

@[simp] theorem State.sampled_same (s : State) (k : Option Bool) :
    (s.sampled k).pending = s.pending ∧ (s.sampled k).inReset = s.inReset ∧ (s.sampled k).now = s.now ∧
    (s.sampled k).outQueue = s.outQueue ∧ (s.sampled k).seq = s.seq ∧ (s.sampled k).sending = s.sending ∧
    (s.sampled k).txHold = s.txHold ∧ (s.sampled k).pendingReturns = s.pendingReturns ∧
    (s.sampled k).lossMarks = s.lossMarks ∧ (s.sampled k).refresh = s.refresh ∧ (s.sampled k).loop = s.loop ∧
    (s.sampled k).watch = s.watch ∧ (s.sampled k).units = s.units ∧ (s.sampled k).tracks = s.tracks ∧
    (s.sampled k).levers = s.levers ∧ (s.sampled k).lineA = s.lineA ∧ (s.sampled k).lineB = s.lineB ∧
    (s.sampled k).incoming = s.incoming ∧ (s.sampled k).here = s.here ∧ (s.sampled k).exchanges = s.exchanges ∧
    (s.sampled k).obstructionA = s.obstructionA ∧ (s.sampled k).obstructionB = s.obstructionB ∧
    (s.sampled k).sections = s.sections ∧ (s.sampled k).lamps = s.lamps ∧ (s.sampled k).outputs = s.outputs ∧
    (s.sampled k).groupLive = s.groupLive ∧ (s.sampled k).stored = s.stored ∧ (s.sampled k).active = s.active ∧
    (s.sampled k).shadow = s.shadow ∧ (s.sampled k).check = s.check ∧ (s.sampled k).storeOp = s.storeOp ∧
    (s.sampled k).switchHeld = s.switchHeld ∧ (s.sampled k).restartDue = s.restartDue ∧
    (s.sampled k).lastRequester = s.lastRequester ∧ (s.sampled k).part = s.part ∧
    (s.sampled k).resetKind = s.resetKind ∧ (s.sampled k).startTimer = s.startTimer ∧ (s.sampled k).trip = s.trip ∧
    (s.sampled k).events = s.events ∧ (s.sampled k).freeCount = s.freeCount := by and_intros <;> rfl

@[simp] theorem raiseAlarm_same (s : State) (p : Nat) (st : LampState) (a : Alarm) (k : Option EventKind) :
    (raiseAlarm s p st a k).pending = s.pending ∧ (raiseAlarm s p st a k).key = s.key ∧
    (raiseAlarm s p st a k).inReset = s.inReset ∧ (raiseAlarm s p st a k).now = s.now ∧
    (raiseAlarm s p st a k).txHold = s.txHold ∧ (raiseAlarm s p st a k).lossMarks = s.lossMarks ∧
    (raiseAlarm s p st a k).refresh = s.refresh ∧ (raiseAlarm s p st a k).loop = s.loop ∧
    (raiseAlarm s p st a k).watch = s.watch ∧ (raiseAlarm s p st a k).units = s.units ∧
    (raiseAlarm s p st a k).tracks = s.tracks ∧ (raiseAlarm s p st a k).levers = s.levers ∧
    (raiseAlarm s p st a k).lineA = s.lineA ∧ (raiseAlarm s p st a k).lineB = s.lineB ∧
    (raiseAlarm s p st a k).incoming = s.incoming ∧ (raiseAlarm s p st a k).here = s.here ∧
    (raiseAlarm s p st a k).exchanges = s.exchanges ∧ (raiseAlarm s p st a k).obstructionA = s.obstructionA ∧
    (raiseAlarm s p st a k).obstructionB = s.obstructionB ∧ (raiseAlarm s p st a k).sections = s.sections ∧
    (raiseAlarm s p st a k).lamps = s.lamps ∧ (raiseAlarm s p st a k).outputs = s.outputs ∧
    (raiseAlarm s p st a k).groupLive = s.groupLive ∧ (raiseAlarm s p st a k).stored = s.stored ∧
    (raiseAlarm s p st a k).active = s.active ∧ (raiseAlarm s p st a k).shadow = s.shadow ∧
    (raiseAlarm s p st a k).check = s.check ∧ (raiseAlarm s p st a k).storeOp = s.storeOp ∧
    (raiseAlarm s p st a k).switchHeld = s.switchHeld ∧ (raiseAlarm s p st a k).restartDue = s.restartDue ∧
    (raiseAlarm s p st a k).lastRequester = s.lastRequester ∧ (raiseAlarm s p st a k).part = s.part ∧
    (raiseAlarm s p st a k).resetKind = s.resetKind ∧ (raiseAlarm s p st a k).startTimer = s.startTimer ∧
    (raiseAlarm s p st a k).trip = s.trip ∧ (raiseAlarm s p st a k).freeCount = s.freeCount := by
  unfold raiseAlarm
  try dsimp only
  repeat' split
  all_goals simp

@[simp] theorem changeLamp_same (s : State) (p : Nat) (new : LampRec) :
    (changeLamp s p new).pending = s.pending ∧ (changeLamp s p new).key = s.key ∧
    (changeLamp s p new).inReset = s.inReset ∧ (changeLamp s p new).now = s.now ∧
    (changeLamp s p new).txHold = s.txHold ∧ (changeLamp s p new).lossMarks = s.lossMarks ∧
    (changeLamp s p new).refresh = s.refresh ∧ (changeLamp s p new).loop = s.loop ∧
    (changeLamp s p new).watch = s.watch ∧ (changeLamp s p new).units = s.units ∧
    (changeLamp s p new).tracks = s.tracks ∧ (changeLamp s p new).levers = s.levers ∧
    (changeLamp s p new).lineA = s.lineA ∧ (changeLamp s p new).lineB = s.lineB ∧
    (changeLamp s p new).incoming = s.incoming ∧ (changeLamp s p new).here = s.here ∧
    (changeLamp s p new).exchanges = s.exchanges ∧ (changeLamp s p new).obstructionA = s.obstructionA ∧
    (changeLamp s p new).obstructionB = s.obstructionB ∧ (changeLamp s p new).sections = s.sections ∧
    (changeLamp s p new).outputs = s.outputs ∧ (changeLamp s p new).groupLive = s.groupLive ∧
    (changeLamp s p new).stored = s.stored ∧ (changeLamp s p new).active = s.active ∧
    (changeLamp s p new).shadow = s.shadow ∧ (changeLamp s p new).check = s.check ∧
    (changeLamp s p new).storeOp = s.storeOp ∧ (changeLamp s p new).switchHeld = s.switchHeld ∧
    (changeLamp s p new).restartDue = s.restartDue ∧ (changeLamp s p new).lastRequester = s.lastRequester ∧
    (changeLamp s p new).part = s.part ∧ (changeLamp s p new).resetKind = s.resetKind ∧
    (changeLamp s p new).startTimer = s.startTimer ∧ (changeLamp s p new).trip = s.trip ∧
    (changeLamp s p new).freeCount = s.freeCount := by
  unfold changeLamp
  try dsimp only
  repeat' split
  all_goals simp

@[simp] theorem lampTakes_same (s : State) (b : Bank) (p c : Nat) :
    (lampTakes s b p c).pending = s.pending ∧ (lampTakes s b p c).key = s.key ∧
    (lampTakes s b p c).inReset = s.inReset ∧ (lampTakes s b p c).now = s.now ∧
    (lampTakes s b p c).txHold = s.txHold ∧ (lampTakes s b p c).lossMarks = s.lossMarks ∧
    (lampTakes s b p c).refresh = s.refresh ∧ (lampTakes s b p c).loop = s.loop ∧
    (lampTakes s b p c).watch = s.watch ∧ (lampTakes s b p c).units = s.units ∧
    (lampTakes s b p c).tracks = s.tracks ∧ (lampTakes s b p c).levers = s.levers ∧
    (lampTakes s b p c).lineA = s.lineA ∧ (lampTakes s b p c).lineB = s.lineB ∧
    (lampTakes s b p c).incoming = s.incoming ∧ (lampTakes s b p c).here = s.here ∧
    (lampTakes s b p c).exchanges = s.exchanges ∧ (lampTakes s b p c).obstructionA = s.obstructionA ∧
    (lampTakes s b p c).obstructionB = s.obstructionB ∧ (lampTakes s b p c).sections = s.sections ∧
    (lampTakes s b p c).outputs = s.outputs ∧ (lampTakes s b p c).groupLive = s.groupLive ∧
    (lampTakes s b p c).stored = s.stored ∧ (lampTakes s b p c).active = s.active ∧
    (lampTakes s b p c).shadow = s.shadow ∧ (lampTakes s b p c).check = s.check ∧
    (lampTakes s b p c).storeOp = s.storeOp ∧ (lampTakes s b p c).switchHeld = s.switchHeld ∧
    (lampTakes s b p c).restartDue = s.restartDue ∧ (lampTakes s b p c).lastRequester = s.lastRequester ∧
    (lampTakes s b p c).part = s.part ∧ (lampTakes s b p c).resetKind = s.resetKind ∧
    (lampTakes s b p c).startTimer = s.startTimer ∧ (lampTakes s b p c).trip = s.trip ∧
    (lampTakes s b p c).freeCount = s.freeCount := by
  unfold lampTakes
  try dsimp only
  repeat' split
  all_goals simp

@[simp] theorem lampLost_same (s : State) (p : Nat) :
    (lampLost s p).pending = s.pending ∧ (lampLost s p).key = s.key ∧ (lampLost s p).inReset = s.inReset ∧
    (lampLost s p).now = s.now ∧ (lampLost s p).txHold = s.txHold ∧ (lampLost s p).lossMarks = s.lossMarks ∧
    (lampLost s p).refresh = s.refresh ∧ (lampLost s p).loop = s.loop ∧ (lampLost s p).watch = s.watch ∧
    (lampLost s p).units = s.units ∧ (lampLost s p).tracks = s.tracks ∧ (lampLost s p).levers = s.levers ∧
    (lampLost s p).lineA = s.lineA ∧ (lampLost s p).lineB = s.lineB ∧ (lampLost s p).incoming = s.incoming ∧
    (lampLost s p).here = s.here ∧ (lampLost s p).exchanges = s.exchanges ∧
    (lampLost s p).obstructionA = s.obstructionA ∧ (lampLost s p).obstructionB = s.obstructionB ∧
    (lampLost s p).sections = s.sections ∧ (lampLost s p).outputs = s.outputs ∧
    (lampLost s p).groupLive = s.groupLive ∧ (lampLost s p).stored = s.stored ∧ (lampLost s p).active = s.active ∧
    (lampLost s p).shadow = s.shadow ∧ (lampLost s p).check = s.check ∧ (lampLost s p).storeOp = s.storeOp ∧
    (lampLost s p).switchHeld = s.switchHeld ∧ (lampLost s p).restartDue = s.restartDue ∧
    (lampLost s p).lastRequester = s.lastRequester ∧ (lampLost s p).part = s.part ∧
    (lampLost s p).resetKind = s.resetKind ∧ (lampLost s p).startTimer = s.startTimer ∧
    (lampLost s p).trip = s.trip ∧ (lampLost s p).freeCount = s.freeCount := by
  unfold lampLost
  try dsimp only
  repeat' split
  all_goals simp

@[simp] theorem acknowledge_same (s : State) :
    (acknowledge s).pending = s.pending ∧ (acknowledge s).key = s.key ∧ (acknowledge s).inReset = s.inReset ∧
    (acknowledge s).now = s.now ∧ (acknowledge s).outQueue = s.outQueue ∧ (acknowledge s).seq = s.seq ∧
    (acknowledge s).sending = s.sending ∧ (acknowledge s).txHold = s.txHold ∧
    (acknowledge s).pendingReturns = s.pendingReturns ∧ (acknowledge s).lossMarks = s.lossMarks ∧
    (acknowledge s).refresh = s.refresh ∧ (acknowledge s).loop = s.loop ∧ (acknowledge s).watch = s.watch ∧
    (acknowledge s).units = s.units ∧ (acknowledge s).tracks = s.tracks ∧ (acknowledge s).levers = s.levers ∧
    (acknowledge s).lineA = s.lineA ∧ (acknowledge s).lineB = s.lineB ∧ (acknowledge s).incoming = s.incoming ∧
    (acknowledge s).here = s.here ∧ (acknowledge s).exchanges = s.exchanges ∧
    (acknowledge s).obstructionA = s.obstructionA ∧ (acknowledge s).obstructionB = s.obstructionB ∧
    (acknowledge s).sections = s.sections ∧ (acknowledge s).outputs = s.outputs ∧
    (acknowledge s).groupLive = s.groupLive ∧ (acknowledge s).stored = s.stored ∧ (acknowledge s).active = s.active ∧
    (acknowledge s).shadow = s.shadow ∧ (acknowledge s).check = s.check ∧ (acknowledge s).storeOp = s.storeOp ∧
    (acknowledge s).switchHeld = s.switchHeld ∧ (acknowledge s).restartDue = s.restartDue ∧
    (acknowledge s).lastRequester = s.lastRequester ∧ (acknowledge s).part = s.part ∧
    (acknowledge s).resetKind = s.resetKind ∧ (acknowledge s).startTimer = s.startTimer ∧
    (acknowledge s).trip = s.trip ∧ (acknowledge s).events = s.events ∧ (acknowledge s).freeCount = s.freeCount := by
  unfold acknowledge
  try dsimp only
  repeat' split
  all_goals simp

@[simp] theorem farArrives_same (s : State) (b : Bank) (n : Nat) (x : Instrument) :
    (farArrives s b n x).pending = s.pending ∧ (farArrives s b n x).key = s.key ∧
    (farArrives s b n x).inReset = s.inReset ∧ (farArrives s b n x).now = s.now ∧
    (farArrives s b n x).txHold = s.txHold ∧ (farArrives s b n x).lossMarks = s.lossMarks ∧
    (farArrives s b n x).refresh = s.refresh ∧ (farArrives s b n x).loop = s.loop ∧
    (farArrives s b n x).watch = s.watch ∧ (farArrives s b n x).units = s.units ∧
    (farArrives s b n x).tracks = s.tracks ∧ (farArrives s b n x).levers = s.levers ∧
    (farArrives s b n x).lineA = s.lineA ∧ (farArrives s b n x).lineB = s.lineB ∧
    (farArrives s b n x).incoming = s.incoming ∧ (farArrives s b n x).here = s.here ∧
    (farArrives s b n x).exchanges = s.exchanges ∧ (farArrives s b n x).obstructionA = s.obstructionA ∧
    (farArrives s b n x).obstructionB = s.obstructionB ∧ (farArrives s b n x).lamps = s.lamps ∧
    (farArrives s b n x).outputs = s.outputs ∧ (farArrives s b n x).groupLive = s.groupLive ∧
    (farArrives s b n x).stored = s.stored ∧ (farArrives s b n x).active = s.active ∧
    (farArrives s b n x).shadow = s.shadow ∧ (farArrives s b n x).check = s.check ∧
    (farArrives s b n x).storeOp = s.storeOp ∧ (farArrives s b n x).switchHeld = s.switchHeld ∧
    (farArrives s b n x).restartDue = s.restartDue ∧ (farArrives s b n x).lastRequester = s.lastRequester ∧
    (farArrives s b n x).part = s.part ∧ (farArrives s b n x).resetKind = s.resetKind ∧
    (farArrives s b n x).startTimer = s.startTimer ∧ (farArrives s b n x).trip = s.trip ∧
    (farArrives s b n x).freeCount = s.freeCount := by
  unfold farArrives
  try dsimp only
  repeat' split
  all_goals simp

@[simp] theorem farOnChannel_same (s : State) (b : Bank) (l : Line) (c : Nat) (x : Instrument) :
    (farOnChannel s b l c x).pending = s.pending ∧ (farOnChannel s b l c x).key = s.key ∧
    (farOnChannel s b l c x).inReset = s.inReset ∧ (farOnChannel s b l c x).now = s.now ∧
    (farOnChannel s b l c x).txHold = s.txHold ∧ (farOnChannel s b l c x).lossMarks = s.lossMarks ∧
    (farOnChannel s b l c x).refresh = s.refresh ∧ (farOnChannel s b l c x).loop = s.loop ∧
    (farOnChannel s b l c x).watch = s.watch ∧ (farOnChannel s b l c x).units = s.units ∧
    (farOnChannel s b l c x).tracks = s.tracks ∧ (farOnChannel s b l c x).levers = s.levers ∧
    (farOnChannel s b l c x).lineA = s.lineA ∧ (farOnChannel s b l c x).lineB = s.lineB ∧
    (farOnChannel s b l c x).incoming = s.incoming ∧ (farOnChannel s b l c x).here = s.here ∧
    (farOnChannel s b l c x).exchanges = s.exchanges ∧ (farOnChannel s b l c x).obstructionA = s.obstructionA ∧
    (farOnChannel s b l c x).obstructionB = s.obstructionB ∧ (farOnChannel s b l c x).lamps = s.lamps ∧
    (farOnChannel s b l c x).outputs = s.outputs ∧ (farOnChannel s b l c x).groupLive = s.groupLive ∧
    (farOnChannel s b l c x).stored = s.stored ∧ (farOnChannel s b l c x).active = s.active ∧
    (farOnChannel s b l c x).shadow = s.shadow ∧ (farOnChannel s b l c x).check = s.check ∧
    (farOnChannel s b l c x).storeOp = s.storeOp ∧ (farOnChannel s b l c x).switchHeld = s.switchHeld ∧
    (farOnChannel s b l c x).restartDue = s.restartDue ∧ (farOnChannel s b l c x).lastRequester = s.lastRequester ∧
    (farOnChannel s b l c x).part = s.part ∧ (farOnChannel s b l c x).resetKind = s.resetKind ∧
    (farOnChannel s b l c x).startTimer = s.startTimer ∧ (farOnChannel s b l c x).trip = s.trip ∧
    (farOnChannel s b l c x).freeCount = s.freeCount := by
  unfold farOnChannel
  try dsimp only
  repeat' split
  all_goals simp

@[simp] theorem farLost_same (s : State) (b : Bank) (l : Line) :
    (farLost s b l).pending = s.pending ∧ (farLost s b l).key = s.key ∧ (farLost s b l).inReset = s.inReset ∧
    (farLost s b l).now = s.now ∧ (farLost s b l).outQueue = s.outQueue ∧ (farLost s b l).seq = s.seq ∧
    (farLost s b l).sending = s.sending ∧ (farLost s b l).txHold = s.txHold ∧
    (farLost s b l).pendingReturns = s.pendingReturns ∧ (farLost s b l).lossMarks = s.lossMarks ∧
    (farLost s b l).refresh = s.refresh ∧ (farLost s b l).loop = s.loop ∧ (farLost s b l).watch = s.watch ∧
    (farLost s b l).units = s.units ∧ (farLost s b l).tracks = s.tracks ∧ (farLost s b l).levers = s.levers ∧
    (farLost s b l).lineA = s.lineA ∧ (farLost s b l).lineB = s.lineB ∧ (farLost s b l).incoming = s.incoming ∧
    (farLost s b l).here = s.here ∧ (farLost s b l).exchanges = s.exchanges ∧
    (farLost s b l).obstructionA = s.obstructionA ∧ (farLost s b l).obstructionB = s.obstructionB ∧
    (farLost s b l).lamps = s.lamps ∧ (farLost s b l).outputs = s.outputs ∧ (farLost s b l).groupLive = s.groupLive ∧
    (farLost s b l).stored = s.stored ∧ (farLost s b l).active = s.active ∧ (farLost s b l).shadow = s.shadow ∧
    (farLost s b l).check = s.check ∧ (farLost s b l).storeOp = s.storeOp ∧
    (farLost s b l).switchHeld = s.switchHeld ∧ (farLost s b l).restartDue = s.restartDue ∧
    (farLost s b l).lastRequester = s.lastRequester ∧ (farLost s b l).part = s.part ∧
    (farLost s b l).resetKind = s.resetKind ∧ (farLost s b l).startTimer = s.startTimer ∧
    (farLost s b l).trip = s.trip ∧ (farLost s b l).events = s.events ∧ (farLost s b l).freeCount = s.freeCount := by and_intros <;> rfl

@[simp] theorem sectionsOnTracks_same (old : Recs TrackRec) (b : Bank) (s : State) :
    (sectionsOnTracks old b s).pending = s.pending ∧ (sectionsOnTracks old b s).key = s.key ∧
    (sectionsOnTracks old b s).inReset = s.inReset ∧ (sectionsOnTracks old b s).now = s.now ∧
    (sectionsOnTracks old b s).outQueue = s.outQueue ∧ (sectionsOnTracks old b s).seq = s.seq ∧
    (sectionsOnTracks old b s).sending = s.sending ∧ (sectionsOnTracks old b s).txHold = s.txHold ∧
    (sectionsOnTracks old b s).pendingReturns = s.pendingReturns ∧
    (sectionsOnTracks old b s).lossMarks = s.lossMarks ∧ (sectionsOnTracks old b s).refresh = s.refresh ∧
    (sectionsOnTracks old b s).loop = s.loop ∧ (sectionsOnTracks old b s).watch = s.watch ∧
    (sectionsOnTracks old b s).units = s.units ∧ (sectionsOnTracks old b s).tracks = s.tracks ∧
    (sectionsOnTracks old b s).levers = s.levers ∧ (sectionsOnTracks old b s).lineA = s.lineA ∧
    (sectionsOnTracks old b s).lineB = s.lineB ∧ (sectionsOnTracks old b s).incoming = s.incoming ∧
    (sectionsOnTracks old b s).here = s.here ∧ (sectionsOnTracks old b s).exchanges = s.exchanges ∧
    (sectionsOnTracks old b s).obstructionA = s.obstructionA ∧
    (sectionsOnTracks old b s).obstructionB = s.obstructionB ∧ (sectionsOnTracks old b s).lamps = s.lamps ∧
    (sectionsOnTracks old b s).outputs = s.outputs ∧ (sectionsOnTracks old b s).groupLive = s.groupLive ∧
    (sectionsOnTracks old b s).stored = s.stored ∧ (sectionsOnTracks old b s).active = s.active ∧
    (sectionsOnTracks old b s).shadow = s.shadow ∧ (sectionsOnTracks old b s).check = s.check ∧
    (sectionsOnTracks old b s).storeOp = s.storeOp ∧ (sectionsOnTracks old b s).switchHeld = s.switchHeld ∧
    (sectionsOnTracks old b s).restartDue = s.restartDue ∧
    (sectionsOnTracks old b s).lastRequester = s.lastRequester ∧ (sectionsOnTracks old b s).part = s.part ∧
    (sectionsOnTracks old b s).resetKind = s.resetKind ∧ (sectionsOnTracks old b s).startTimer = s.startTimer ∧
    (sectionsOnTracks old b s).trip = s.trip ∧ (sectionsOnTracks old b s).events = s.events ∧
    (sectionsOnTracks old b s).freeCount = s.freeCount := by and_intros <;> rfl

@[simp] theorem takeCommutator_same (s : State) (b : Bank) (n : Nat) (x : Instrument) :
    (takeCommutator s b n x).pending = s.pending ∧ (takeCommutator s b n x).key = s.key ∧
    (takeCommutator s b n x).inReset = s.inReset ∧ (takeCommutator s b n x).now = s.now ∧
    (takeCommutator s b n x).txHold = s.txHold ∧ (takeCommutator s b n x).lossMarks = s.lossMarks ∧
    (takeCommutator s b n x).refresh = s.refresh ∧ (takeCommutator s b n x).loop = s.loop ∧
    (takeCommutator s b n x).watch = s.watch ∧ (takeCommutator s b n x).units = s.units ∧
    (takeCommutator s b n x).tracks = s.tracks ∧ (takeCommutator s b n x).levers = s.levers ∧
    (takeCommutator s b n x).lineA = s.lineA ∧ (takeCommutator s b n x).lineB = s.lineB ∧
    (takeCommutator s b n x).incoming = s.incoming ∧ (takeCommutator s b n x).here = s.here ∧
    (takeCommutator s b n x).obstructionA = s.obstructionA ∧ (takeCommutator s b n x).obstructionB = s.obstructionB ∧
    (takeCommutator s b n x).lamps = s.lamps ∧ (takeCommutator s b n x).outputs = s.outputs ∧
    (takeCommutator s b n x).groupLive = s.groupLive ∧ (takeCommutator s b n x).stored = s.stored ∧
    (takeCommutator s b n x).active = s.active ∧ (takeCommutator s b n x).shadow = s.shadow ∧
    (takeCommutator s b n x).check = s.check ∧ (takeCommutator s b n x).storeOp = s.storeOp ∧
    (takeCommutator s b n x).switchHeld = s.switchHeld ∧ (takeCommutator s b n x).restartDue = s.restartDue ∧
    (takeCommutator s b n x).lastRequester = s.lastRequester ∧ (takeCommutator s b n x).part = s.part ∧
    (takeCommutator s b n x).resetKind = s.resetKind ∧ (takeCommutator s b n x).startTimer = s.startTimer ∧
    (takeCommutator s b n x).trip = s.trip ∧ (takeCommutator s b n x).freeCount = s.freeCount := by
  unfold takeCommutator
  try dsimp only
  repeat' split
  all_goals simp

@[simp] theorem commutatorLost_same (s : State) (n : Nat) :
    (commutatorLost s n).pending = s.pending ∧ (commutatorLost s n).key = s.key ∧
    (commutatorLost s n).inReset = s.inReset ∧ (commutatorLost s n).now = s.now ∧
    (commutatorLost s n).outQueue = s.outQueue ∧ (commutatorLost s n).seq = s.seq ∧
    (commutatorLost s n).sending = s.sending ∧ (commutatorLost s n).txHold = s.txHold ∧
    (commutatorLost s n).pendingReturns = s.pendingReturns ∧ (commutatorLost s n).lossMarks = s.lossMarks ∧
    (commutatorLost s n).refresh = s.refresh ∧ (commutatorLost s n).loop = s.loop ∧
    (commutatorLost s n).watch = s.watch ∧ (commutatorLost s n).units = s.units ∧
    (commutatorLost s n).tracks = s.tracks ∧ (commutatorLost s n).levers = s.levers ∧
    (commutatorLost s n).lineA = s.lineA ∧ (commutatorLost s n).lineB = s.lineB ∧
    (commutatorLost s n).incoming = s.incoming ∧ (commutatorLost s n).here = s.here ∧
    (commutatorLost s n).exchanges = s.exchanges ∧ (commutatorLost s n).obstructionA = s.obstructionA ∧
    (commutatorLost s n).obstructionB = s.obstructionB ∧ (commutatorLost s n).lamps = s.lamps ∧
    (commutatorLost s n).outputs = s.outputs ∧ (commutatorLost s n).groupLive = s.groupLive ∧
    (commutatorLost s n).stored = s.stored ∧ (commutatorLost s n).active = s.active ∧
    (commutatorLost s n).shadow = s.shadow ∧ (commutatorLost s n).check = s.check ∧
    (commutatorLost s n).storeOp = s.storeOp ∧ (commutatorLost s n).switchHeld = s.switchHeld ∧
    (commutatorLost s n).restartDue = s.restartDue ∧ (commutatorLost s n).lastRequester = s.lastRequester ∧
    (commutatorLost s n).part = s.part ∧ (commutatorLost s n).resetKind = s.resetKind ∧
    (commutatorLost s n).startTimer = s.startTimer ∧ (commutatorLost s n).trip = s.trip ∧
    (commutatorLost s n).events = s.events ∧ (commutatorLost s n).freeCount = s.freeCount := by and_intros <;> rfl

@[simp] theorem sectionsTripped_same (s : State) (b : Bank) :
    (sectionsTripped s b).pending = s.pending ∧ (sectionsTripped s b).key = s.key ∧
    (sectionsTripped s b).inReset = s.inReset ∧ (sectionsTripped s b).now = s.now ∧
    (sectionsTripped s b).outQueue = s.outQueue ∧ (sectionsTripped s b).seq = s.seq ∧
    (sectionsTripped s b).sending = s.sending ∧ (sectionsTripped s b).txHold = s.txHold ∧
    (sectionsTripped s b).pendingReturns = s.pendingReturns ∧ (sectionsTripped s b).lossMarks = s.lossMarks ∧
    (sectionsTripped s b).refresh = s.refresh ∧ (sectionsTripped s b).loop = s.loop ∧
    (sectionsTripped s b).watch = s.watch ∧ (sectionsTripped s b).units = s.units ∧
    (sectionsTripped s b).tracks = s.tracks ∧ (sectionsTripped s b).levers = s.levers ∧
    (sectionsTripped s b).lineA = s.lineA ∧ (sectionsTripped s b).lineB = s.lineB ∧
    (sectionsTripped s b).incoming = s.incoming ∧ (sectionsTripped s b).here = s.here ∧
    (sectionsTripped s b).exchanges = s.exchanges ∧ (sectionsTripped s b).obstructionA = s.obstructionA ∧
    (sectionsTripped s b).obstructionB = s.obstructionB ∧ (sectionsTripped s b).lamps = s.lamps ∧
    (sectionsTripped s b).outputs = s.outputs ∧ (sectionsTripped s b).groupLive = s.groupLive ∧
    (sectionsTripped s b).stored = s.stored ∧ (sectionsTripped s b).active = s.active ∧
    (sectionsTripped s b).shadow = s.shadow ∧ (sectionsTripped s b).check = s.check ∧
    (sectionsTripped s b).storeOp = s.storeOp ∧ (sectionsTripped s b).switchHeld = s.switchHeld ∧
    (sectionsTripped s b).restartDue = s.restartDue ∧ (sectionsTripped s b).lastRequester = s.lastRequester ∧
    (sectionsTripped s b).part = s.part ∧ (sectionsTripped s b).resetKind = s.resetKind ∧
    (sectionsTripped s b).startTimer = s.startTimer ∧ (sectionsTripped s b).trip = s.trip ∧
    (sectionsTripped s b).events = s.events ∧ (sectionsTripped s b).freeCount = s.freeCount := by and_intros <;> rfl

@[simp] theorem leverLost_same (s : State) (n : Nat) :
    (leverLost s n).pending = s.pending ∧ (leverLost s n).key = s.key ∧ (leverLost s n).inReset = s.inReset ∧
    (leverLost s n).now = s.now ∧ (leverLost s n).outQueue = s.outQueue ∧ (leverLost s n).seq = s.seq ∧
    (leverLost s n).sending = s.sending ∧ (leverLost s n).txHold = s.txHold ∧
    (leverLost s n).pendingReturns = s.pendingReturns ∧ (leverLost s n).lossMarks = s.lossMarks ∧
    (leverLost s n).refresh = s.refresh ∧ (leverLost s n).loop = s.loop ∧ (leverLost s n).watch = s.watch ∧
    (leverLost s n).units = s.units ∧ (leverLost s n).tracks = s.tracks ∧ (leverLost s n).lineA = s.lineA ∧
    (leverLost s n).lineB = s.lineB ∧ (leverLost s n).incoming = s.incoming ∧ (leverLost s n).here = s.here ∧
    (leverLost s n).exchanges = s.exchanges ∧ (leverLost s n).obstructionA = s.obstructionA ∧
    (leverLost s n).obstructionB = s.obstructionB ∧ (leverLost s n).sections = s.sections ∧
    (leverLost s n).lamps = s.lamps ∧ (leverLost s n).outputs = s.outputs ∧ (leverLost s n).groupLive = s.groupLive ∧
    (leverLost s n).stored = s.stored ∧ (leverLost s n).active = s.active ∧ (leverLost s n).shadow = s.shadow ∧
    (leverLost s n).check = s.check ∧ (leverLost s n).storeOp = s.storeOp ∧
    (leverLost s n).switchHeld = s.switchHeld ∧ (leverLost s n).restartDue = s.restartDue ∧
    (leverLost s n).lastRequester = s.lastRequester ∧ (leverLost s n).part = s.part ∧
    (leverLost s n).resetKind = s.resetKind ∧ (leverLost s n).startTimer = s.startTimer ∧
    (leverLost s n).trip = s.trip ∧ (leverLost s n).events = s.events ∧ (leverLost s n).freeCount = s.freeCount := by and_intros <;> rfl

@[simp] theorem approachEnds_same (old : Recs TrackRec) (b : Bank) (s : State) :
    (approachEnds old b s).pending = s.pending ∧ (approachEnds old b s).key = s.key ∧
    (approachEnds old b s).inReset = s.inReset ∧ (approachEnds old b s).now = s.now ∧
    (approachEnds old b s).outQueue = s.outQueue ∧ (approachEnds old b s).seq = s.seq ∧
    (approachEnds old b s).sending = s.sending ∧ (approachEnds old b s).txHold = s.txHold ∧
    (approachEnds old b s).pendingReturns = s.pendingReturns ∧ (approachEnds old b s).lossMarks = s.lossMarks ∧
    (approachEnds old b s).refresh = s.refresh ∧ (approachEnds old b s).loop = s.loop ∧
    (approachEnds old b s).watch = s.watch ∧ (approachEnds old b s).units = s.units ∧
    (approachEnds old b s).tracks = s.tracks ∧ (approachEnds old b s).lineA = s.lineA ∧
    (approachEnds old b s).lineB = s.lineB ∧ (approachEnds old b s).incoming = s.incoming ∧
    (approachEnds old b s).here = s.here ∧ (approachEnds old b s).exchanges = s.exchanges ∧
    (approachEnds old b s).obstructionA = s.obstructionA ∧ (approachEnds old b s).obstructionB = s.obstructionB ∧
    (approachEnds old b s).sections = s.sections ∧ (approachEnds old b s).lamps = s.lamps ∧
    (approachEnds old b s).outputs = s.outputs ∧ (approachEnds old b s).groupLive = s.groupLive ∧
    (approachEnds old b s).stored = s.stored ∧ (approachEnds old b s).active = s.active ∧
    (approachEnds old b s).shadow = s.shadow ∧ (approachEnds old b s).check = s.check ∧
    (approachEnds old b s).storeOp = s.storeOp ∧ (approachEnds old b s).switchHeld = s.switchHeld ∧
    (approachEnds old b s).restartDue = s.restartDue ∧ (approachEnds old b s).lastRequester = s.lastRequester ∧
    (approachEnds old b s).part = s.part ∧ (approachEnds old b s).resetKind = s.resetKind ∧
    (approachEnds old b s).startTimer = s.startTimer ∧ (approachEnds old b s).trip = s.trip ∧
    (approachEnds old b s).events = s.events ∧ (approachEnds old b s).freeCount = s.freeCount := by and_intros <;> rfl

@[simp] theorem tracksHanded_same (old : Recs TrackRec) (b : Bank) (s : State) :
    (tracksHanded old b s).pending = s.pending ∧ (tracksHanded old b s).key = s.key ∧
    (tracksHanded old b s).inReset = s.inReset ∧ (tracksHanded old b s).now = s.now ∧
    (tracksHanded old b s).outQueue = s.outQueue ∧ (tracksHanded old b s).seq = s.seq ∧
    (tracksHanded old b s).sending = s.sending ∧ (tracksHanded old b s).txHold = s.txHold ∧
    (tracksHanded old b s).pendingReturns = s.pendingReturns ∧ (tracksHanded old b s).lossMarks = s.lossMarks ∧
    (tracksHanded old b s).refresh = s.refresh ∧ (tracksHanded old b s).loop = s.loop ∧
    (tracksHanded old b s).watch = s.watch ∧ (tracksHanded old b s).units = s.units ∧
    (tracksHanded old b s).tracks = s.tracks ∧ (tracksHanded old b s).lineA = s.lineA ∧
    (tracksHanded old b s).lineB = s.lineB ∧ (tracksHanded old b s).incoming = s.incoming ∧
    (tracksHanded old b s).here = s.here ∧ (tracksHanded old b s).exchanges = s.exchanges ∧
    (tracksHanded old b s).obstructionA = s.obstructionA ∧ (tracksHanded old b s).obstructionB = s.obstructionB ∧
    (tracksHanded old b s).lamps = s.lamps ∧ (tracksHanded old b s).outputs = s.outputs ∧
    (tracksHanded old b s).groupLive = s.groupLive ∧ (tracksHanded old b s).stored = s.stored ∧
    (tracksHanded old b s).active = s.active ∧ (tracksHanded old b s).shadow = s.shadow ∧
    (tracksHanded old b s).check = s.check ∧ (tracksHanded old b s).storeOp = s.storeOp ∧
    (tracksHanded old b s).switchHeld = s.switchHeld ∧ (tracksHanded old b s).restartDue = s.restartDue ∧
    (tracksHanded old b s).lastRequester = s.lastRequester ∧ (tracksHanded old b s).part = s.part ∧
    (tracksHanded old b s).resetKind = s.resetKind ∧ (tracksHanded old b s).startTimer = s.startTimer ∧
    (tracksHanded old b s).trip = s.trip ∧ (tracksHanded old b s).events = s.events ∧
    (tracksHanded old b s).freeCount = s.freeCount := by and_intros <;> rfl

theorem trackTakes_told (b : Bank) (x : Sample) (acc : State × List Nat) (t : Nat) :
    ∃ r, Told { acc.1 with tracks := r } (trackTakes b x acc t).1 := by
  unfold trackTakes
  split
  · dsimp only
    split
    · exact ⟨_, raise_form _ _ _ _⟩
    · exact ⟨_, .refl _⟩
  · exact ⟨acc.1.tracks, .refl _⟩

@[simp] theorem trackTakes_same (b : Bank) (x : Sample) (acc : State × List Nat) (t : Nat) :
    ((trackTakes b x acc t).1).pending = acc.1.pending ∧ ((trackTakes b x acc t).1).key = acc.1.key ∧
    ((trackTakes b x acc t).1).inReset = acc.1.inReset ∧ ((trackTakes b x acc t).1).now = acc.1.now ∧
    ((trackTakes b x acc t).1).txHold = acc.1.txHold ∧ ((trackTakes b x acc t).1).lossMarks = acc.1.lossMarks ∧
    ((trackTakes b x acc t).1).refresh = acc.1.refresh ∧ ((trackTakes b x acc t).1).loop = acc.1.loop ∧
    ((trackTakes b x acc t).1).watch = acc.1.watch ∧ ((trackTakes b x acc t).1).units = acc.1.units ∧
    ((trackTakes b x acc t).1).levers = acc.1.levers ∧ ((trackTakes b x acc t).1).lineA = acc.1.lineA ∧
    ((trackTakes b x acc t).1).lineB = acc.1.lineB ∧ ((trackTakes b x acc t).1).incoming = acc.1.incoming ∧
    ((trackTakes b x acc t).1).here = acc.1.here ∧ ((trackTakes b x acc t).1).exchanges = acc.1.exchanges ∧
    ((trackTakes b x acc t).1).obstructionA = acc.1.obstructionA ∧
    ((trackTakes b x acc t).1).obstructionB = acc.1.obstructionB ∧
    ((trackTakes b x acc t).1).sections = acc.1.sections ∧ ((trackTakes b x acc t).1).lamps = acc.1.lamps ∧
    ((trackTakes b x acc t).1).outputs = acc.1.outputs ∧ ((trackTakes b x acc t).1).groupLive = acc.1.groupLive ∧
    ((trackTakes b x acc t).1).stored = acc.1.stored ∧ ((trackTakes b x acc t).1).active = acc.1.active ∧
    ((trackTakes b x acc t).1).shadow = acc.1.shadow ∧ ((trackTakes b x acc t).1).check = acc.1.check ∧
    ((trackTakes b x acc t).1).storeOp = acc.1.storeOp ∧ ((trackTakes b x acc t).1).switchHeld = acc.1.switchHeld ∧
    ((trackTakes b x acc t).1).restartDue = acc.1.restartDue ∧
    ((trackTakes b x acc t).1).lastRequester = acc.1.lastRequester ∧ ((trackTakes b x acc t).1).part = acc.1.part ∧
    ((trackTakes b x acc t).1).resetKind = acc.1.resetKind ∧
    ((trackTakes b x acc t).1).startTimer = acc.1.startTimer ∧ ((trackTakes b x acc t).1).trip = acc.1.trip ∧
    ((trackTakes b x acc t).1).freeCount = acc.1.freeCount := by
  unfold trackTakes
  try dsimp only
  repeat' split
  all_goals simp

@[simp] theorem provingJudged_same (old : Recs TrackRec) (b : Bank) (s : State) :
    (provingJudged old b s).pending = s.pending ∧ (provingJudged old b s).key = s.key ∧
    (provingJudged old b s).inReset = s.inReset ∧ (provingJudged old b s).now = s.now ∧
    (provingJudged old b s).txHold = s.txHold ∧ (provingJudged old b s).lossMarks = s.lossMarks ∧
    (provingJudged old b s).refresh = s.refresh ∧ (provingJudged old b s).loop = s.loop ∧
    (provingJudged old b s).watch = s.watch ∧ (provingJudged old b s).units = s.units ∧
    (provingJudged old b s).levers = s.levers ∧ (provingJudged old b s).lineA = s.lineA ∧
    (provingJudged old b s).lineB = s.lineB ∧ (provingJudged old b s).incoming = s.incoming ∧
    (provingJudged old b s).here = s.here ∧ (provingJudged old b s).exchanges = s.exchanges ∧
    (provingJudged old b s).obstructionA = s.obstructionA ∧ (provingJudged old b s).obstructionB = s.obstructionB ∧
    (provingJudged old b s).sections = s.sections ∧ (provingJudged old b s).lamps = s.lamps ∧
    (provingJudged old b s).outputs = s.outputs ∧ (provingJudged old b s).groupLive = s.groupLive ∧
    (provingJudged old b s).stored = s.stored ∧ (provingJudged old b s).active = s.active ∧
    (provingJudged old b s).shadow = s.shadow ∧ (provingJudged old b s).check = s.check ∧
    (provingJudged old b s).storeOp = s.storeOp ∧ (provingJudged old b s).switchHeld = s.switchHeld ∧
    (provingJudged old b s).restartDue = s.restartDue ∧ (provingJudged old b s).lastRequester = s.lastRequester ∧
    (provingJudged old b s).part = s.part ∧ (provingJudged old b s).resetKind = s.resetKind ∧
    (provingJudged old b s).startTimer = s.startTimer ∧ (provingJudged old b s).trip = s.trip ∧
    (provingJudged old b s).freeCount = s.freeCount := by
  unfold provingJudged
  try dsimp only
  repeat' split
  all_goals simp

@[simp] theorem clearingDecision_same (nb : Recs TrackRec) (b : Bank) (s : State) (t : Nat) :
    (clearingDecision nb b s t).pending = s.pending ∧ (clearingDecision nb b s t).key = s.key ∧
    (clearingDecision nb b s t).inReset = s.inReset ∧ (clearingDecision nb b s t).now = s.now ∧
    (clearingDecision nb b s t).txHold = s.txHold ∧ (clearingDecision nb b s t).lossMarks = s.lossMarks ∧
    (clearingDecision nb b s t).refresh = s.refresh ∧ (clearingDecision nb b s t).loop = s.loop ∧
    (clearingDecision nb b s t).watch = s.watch ∧ (clearingDecision nb b s t).units = s.units ∧
    (clearingDecision nb b s t).levers = s.levers ∧ (clearingDecision nb b s t).lineA = s.lineA ∧
    (clearingDecision nb b s t).lineB = s.lineB ∧ (clearingDecision nb b s t).incoming = s.incoming ∧
    (clearingDecision nb b s t).here = s.here ∧ (clearingDecision nb b s t).exchanges = s.exchanges ∧
    (clearingDecision nb b s t).obstructionA = s.obstructionA ∧
    (clearingDecision nb b s t).obstructionB = s.obstructionB ∧ (clearingDecision nb b s t).sections = s.sections ∧
    (clearingDecision nb b s t).lamps = s.lamps ∧ (clearingDecision nb b s t).outputs = s.outputs ∧
    (clearingDecision nb b s t).groupLive = s.groupLive ∧ (clearingDecision nb b s t).stored = s.stored ∧
    (clearingDecision nb b s t).active = s.active ∧ (clearingDecision nb b s t).shadow = s.shadow ∧
    (clearingDecision nb b s t).check = s.check ∧ (clearingDecision nb b s t).storeOp = s.storeOp ∧
    (clearingDecision nb b s t).switchHeld = s.switchHeld ∧ (clearingDecision nb b s t).restartDue = s.restartDue ∧
    (clearingDecision nb b s t).lastRequester = s.lastRequester ∧ (clearingDecision nb b s t).part = s.part ∧
    (clearingDecision nb b s t).resetKind = s.resetKind ∧ (clearingDecision nb b s t).startTimer = s.startTimer ∧
    (clearingDecision nb b s t).trip = s.trip ∧ (clearingDecision nb b s t).freeCount = s.freeCount := by
  unfold clearingDecision
  try dsimp only
  repeat' split
  all_goals simp

theorem trackTakesAll_same (b : Bank) (bytes : List Byte) (l : List (Nat × Nat)) (acc : State × List Nat) :
    ∃ r, Told { acc.1 with tracks := r } (l.foldl (fun acc p => trackTakes b (sampleAt bytes p.1) acc p.2) acc).1 := by
  induction l generalizing acc with
  | nil => exact ⟨acc.1.tracks, .refl _⟩
  | cons p l ih =>
    obtain ⟨r, h⟩ := ih (trackTakes b (sampleAt bytes p.1) acc p.2)
    obtain ⟨r', h'⟩ := trackTakes_told b (sampleAt bytes p.1) acc p.2
    obtain ⟨_, _, _, _, _, h'⟩ := h'
    rw [h'] at h
    exact ⟨r, .trans ⟨_, _, _, _, _, rfl⟩ h⟩

@[simp] theorem firstPass_same (b : Bank) (a : Nat) (bytes : List Byte) (s : State) :
    ((firstPass b a bytes s).1).pending = s.pending ∧ ((firstPass b a bytes s).1).key = s.key ∧
    ((firstPass b a bytes s).1).inReset = s.inReset ∧ ((firstPass b a bytes s).1).now = s.now ∧
    ((firstPass b a bytes s).1).txHold = s.txHold ∧ ((firstPass b a bytes s).1).lossMarks = s.lossMarks ∧
    ((firstPass b a bytes s).1).refresh = s.refresh ∧ ((firstPass b a bytes s).1).loop = s.loop ∧
    ((firstPass b a bytes s).1).watch = s.watch ∧ ((firstPass b a bytes s).1).units = s.units ∧
    ((firstPass b a bytes s).1).lineA = s.lineA ∧ ((firstPass b a bytes s).1).lineB = s.lineB ∧
    ((firstPass b a bytes s).1).incoming = s.incoming ∧ ((firstPass b a bytes s).1).here = s.here ∧
    ((firstPass b a bytes s).1).exchanges = s.exchanges ∧ ((firstPass b a bytes s).1).obstructionA = s.obstructionA ∧
    ((firstPass b a bytes s).1).obstructionB = s.obstructionB ∧ ((firstPass b a bytes s).1).lamps = s.lamps ∧
    ((firstPass b a bytes s).1).outputs = s.outputs ∧ ((firstPass b a bytes s).1).groupLive = s.groupLive ∧
    ((firstPass b a bytes s).1).stored = s.stored ∧ ((firstPass b a bytes s).1).active = s.active ∧
    ((firstPass b a bytes s).1).shadow = s.shadow ∧ ((firstPass b a bytes s).1).check = s.check ∧
    ((firstPass b a bytes s).1).storeOp = s.storeOp ∧ ((firstPass b a bytes s).1).switchHeld = s.switchHeld ∧
    ((firstPass b a bytes s).1).restartDue = s.restartDue ∧
    ((firstPass b a bytes s).1).lastRequester = s.lastRequester ∧ ((firstPass b a bytes s).1).part = s.part ∧
    ((firstPass b a bytes s).1).resetKind = s.resetKind ∧ ((firstPass b a bytes s).1).startTimer = s.startTimer ∧
    ((firstPass b a bytes s).1).trip = s.trip ∧ ((firstPass b a bytes s).1).freeCount = s.freeCount := by
  unfold firstPass
  obtain ⟨_, _, _, _, _, _, h⟩ := trackTakesAll_same b bytes (b.assignedChannels a) (s, [])
  dsimp only
  simp [h]

@[simp] theorem secondPass_same (b : Bank) (w : List Nat) (s : State) :
    (secondPass b w s).pending = s.pending ∧ (secondPass b w s).key = s.key ∧
    (secondPass b w s).inReset = s.inReset ∧ (secondPass b w s).now = s.now ∧ (secondPass b w s).txHold = s.txHold ∧
    (secondPass b w s).lossMarks = s.lossMarks ∧ (secondPass b w s).refresh = s.refresh ∧
    (secondPass b w s).loop = s.loop ∧ (secondPass b w s).watch = s.watch ∧ (secondPass b w s).units = s.units ∧
    (secondPass b w s).lineA = s.lineA ∧ (secondPass b w s).lineB = s.lineB ∧
    (secondPass b w s).incoming = s.incoming ∧ (secondPass b w s).here = s.here ∧
    (secondPass b w s).exchanges = s.exchanges ∧ (secondPass b w s).obstructionA = s.obstructionA ∧
    (secondPass b w s).obstructionB = s.obstructionB ∧ (secondPass b w s).lamps = s.lamps ∧
    (secondPass b w s).outputs = s.outputs ∧ (secondPass b w s).groupLive = s.groupLive ∧
    (secondPass b w s).stored = s.stored ∧ (secondPass b w s).active = s.active ∧
    (secondPass b w s).shadow = s.shadow ∧ (secondPass b w s).check = s.check ∧
    (secondPass b w s).storeOp = s.storeOp ∧ (secondPass b w s).switchHeld = s.switchHeld ∧
    (secondPass b w s).restartDue = s.restartDue ∧ (secondPass b w s).lastRequester = s.lastRequester ∧
    (secondPass b w s).part = s.part ∧ (secondPass b w s).resetKind = s.resetKind ∧
    (secondPass b w s).startTimer = s.startTimer ∧ (secondPass b w s).trip = s.trip ∧
    (secondPass b w s).freeCount = s.freeCount := by
  have h := foldl_rel (fun s t =>
      t.pending = s.pending ∧ t.key = s.key ∧ t.inReset = s.inReset ∧ t.now = s.now ∧ t.txHold = s.txHold ∧ t.lossMarks = s.lossMarks ∧ t.refresh = s.refresh ∧ t.loop = s.loop ∧ t.watch = s.watch ∧ t.units = s.units ∧
      t.lineA = s.lineA ∧ t.lineB = s.lineB ∧ t.incoming = s.incoming ∧ t.here = s.here ∧
      t.exchanges = s.exchanges ∧ t.obstructionA = s.obstructionA ∧ t.obstructionB = s.obstructionB ∧
      t.lamps = s.lamps ∧ t.outputs = s.outputs ∧ t.groupLive = s.groupLive ∧ t.stored = s.stored ∧
      t.active = s.active ∧ t.shadow = s.shadow ∧ t.check = s.check ∧ t.storeOp = s.storeOp ∧
      t.switchHeld = s.switchHeld ∧ t.restartDue = s.restartDue ∧ t.lastRequester = s.lastRequester ∧
      t.part = s.part ∧ t.resetKind = s.resetKind ∧ t.startTimer = s.startTimer ∧ t.trip = s.trip ∧
      t.freeCount = s.freeCount)
    (fun s => by and_intros <;> rfl) (fun s t r h h' => by simp_all) (clearingDecision s.tracks b) (fun s x => by simp) w s
  simpa [secondPass] using h

@[simp] theorem strokeTaken_same (s : State) (b : Bank) (x : Side) (n : Nat) (d : Bool) :
    (strokeTaken s b x n d).pending = s.pending ∧ (strokeTaken s b x n d).key = s.key ∧
    (strokeTaken s b x n d).inReset = s.inReset ∧ (strokeTaken s b x n d).now = s.now ∧
    (strokeTaken s b x n d).outQueue = s.outQueue ∧ (strokeTaken s b x n d).seq = s.seq ∧
    (strokeTaken s b x n d).sending = s.sending ∧ (strokeTaken s b x n d).txHold = s.txHold ∧
    (strokeTaken s b x n d).pendingReturns = s.pendingReturns ∧ (strokeTaken s b x n d).lossMarks = s.lossMarks ∧
    (strokeTaken s b x n d).refresh = s.refresh ∧ (strokeTaken s b x n d).loop = s.loop ∧
    (strokeTaken s b x n d).watch = s.watch ∧ (strokeTaken s b x n d).units = s.units ∧
    (strokeTaken s b x n d).tracks = s.tracks ∧ (strokeTaken s b x n d).levers = s.levers ∧
    (strokeTaken s b x n d).lineA = s.lineA ∧ (strokeTaken s b x n d).lineB = s.lineB ∧
    (strokeTaken s b x n d).exchanges = s.exchanges ∧ (strokeTaken s b x n d).obstructionA = s.obstructionA ∧
    (strokeTaken s b x n d).obstructionB = s.obstructionB ∧ (strokeTaken s b x n d).sections = s.sections ∧
    (strokeTaken s b x n d).lamps = s.lamps ∧ (strokeTaken s b x n d).outputs = s.outputs ∧
    (strokeTaken s b x n d).groupLive = s.groupLive ∧ (strokeTaken s b x n d).stored = s.stored ∧
    (strokeTaken s b x n d).active = s.active ∧ (strokeTaken s b x n d).shadow = s.shadow ∧
    (strokeTaken s b x n d).check = s.check ∧ (strokeTaken s b x n d).storeOp = s.storeOp ∧
    (strokeTaken s b x n d).switchHeld = s.switchHeld ∧ (strokeTaken s b x n d).restartDue = s.restartDue ∧
    (strokeTaken s b x n d).lastRequester = s.lastRequester ∧ (strokeTaken s b x n d).part = s.part ∧
    (strokeTaken s b x n d).resetKind = s.resetKind ∧ (strokeTaken s b x n d).startTimer = s.startTimer ∧
    (strokeTaken s b x n d).trip = s.trip ∧ (strokeTaken s b x n d).events = s.events ∧
    (strokeTaken s b x n d).freeCount = s.freeCount := by simp [strokeTaken]

@[simp] theorem ringBell_same (s : State) (b : Bank) (n : Nat) :
    (ringBell s b n).pending = s.pending ∧ (ringBell s b n).key = s.key ∧ (ringBell s b n).inReset = s.inReset ∧
    (ringBell s b n).now = s.now ∧ (ringBell s b n).txHold = s.txHold ∧ (ringBell s b n).lossMarks = s.lossMarks ∧
    (ringBell s b n).loop = s.loop ∧ (ringBell s b n).watch = s.watch ∧ (ringBell s b n).tracks = s.tracks ∧
    (ringBell s b n).levers = s.levers ∧ (ringBell s b n).lineA = s.lineA ∧ (ringBell s b n).lineB = s.lineB ∧
    (ringBell s b n).incoming = s.incoming ∧ (ringBell s b n).here = s.here ∧
    (ringBell s b n).exchanges = s.exchanges ∧ (ringBell s b n).obstructionA = s.obstructionA ∧
    (ringBell s b n).obstructionB = s.obstructionB ∧ (ringBell s b n).sections = s.sections ∧
    (ringBell s b n).lamps = s.lamps ∧ (ringBell s b n).outputs = s.outputs ∧
    (ringBell s b n).groupLive = s.groupLive ∧ (ringBell s b n).stored = s.stored ∧
    (ringBell s b n).active = s.active ∧ (ringBell s b n).shadow = s.shadow ∧ (ringBell s b n).check = s.check ∧
    (ringBell s b n).storeOp = s.storeOp ∧ (ringBell s b n).switchHeld = s.switchHeld ∧
    (ringBell s b n).lastRequester = s.lastRequester ∧ (ringBell s b n).part = s.part ∧
    (ringBell s b n).resetKind = s.resetKind ∧ (ringBell s b n).startTimer = s.startTimer ∧
    (ringBell s b n).trip = s.trip ∧ (ringBell s b n).freeCount = s.freeCount := by
  unfold ringBell
  try dsimp only
  repeat' split
  all_goals simp

@[simp] theorem incomingStroke_same (s : State) (b : Bank) (l : Line) (c : Nat) :
    (incomingStroke s b l c).pending = s.pending ∧ (incomingStroke s b l c).key = s.key ∧
    (incomingStroke s b l c).inReset = s.inReset ∧ (incomingStroke s b l c).now = s.now ∧
    (incomingStroke s b l c).txHold = s.txHold ∧ (incomingStroke s b l c).lossMarks = s.lossMarks ∧
    (incomingStroke s b l c).loop = s.loop ∧ (incomingStroke s b l c).watch = s.watch ∧
    (incomingStroke s b l c).tracks = s.tracks ∧ (incomingStroke s b l c).levers = s.levers ∧
    (incomingStroke s b l c).lineA = s.lineA ∧ (incomingStroke s b l c).lineB = s.lineB ∧
    (incomingStroke s b l c).exchanges = s.exchanges ∧ (incomingStroke s b l c).obstructionA = s.obstructionA ∧
    (incomingStroke s b l c).obstructionB = s.obstructionB ∧ (incomingStroke s b l c).sections = s.sections ∧
    (incomingStroke s b l c).lamps = s.lamps ∧ (incomingStroke s b l c).outputs = s.outputs ∧
    (incomingStroke s b l c).groupLive = s.groupLive ∧ (incomingStroke s b l c).stored = s.stored ∧
    (incomingStroke s b l c).active = s.active ∧ (incomingStroke s b l c).shadow = s.shadow ∧
    (incomingStroke s b l c).check = s.check ∧ (incomingStroke s b l c).storeOp = s.storeOp ∧
    (incomingStroke s b l c).switchHeld = s.switchHeld ∧ (incomingStroke s b l c).lastRequester = s.lastRequester ∧
    (incomingStroke s b l c).part = s.part ∧ (incomingStroke s b l c).resetKind = s.resetKind ∧
    (incomingStroke s b l c).startTimer = s.startTimer ∧ (incomingStroke s b l c).trip = s.trip ∧
    (incomingStroke s b l c).freeCount = s.freeCount := by
  unfold incomingStroke
  try dsimp only
  repeat' split
  all_goals simp

@[simp] theorem localStroke_same (s : State) (b : Bank) (n : Nat) :
    (localStroke s b n).pending = s.pending ∧ (localStroke s b n).key = s.key ∧
    (localStroke s b n).inReset = s.inReset ∧ (localStroke s b n).now = s.now ∧
    (localStroke s b n).txHold = s.txHold ∧ (localStroke s b n).lossMarks = s.lossMarks ∧
    (localStroke s b n).refresh = s.refresh ∧ (localStroke s b n).loop = s.loop ∧
    (localStroke s b n).watch = s.watch ∧ (localStroke s b n).units = s.units ∧
    (localStroke s b n).tracks = s.tracks ∧ (localStroke s b n).levers = s.levers ∧
    (localStroke s b n).exchanges = s.exchanges ∧ (localStroke s b n).obstructionA = s.obstructionA ∧
    (localStroke s b n).obstructionB = s.obstructionB ∧ (localStroke s b n).sections = s.sections ∧
    (localStroke s b n).lamps = s.lamps ∧ (localStroke s b n).outputs = s.outputs ∧
    (localStroke s b n).groupLive = s.groupLive ∧ (localStroke s b n).stored = s.stored ∧
    (localStroke s b n).active = s.active ∧ (localStroke s b n).shadow = s.shadow ∧
    (localStroke s b n).check = s.check ∧ (localStroke s b n).storeOp = s.storeOp ∧
    (localStroke s b n).switchHeld = s.switchHeld ∧ (localStroke s b n).restartDue = s.restartDue ∧
    (localStroke s b n).lastRequester = s.lastRequester ∧ (localStroke s b n).part = s.part ∧
    (localStroke s b n).resetKind = s.resetKind ∧ (localStroke s b n).startTimer = s.startTimer ∧
    (localStroke s b n).trip = s.trip ∧ (localStroke s b n).freeCount = s.freeCount := by
  unfold localStroke
  try dsimp only
  repeat' split
  all_goals simp

@[simp] theorem recognisersInvalidated_same (s : State) (b : Bank) (l : Line) :
    (recognisersInvalidated s b l).pending = s.pending ∧ (recognisersInvalidated s b l).key = s.key ∧
    (recognisersInvalidated s b l).inReset = s.inReset ∧ (recognisersInvalidated s b l).now = s.now ∧
    (recognisersInvalidated s b l).outQueue = s.outQueue ∧ (recognisersInvalidated s b l).seq = s.seq ∧
    (recognisersInvalidated s b l).sending = s.sending ∧ (recognisersInvalidated s b l).txHold = s.txHold ∧
    (recognisersInvalidated s b l).pendingReturns = s.pendingReturns ∧
    (recognisersInvalidated s b l).lossMarks = s.lossMarks ∧ (recognisersInvalidated s b l).refresh = s.refresh ∧
    (recognisersInvalidated s b l).loop = s.loop ∧ (recognisersInvalidated s b l).watch = s.watch ∧
    (recognisersInvalidated s b l).units = s.units ∧ (recognisersInvalidated s b l).tracks = s.tracks ∧
    (recognisersInvalidated s b l).levers = s.levers ∧ (recognisersInvalidated s b l).lineA = s.lineA ∧
    (recognisersInvalidated s b l).lineB = s.lineB ∧ (recognisersInvalidated s b l).exchanges = s.exchanges ∧
    (recognisersInvalidated s b l).obstructionA = s.obstructionA ∧
    (recognisersInvalidated s b l).obstructionB = s.obstructionB ∧
    (recognisersInvalidated s b l).sections = s.sections ∧ (recognisersInvalidated s b l).lamps = s.lamps ∧
    (recognisersInvalidated s b l).outputs = s.outputs ∧ (recognisersInvalidated s b l).groupLive = s.groupLive ∧
    (recognisersInvalidated s b l).stored = s.stored ∧ (recognisersInvalidated s b l).active = s.active ∧
    (recognisersInvalidated s b l).shadow = s.shadow ∧ (recognisersInvalidated s b l).check = s.check ∧
    (recognisersInvalidated s b l).storeOp = s.storeOp ∧ (recognisersInvalidated s b l).switchHeld = s.switchHeld ∧
    (recognisersInvalidated s b l).restartDue = s.restartDue ∧
    (recognisersInvalidated s b l).lastRequester = s.lastRequester ∧ (recognisersInvalidated s b l).part = s.part ∧
    (recognisersInvalidated s b l).resetKind = s.resetKind ∧
    (recognisersInvalidated s b l).startTimer = s.startTimer ∧ (recognisersInvalidated s b l).trip = s.trip ∧
    (recognisersInvalidated s b l).events = s.events ∧ (recognisersInvalidated s b l).freeCount = s.freeCount := by and_intros <;> rfl

@[simp] theorem removalAcknowledged_same (s : State) (b : Bank) (n : Nat) (x : Exchange) :
    (removalAcknowledged s b n x).pending = s.pending ∧ (removalAcknowledged s b n x).key = s.key ∧
    (removalAcknowledged s b n x).inReset = s.inReset ∧ (removalAcknowledged s b n x).now = s.now ∧
    (removalAcknowledged s b n x).txHold = s.txHold ∧ (removalAcknowledged s b n x).lossMarks = s.lossMarks ∧
    (removalAcknowledged s b n x).refresh = s.refresh ∧ (removalAcknowledged s b n x).loop = s.loop ∧
    (removalAcknowledged s b n x).watch = s.watch ∧ (removalAcknowledged s b n x).units = s.units ∧
    (removalAcknowledged s b n x).tracks = s.tracks ∧ (removalAcknowledged s b n x).levers = s.levers ∧
    (removalAcknowledged s b n x).lineA = s.lineA ∧ (removalAcknowledged s b n x).lineB = s.lineB ∧
    (removalAcknowledged s b n x).incoming = s.incoming ∧ (removalAcknowledged s b n x).here = s.here ∧
    (removalAcknowledged s b n x).exchanges = s.exchanges ∧ (removalAcknowledged s b n x).sections = s.sections ∧
    (removalAcknowledged s b n x).lamps = s.lamps ∧ (removalAcknowledged s b n x).outputs = s.outputs ∧
    (removalAcknowledged s b n x).groupLive = s.groupLive ∧ (removalAcknowledged s b n x).stored = s.stored ∧
    (removalAcknowledged s b n x).active = s.active ∧ (removalAcknowledged s b n x).shadow = s.shadow ∧
    (removalAcknowledged s b n x).check = s.check ∧ (removalAcknowledged s b n x).storeOp = s.storeOp ∧
    (removalAcknowledged s b n x).switchHeld = s.switchHeld ∧
    (removalAcknowledged s b n x).restartDue = s.restartDue ∧
    (removalAcknowledged s b n x).lastRequester = s.lastRequester ∧ (removalAcknowledged s b n x).part = s.part ∧
    (removalAcknowledged s b n x).resetKind = s.resetKind ∧ (removalAcknowledged s b n x).startTimer = s.startTimer ∧
    (removalAcknowledged s b n x).trip = s.trip ∧ (removalAcknowledged s b n x).freeCount = s.freeCount := by
  unfold removalAcknowledged
  try dsimp only
  repeat' split
  all_goals simp

@[simp] theorem exchangeJudged_same (s : State) (b : Bank) (n : Nat) (o : Origin) (g : List Nat) :
    (exchangeJudged s b n o g).pending = s.pending ∧ (exchangeJudged s b n o g).key = s.key ∧
    (exchangeJudged s b n o g).inReset = s.inReset ∧ (exchangeJudged s b n o g).now = s.now ∧
    (exchangeJudged s b n o g).txHold = s.txHold ∧ (exchangeJudged s b n o g).lossMarks = s.lossMarks ∧
    (exchangeJudged s b n o g).refresh = s.refresh ∧ (exchangeJudged s b n o g).loop = s.loop ∧
    (exchangeJudged s b n o g).watch = s.watch ∧ (exchangeJudged s b n o g).units = s.units ∧
    (exchangeJudged s b n o g).tracks = s.tracks ∧ (exchangeJudged s b n o g).levers = s.levers ∧
    (exchangeJudged s b n o g).lineA = s.lineA ∧ (exchangeJudged s b n o g).lineB = s.lineB ∧
    (exchangeJudged s b n o g).incoming = s.incoming ∧ (exchangeJudged s b n o g).here = s.here ∧
    (exchangeJudged s b n o g).sections = s.sections ∧ (exchangeJudged s b n o g).lamps = s.lamps ∧
    (exchangeJudged s b n o g).outputs = s.outputs ∧ (exchangeJudged s b n o g).groupLive = s.groupLive ∧
    (exchangeJudged s b n o g).stored = s.stored ∧ (exchangeJudged s b n o g).active = s.active ∧
    (exchangeJudged s b n o g).shadow = s.shadow ∧ (exchangeJudged s b n o g).check = s.check ∧
    (exchangeJudged s b n o g).storeOp = s.storeOp ∧ (exchangeJudged s b n o g).switchHeld = s.switchHeld ∧
    (exchangeJudged s b n o g).restartDue = s.restartDue ∧
    (exchangeJudged s b n o g).lastRequester = s.lastRequester ∧ (exchangeJudged s b n o g).part = s.part ∧
    (exchangeJudged s b n o g).resetKind = s.resetKind ∧ (exchangeJudged s b n o g).startTimer = s.startTimer ∧
    (exchangeJudged s b n o g).trip = s.trip ∧ (exchangeJudged s b n o g).freeCount = s.freeCount := by
  unfold exchangeJudged
  try dsimp only
  repeat' split
  all_goals simp

@[simp] theorem obstructionJudged_same (s : State) (b : Bank) (n : Nat) (x : Side) (g : List Nat) :
    (obstructionJudged s b n x g).pending = s.pending ∧ (obstructionJudged s b n x g).key = s.key ∧
    (obstructionJudged s b n x g).inReset = s.inReset ∧ (obstructionJudged s b n x g).now = s.now ∧
    (obstructionJudged s b n x g).txHold = s.txHold ∧ (obstructionJudged s b n x g).lossMarks = s.lossMarks ∧
    (obstructionJudged s b n x g).refresh = s.refresh ∧ (obstructionJudged s b n x g).loop = s.loop ∧
    (obstructionJudged s b n x g).watch = s.watch ∧ (obstructionJudged s b n x g).units = s.units ∧
    (obstructionJudged s b n x g).tracks = s.tracks ∧ (obstructionJudged s b n x g).levers = s.levers ∧
    (obstructionJudged s b n x g).lineA = s.lineA ∧ (obstructionJudged s b n x g).lineB = s.lineB ∧
    (obstructionJudged s b n x g).incoming = s.incoming ∧ (obstructionJudged s b n x g).here = s.here ∧
    (obstructionJudged s b n x g).exchanges = s.exchanges ∧ (obstructionJudged s b n x g).sections = s.sections ∧
    (obstructionJudged s b n x g).lamps = s.lamps ∧ (obstructionJudged s b n x g).outputs = s.outputs ∧
    (obstructionJudged s b n x g).groupLive = s.groupLive ∧ (obstructionJudged s b n x g).stored = s.stored ∧
    (obstructionJudged s b n x g).active = s.active ∧ (obstructionJudged s b n x g).shadow = s.shadow ∧
    (obstructionJudged s b n x g).check = s.check ∧ (obstructionJudged s b n x g).storeOp = s.storeOp ∧
    (obstructionJudged s b n x g).switchHeld = s.switchHeld ∧
    (obstructionJudged s b n x g).restartDue = s.restartDue ∧
    (obstructionJudged s b n x g).lastRequester = s.lastRequester ∧ (obstructionJudged s b n x g).part = s.part ∧
    (obstructionJudged s b n x g).resetKind = s.resetKind ∧ (obstructionJudged s b n x g).startTimer = s.startTimer ∧
    (obstructionJudged s b n x g).trip = s.trip ∧ (obstructionJudged s b n x g).freeCount = s.freeCount := by
  unfold obstructionJudged
  try dsimp only
  repeat' split
  all_goals simp

@[simp] theorem codeCompleted_same (s : State) (b : Bank) (x : Side) (n : Nat) (r : Recogniser) :
    (codeCompleted s b x n r).pending = s.pending ∧ (codeCompleted s b x n r).key = s.key ∧
    (codeCompleted s b x n r).inReset = s.inReset ∧ (codeCompleted s b x n r).now = s.now ∧
    (codeCompleted s b x n r).txHold = s.txHold ∧ (codeCompleted s b x n r).lossMarks = s.lossMarks ∧
    (codeCompleted s b x n r).refresh = s.refresh ∧ (codeCompleted s b x n r).loop = s.loop ∧
    (codeCompleted s b x n r).watch = s.watch ∧ (codeCompleted s b x n r).units = s.units ∧
    (codeCompleted s b x n r).tracks = s.tracks ∧ (codeCompleted s b x n r).levers = s.levers ∧
    (codeCompleted s b x n r).lineA = s.lineA ∧ (codeCompleted s b x n r).lineB = s.lineB ∧
    (codeCompleted s b x n r).sections = s.sections ∧ (codeCompleted s b x n r).lamps = s.lamps ∧
    (codeCompleted s b x n r).outputs = s.outputs ∧ (codeCompleted s b x n r).groupLive = s.groupLive ∧
    (codeCompleted s b x n r).stored = s.stored ∧ (codeCompleted s b x n r).active = s.active ∧
    (codeCompleted s b x n r).shadow = s.shadow ∧ (codeCompleted s b x n r).check = s.check ∧
    (codeCompleted s b x n r).storeOp = s.storeOp ∧ (codeCompleted s b x n r).switchHeld = s.switchHeld ∧
    (codeCompleted s b x n r).restartDue = s.restartDue ∧ (codeCompleted s b x n r).lastRequester = s.lastRequester ∧
    (codeCompleted s b x n r).part = s.part ∧ (codeCompleted s b x n r).resetKind = s.resetKind ∧
    (codeCompleted s b x n r).startTimer = s.startTimer ∧ (codeCompleted s b x n r).trip = s.trip ∧
    (codeCompleted s b x n r).freeCount = s.freeCount := by
  unfold codeCompleted
  try dsimp only
  repeat' split
  all_goals simp

@[simp] theorem discardCounted_same (s : State) (l : Line) :
    (discardCounted s l).pending = s.pending ∧ (discardCounted s l).key = s.key ∧
    (discardCounted s l).inReset = s.inReset ∧ (discardCounted s l).now = s.now ∧
    (discardCounted s l).txHold = s.txHold ∧ (discardCounted s l).lossMarks = s.lossMarks ∧
    (discardCounted s l).refresh = s.refresh ∧ (discardCounted s l).loop = s.loop ∧
    (discardCounted s l).watch = s.watch ∧ (discardCounted s l).units = s.units ∧
    (discardCounted s l).tracks = s.tracks ∧ (discardCounted s l).levers = s.levers ∧
    (discardCounted s l).incoming = s.incoming ∧ (discardCounted s l).here = s.here ∧
    (discardCounted s l).exchanges = s.exchanges ∧ (discardCounted s l).obstructionA = s.obstructionA ∧
    (discardCounted s l).obstructionB = s.obstructionB ∧ (discardCounted s l).sections = s.sections ∧
    (discardCounted s l).lamps = s.lamps ∧ (discardCounted s l).outputs = s.outputs ∧
    (discardCounted s l).groupLive = s.groupLive ∧ (discardCounted s l).stored = s.stored ∧
    (discardCounted s l).active = s.active ∧ (discardCounted s l).shadow = s.shadow ∧
    (discardCounted s l).check = s.check ∧ (discardCounted s l).storeOp = s.storeOp ∧
    (discardCounted s l).switchHeld = s.switchHeld ∧ (discardCounted s l).restartDue = s.restartDue ∧
    (discardCounted s l).lastRequester = s.lastRequester ∧ (discardCounted s l).part = s.part ∧
    (discardCounted s l).resetKind = s.resetKind ∧ (discardCounted s l).startTimer = s.startTimer ∧
    (discardCounted s l).trip = s.trip ∧ (discardCounted s l).freeCount = s.freeCount := by
  unfold discardCounted
  try dsimp only
  repeat' split
  all_goals simp

@[simp] theorem characterTaken_same (s : State) (l : Line) (c : Character) :
    (characterTaken s l c).pending = s.pending ∧ (characterTaken s l c).key = s.key ∧
    (characterTaken s l c).inReset = s.inReset ∧ (characterTaken s l c).now = s.now ∧
    (characterTaken s l c).txHold = s.txHold ∧ (characterTaken s l c).lossMarks = s.lossMarks ∧
    (characterTaken s l c).refresh = s.refresh ∧ (characterTaken s l c).loop = s.loop ∧
    (characterTaken s l c).watch = s.watch ∧ (characterTaken s l c).units = s.units ∧
    (characterTaken s l c).tracks = s.tracks ∧ (characterTaken s l c).levers = s.levers ∧
    (characterTaken s l c).incoming = s.incoming ∧ (characterTaken s l c).here = s.here ∧
    (characterTaken s l c).exchanges = s.exchanges ∧ (characterTaken s l c).obstructionA = s.obstructionA ∧
    (characterTaken s l c).obstructionB = s.obstructionB ∧ (characterTaken s l c).sections = s.sections ∧
    (characterTaken s l c).lamps = s.lamps ∧ (characterTaken s l c).outputs = s.outputs ∧
    (characterTaken s l c).groupLive = s.groupLive ∧ (characterTaken s l c).stored = s.stored ∧
    (characterTaken s l c).active = s.active ∧ (characterTaken s l c).shadow = s.shadow ∧
    (characterTaken s l c).check = s.check ∧ (characterTaken s l c).storeOp = s.storeOp ∧
    (characterTaken s l c).switchHeld = s.switchHeld ∧ (characterTaken s l c).restartDue = s.restartDue ∧
    (characterTaken s l c).lastRequester = s.lastRequester ∧ (characterTaken s l c).part = s.part ∧
    (characterTaken s l c).resetKind = s.resetKind ∧ (characterTaken s l c).startTimer = s.startTimer ∧
    (characterTaken s l c).trip = s.trip ∧ (characterTaken s l c).freeCount = s.freeCount := by
  unfold characterTaken
  try dsimp only
  repeat' split
  all_goals simp

@[simp] theorem linkLost_same (s : State) (b : Option Bank) (l : Line) :
    (linkLost s b l).pending = s.pending ∧ (linkLost s b l).key = s.key ∧ (linkLost s b l).inReset = s.inReset ∧
    (linkLost s b l).now = s.now ∧ (linkLost s b l).txHold = s.txHold ∧ (linkLost s b l).lossMarks = s.lossMarks ∧
    (linkLost s b l).refresh = s.refresh ∧ (linkLost s b l).loop = s.loop ∧ (linkLost s b l).watch = s.watch ∧
    (linkLost s b l).units = s.units ∧ (linkLost s b l).tracks = s.tracks ∧ (linkLost s b l).levers = s.levers ∧
    (linkLost s b l).exchanges = s.exchanges ∧ (linkLost s b l).obstructionA = s.obstructionA ∧
    (linkLost s b l).obstructionB = s.obstructionB ∧ (linkLost s b l).lamps = s.lamps ∧
    (linkLost s b l).outputs = s.outputs ∧ (linkLost s b l).groupLive = s.groupLive ∧
    (linkLost s b l).stored = s.stored ∧ (linkLost s b l).active = s.active ∧ (linkLost s b l).shadow = s.shadow ∧
    (linkLost s b l).check = s.check ∧ (linkLost s b l).storeOp = s.storeOp ∧
    (linkLost s b l).switchHeld = s.switchHeld ∧ (linkLost s b l).restartDue = s.restartDue ∧
    (linkLost s b l).lastRequester = s.lastRequester ∧ (linkLost s b l).part = s.part ∧
    (linkLost s b l).resetKind = s.resetKind ∧ (linkLost s b l).startTimer = s.startTimer ∧
    (linkLost s b l).trip = s.trip ∧ (linkLost s b l).freeCount = s.freeCount := by
  unfold linkLost
  try dsimp only
  repeat' split
  all_goals simp

@[simp] theorem linkHeard_same (s : State) (l : Line) :
    (linkHeard s l).pending = s.pending ∧ (linkHeard s l).key = s.key ∧ (linkHeard s l).inReset = s.inReset ∧
    (linkHeard s l).now = s.now ∧ (linkHeard s l).txHold = s.txHold ∧ (linkHeard s l).lossMarks = s.lossMarks ∧
    (linkHeard s l).refresh = s.refresh ∧ (linkHeard s l).loop = s.loop ∧ (linkHeard s l).watch = s.watch ∧
    (linkHeard s l).units = s.units ∧ (linkHeard s l).tracks = s.tracks ∧ (linkHeard s l).levers = s.levers ∧
    (linkHeard s l).incoming = s.incoming ∧ (linkHeard s l).here = s.here ∧ (linkHeard s l).exchanges = s.exchanges ∧
    (linkHeard s l).obstructionA = s.obstructionA ∧ (linkHeard s l).obstructionB = s.obstructionB ∧
    (linkHeard s l).sections = s.sections ∧ (linkHeard s l).lamps = s.lamps ∧ (linkHeard s l).outputs = s.outputs ∧
    (linkHeard s l).groupLive = s.groupLive ∧ (linkHeard s l).stored = s.stored ∧ (linkHeard s l).active = s.active ∧
    (linkHeard s l).shadow = s.shadow ∧ (linkHeard s l).check = s.check ∧ (linkHeard s l).storeOp = s.storeOp ∧
    (linkHeard s l).switchHeld = s.switchHeld ∧ (linkHeard s l).restartDue = s.restartDue ∧
    (linkHeard s l).lastRequester = s.lastRequester ∧ (linkHeard s l).part = s.part ∧
    (linkHeard s l).resetKind = s.resetKind ∧ (linkHeard s l).startTimer = s.startTimer ∧
    (linkHeard s l).trip = s.trip ∧ (linkHeard s l).freeCount = s.freeCount := by
  unfold linkHeard
  try dsimp only
  repeat' split
  all_goals simp

@[simp] theorem messageHanded_same (s : State) (l : Line) (m : LineMsg) :
    (messageHanded s l m).pending = s.pending ∧ (messageHanded s l m).key = s.key ∧
    (messageHanded s l m).inReset = s.inReset ∧ (messageHanded s l m).now = s.now ∧
    (messageHanded s l m).txHold = s.txHold ∧ (messageHanded s l m).lossMarks = s.lossMarks ∧
    (messageHanded s l m).loop = s.loop ∧ (messageHanded s l m).watch = s.watch ∧
    (messageHanded s l m).tracks = s.tracks ∧ (messageHanded s l m).levers = s.levers ∧
    (messageHanded s l m).exchanges = s.exchanges ∧ (messageHanded s l m).obstructionA = s.obstructionA ∧
    (messageHanded s l m).obstructionB = s.obstructionB ∧ (messageHanded s l m).lamps = s.lamps ∧
    (messageHanded s l m).outputs = s.outputs ∧ (messageHanded s l m).groupLive = s.groupLive ∧
    (messageHanded s l m).stored = s.stored ∧ (messageHanded s l m).active = s.active ∧
    (messageHanded s l m).shadow = s.shadow ∧ (messageHanded s l m).check = s.check ∧
    (messageHanded s l m).storeOp = s.storeOp ∧ (messageHanded s l m).switchHeld = s.switchHeld ∧
    (messageHanded s l m).lastRequester = s.lastRequester ∧ (messageHanded s l m).part = s.part ∧
    (messageHanded s l m).resetKind = s.resetKind ∧ (messageHanded s l m).startTimer = s.startTimer ∧
    (messageHanded s l m).trip = s.trip ∧ (messageHanded s l m).freeCount = s.freeCount := by
  unfold messageHanded
  try dsimp only
  repeat' split
  all_goals simp

@[simp] theorem characterReceived_same (s : State) (l : Line) (c : Character) :
    (characterReceived s l c).pending = s.pending ∧ (characterReceived s l c).key = s.key ∧
    (characterReceived s l c).inReset = s.inReset ∧ (characterReceived s l c).now = s.now ∧
    (characterReceived s l c).txHold = s.txHold ∧ (characterReceived s l c).lossMarks = s.lossMarks ∧
    (characterReceived s l c).loop = s.loop ∧ (characterReceived s l c).watch = s.watch ∧
    (characterReceived s l c).tracks = s.tracks ∧ (characterReceived s l c).levers = s.levers ∧
    (characterReceived s l c).exchanges = s.exchanges ∧ (characterReceived s l c).obstructionA = s.obstructionA ∧
    (characterReceived s l c).obstructionB = s.obstructionB ∧ (characterReceived s l c).lamps = s.lamps ∧
    (characterReceived s l c).outputs = s.outputs ∧ (characterReceived s l c).groupLive = s.groupLive ∧
    (characterReceived s l c).stored = s.stored ∧ (characterReceived s l c).active = s.active ∧
    (characterReceived s l c).shadow = s.shadow ∧ (characterReceived s l c).check = s.check ∧
    (characterReceived s l c).storeOp = s.storeOp ∧ (characterReceived s l c).switchHeld = s.switchHeld ∧
    (characterReceived s l c).lastRequester = s.lastRequester ∧ (characterReceived s l c).part = s.part ∧
    (characterReceived s l c).resetKind = s.resetKind ∧ (characterReceived s l c).startTimer = s.startTimer ∧
    (characterReceived s l c).trip = s.trip ∧ (characterReceived s l c).freeCount = s.freeCount := by
  unfold characterReceived
  try dsimp only
  repeat' split
  all_goals simp

@[simp] theorem messageReceived_same (s : State) (l : Line) (m : LineMsg) :
    (messageReceived s l m).pending = s.pending ∧ (messageReceived s l m).key = s.key ∧
    (messageReceived s l m).inReset = s.inReset ∧ (messageReceived s l m).now = s.now ∧
    (messageReceived s l m).txHold = s.txHold ∧ (messageReceived s l m).lossMarks = s.lossMarks ∧
    (messageReceived s l m).loop = s.loop ∧ (messageReceived s l m).watch = s.watch ∧
    (messageReceived s l m).tracks = s.tracks ∧ (messageReceived s l m).levers = s.levers ∧
    (messageReceived s l m).exchanges = s.exchanges ∧ (messageReceived s l m).obstructionA = s.obstructionA ∧
    (messageReceived s l m).obstructionB = s.obstructionB ∧ (messageReceived s l m).lamps = s.lamps ∧
    (messageReceived s l m).outputs = s.outputs ∧ (messageReceived s l m).groupLive = s.groupLive ∧
    (messageReceived s l m).stored = s.stored ∧ (messageReceived s l m).active = s.active ∧
    (messageReceived s l m).shadow = s.shadow ∧ (messageReceived s l m).check = s.check ∧
    (messageReceived s l m).storeOp = s.storeOp ∧ (messageReceived s l m).switchHeld = s.switchHeld ∧
    (messageReceived s l m).lastRequester = s.lastRequester ∧ (messageReceived s l m).part = s.part ∧
    (messageReceived s l m).resetKind = s.resetKind ∧ (messageReceived s l m).startTimer = s.startTimer ∧
    (messageReceived s l m).trip = s.trip ∧ (messageReceived s l m).freeCount = s.freeCount := by
  unfold messageReceived
  split
  · have h := foldl_rel (fun s t =>
      t.pending = s.pending ∧ t.key = s.key ∧ t.inReset = s.inReset ∧ t.now = s.now ∧ t.txHold = s.txHold ∧ t.lossMarks = s.lossMarks ∧ t.loop = s.loop ∧ t.watch = s.watch ∧
      t.tracks = s.tracks ∧ t.levers = s.levers ∧ t.exchanges = s.exchanges ∧ t.obstructionA = s.obstructionA ∧
      t.obstructionB = s.obstructionB ∧ t.lamps = s.lamps ∧ t.outputs = s.outputs ∧ t.groupLive = s.groupLive ∧
      t.stored = s.stored ∧ t.active = s.active ∧ t.shadow = s.shadow ∧ t.check = s.check ∧ t.storeOp = s.storeOp ∧
      t.switchHeld = s.switchHeld ∧ t.lastRequester = s.lastRequester ∧ t.part = s.part ∧
      t.resetKind = s.resetKind ∧ t.startTimer = s.startTimer ∧ t.trip = s.trip ∧ t.freeCount = s.freeCount)
      (fun s => by and_intros <;> rfl) (fun s t r h h' => by simp_all) (fun s c => characterReceived s l c)
      (fun s x => by simp) (charactersToCome (s.line l).receiver m) (modifyLine s l fun r => { r with markHold := false })
    simpa using h
  · simp

@[simp] theorem lineStarted_same (s : State) (b : Bank) (l : Line) :
    (lineStarted s b l).pending = s.pending ∧ (lineStarted s b l).key = s.key ∧
    (lineStarted s b l).inReset = s.inReset ∧ (lineStarted s b l).now = s.now ∧
    (lineStarted s b l).txHold = s.txHold ∧ (lineStarted s b l).lossMarks = s.lossMarks ∧
    (lineStarted s b l).refresh = s.refresh ∧ (lineStarted s b l).loop = s.loop ∧
    (lineStarted s b l).watch = s.watch ∧ (lineStarted s b l).units = s.units ∧
    (lineStarted s b l).tracks = s.tracks ∧ (lineStarted s b l).levers = s.levers ∧
    (lineStarted s b l).exchanges = s.exchanges ∧ (lineStarted s b l).obstructionA = s.obstructionA ∧
    (lineStarted s b l).obstructionB = s.obstructionB ∧ (lineStarted s b l).lamps = s.lamps ∧
    (lineStarted s b l).outputs = s.outputs ∧ (lineStarted s b l).groupLive = s.groupLive ∧
    (lineStarted s b l).stored = s.stored ∧ (lineStarted s b l).active = s.active ∧
    (lineStarted s b l).shadow = s.shadow ∧ (lineStarted s b l).check = s.check ∧
    (lineStarted s b l).storeOp = s.storeOp ∧ (lineStarted s b l).switchHeld = s.switchHeld ∧
    (lineStarted s b l).restartDue = s.restartDue ∧ (lineStarted s b l).lastRequester = s.lastRequester ∧
    (lineStarted s b l).part = s.part ∧ (lineStarted s b l).resetKind = s.resetKind ∧
    (lineStarted s b l).startTimer = s.startTimer ∧ (lineStarted s b l).trip = s.trip ∧
    (lineStarted s b l).freeCount = s.freeCount := by
  unfold lineStarted
  try dsimp only
  repeat' split
  all_goals simp

@[simp] theorem tracksLost_same (b : Bank) (ts : List Nat) (s : State) :
    (tracksLost b ts s).pending = s.pending ∧ (tracksLost b ts s).key = s.key ∧
    (tracksLost b ts s).inReset = s.inReset ∧ (tracksLost b ts s).now = s.now ∧
    (tracksLost b ts s).outQueue = s.outQueue ∧ (tracksLost b ts s).seq = s.seq ∧
    (tracksLost b ts s).sending = s.sending ∧ (tracksLost b ts s).txHold = s.txHold ∧
    (tracksLost b ts s).pendingReturns = s.pendingReturns ∧ (tracksLost b ts s).lossMarks = s.lossMarks ∧
    (tracksLost b ts s).refresh = s.refresh ∧ (tracksLost b ts s).loop = s.loop ∧
    (tracksLost b ts s).watch = s.watch ∧ (tracksLost b ts s).units = s.units ∧ (tracksLost b ts s).lineA = s.lineA ∧
    (tracksLost b ts s).lineB = s.lineB ∧ (tracksLost b ts s).incoming = s.incoming ∧
    (tracksLost b ts s).here = s.here ∧ (tracksLost b ts s).exchanges = s.exchanges ∧
    (tracksLost b ts s).obstructionA = s.obstructionA ∧ (tracksLost b ts s).obstructionB = s.obstructionB ∧
    (tracksLost b ts s).lamps = s.lamps ∧ (tracksLost b ts s).outputs = s.outputs ∧
    (tracksLost b ts s).groupLive = s.groupLive ∧ (tracksLost b ts s).stored = s.stored ∧
    (tracksLost b ts s).active = s.active ∧ (tracksLost b ts s).shadow = s.shadow ∧
    (tracksLost b ts s).check = s.check ∧ (tracksLost b ts s).storeOp = s.storeOp ∧
    (tracksLost b ts s).switchHeld = s.switchHeld ∧ (tracksLost b ts s).restartDue = s.restartDue ∧
    (tracksLost b ts s).lastRequester = s.lastRequester ∧ (tracksLost b ts s).part = s.part ∧
    (tracksLost b ts s).resetKind = s.resetKind ∧ (tracksLost b ts s).startTimer = s.startTimer ∧
    (tracksLost b ts s).trip = s.trip ∧ (tracksLost b ts s).events = s.events ∧
    (tracksLost b ts s).freeCount = s.freeCount := by simp [tracksLost]

@[simp] theorem objectsLost_same (b : Bank) (k : UnitKind) (ns : List Nat) (s : State) :
    (objectsLost b k ns s).pending = s.pending ∧ (objectsLost b k ns s).key = s.key ∧
    (objectsLost b k ns s).inReset = s.inReset ∧ (objectsLost b k ns s).now = s.now ∧
    (objectsLost b k ns s).txHold = s.txHold ∧ (objectsLost b k ns s).lossMarks = s.lossMarks ∧
    (objectsLost b k ns s).refresh = s.refresh ∧ (objectsLost b k ns s).loop = s.loop ∧
    (objectsLost b k ns s).watch = s.watch ∧ (objectsLost b k ns s).units = s.units ∧
    (objectsLost b k ns s).lineA = s.lineA ∧ (objectsLost b k ns s).lineB = s.lineB ∧
    (objectsLost b k ns s).incoming = s.incoming ∧ (objectsLost b k ns s).here = s.here ∧
    (objectsLost b k ns s).exchanges = s.exchanges ∧ (objectsLost b k ns s).obstructionA = s.obstructionA ∧
    (objectsLost b k ns s).obstructionB = s.obstructionB ∧ (objectsLost b k ns s).outputs = s.outputs ∧
    (objectsLost b k ns s).groupLive = s.groupLive ∧ (objectsLost b k ns s).stored = s.stored ∧
    (objectsLost b k ns s).active = s.active ∧ (objectsLost b k ns s).shadow = s.shadow ∧
    (objectsLost b k ns s).check = s.check ∧ (objectsLost b k ns s).storeOp = s.storeOp ∧
    (objectsLost b k ns s).switchHeld = s.switchHeld ∧ (objectsLost b k ns s).restartDue = s.restartDue ∧
    (objectsLost b k ns s).lastRequester = s.lastRequester ∧ (objectsLost b k ns s).part = s.part ∧
    (objectsLost b k ns s).resetKind = s.resetKind ∧ (objectsLost b k ns s).startTimer = s.startTimer ∧
    (objectsLost b k ns s).trip = s.trip ∧ (objectsLost b k ns s).freeCount = s.freeCount := by
  unfold objectsLost
  split
  · simp
  · exact foldl_rel (fun s t : State =>
      t.pending = s.pending ∧ t.key = s.key ∧ t.inReset = s.inReset ∧ t.now = s.now ∧ t.txHold = s.txHold ∧
      t.lossMarks = s.lossMarks ∧ t.refresh = s.refresh ∧ t.loop = s.loop ∧ t.watch = s.watch ∧ t.units = s.units ∧
      t.lineA = s.lineA ∧ t.lineB = s.lineB ∧ t.incoming = s.incoming ∧ t.here = s.here ∧ t.exchanges = s.exchanges ∧
      t.obstructionA = s.obstructionA ∧ t.obstructionB = s.obstructionB ∧ t.outputs = s.outputs ∧
      t.groupLive = s.groupLive ∧ t.stored = s.stored ∧ t.active = s.active ∧ t.shadow = s.shadow ∧
      t.check = s.check ∧ t.storeOp = s.storeOp ∧ t.switchHeld = s.switchHeld ∧ t.restartDue = s.restartDue ∧
      t.lastRequester = s.lastRequester ∧ t.part = s.part ∧ t.resetKind = s.resetKind ∧ t.startTimer = s.startTimer ∧
      t.trip = s.trip ∧ t.freeCount = s.freeCount)
      (fun s => by and_intros <;> rfl) (fun s t r h h' => by simp_all) leverLost (fun s x => by simp) ns s
  · exact foldl_rel (fun s t : State =>
      t.pending = s.pending ∧ t.key = s.key ∧ t.inReset = s.inReset ∧ t.now = s.now ∧ t.txHold = s.txHold ∧
      t.lossMarks = s.lossMarks ∧ t.refresh = s.refresh ∧ t.loop = s.loop ∧ t.watch = s.watch ∧ t.units = s.units ∧
      t.lineA = s.lineA ∧ t.lineB = s.lineB ∧ t.incoming = s.incoming ∧ t.here = s.here ∧ t.exchanges = s.exchanges ∧
      t.obstructionA = s.obstructionA ∧ t.obstructionB = s.obstructionB ∧ t.outputs = s.outputs ∧
      t.groupLive = s.groupLive ∧ t.stored = s.stored ∧ t.active = s.active ∧ t.shadow = s.shadow ∧
      t.check = s.check ∧ t.storeOp = s.storeOp ∧ t.switchHeld = s.switchHeld ∧ t.restartDue = s.restartDue ∧
      t.lastRequester = s.lastRequester ∧ t.part = s.part ∧ t.resetKind = s.resetKind ∧ t.startTimer = s.startTimer ∧
      t.trip = s.trip ∧ t.freeCount = s.freeCount)
      (fun s => by and_intros <;> rfl) (fun s t r h h' => by simp_all) lampLost (fun s x => by simp) ns s
  · exact foldl_rel (fun s t : State =>
      t.pending = s.pending ∧ t.key = s.key ∧ t.inReset = s.inReset ∧ t.now = s.now ∧ t.txHold = s.txHold ∧
      t.lossMarks = s.lossMarks ∧ t.refresh = s.refresh ∧ t.loop = s.loop ∧ t.watch = s.watch ∧ t.units = s.units ∧
      t.lineA = s.lineA ∧ t.lineB = s.lineB ∧ t.incoming = s.incoming ∧ t.here = s.here ∧ t.exchanges = s.exchanges ∧
      t.obstructionA = s.obstructionA ∧ t.obstructionB = s.obstructionB ∧ t.outputs = s.outputs ∧
      t.groupLive = s.groupLive ∧ t.stored = s.stored ∧ t.active = s.active ∧ t.shadow = s.shadow ∧
      t.check = s.check ∧ t.storeOp = s.storeOp ∧ t.switchHeld = s.switchHeld ∧ t.restartDue = s.restartDue ∧
      t.lastRequester = s.lastRequester ∧ t.part = s.part ∧ t.resetKind = s.resetKind ∧ t.startTimer = s.startTimer ∧
      t.trip = s.trip ∧ t.freeCount = s.freeCount)
      (fun s => by and_intros <;> rfl) (fun s t r h h' => by simp_all) commutatorLost (fun s x => by simp) ns s
  · simp
  · simp
  · simp

@[simp] theorem unitObjectsLost_same (b : Bank) (a : Nat) (s : State) :
    (unitObjectsLost b a s).pending = s.pending ∧ (unitObjectsLost b a s).key = s.key ∧
    (unitObjectsLost b a s).inReset = s.inReset ∧ (unitObjectsLost b a s).now = s.now ∧
    (unitObjectsLost b a s).txHold = s.txHold ∧ (unitObjectsLost b a s).lossMarks = s.lossMarks ∧
    (unitObjectsLost b a s).refresh = s.refresh ∧ (unitObjectsLost b a s).loop = s.loop ∧
    (unitObjectsLost b a s).watch = s.watch ∧ (unitObjectsLost b a s).units = s.units ∧
    (unitObjectsLost b a s).lineA = s.lineA ∧ (unitObjectsLost b a s).lineB = s.lineB ∧
    (unitObjectsLost b a s).incoming = s.incoming ∧ (unitObjectsLost b a s).here = s.here ∧
    (unitObjectsLost b a s).exchanges = s.exchanges ∧ (unitObjectsLost b a s).obstructionA = s.obstructionA ∧
    (unitObjectsLost b a s).obstructionB = s.obstructionB ∧ (unitObjectsLost b a s).outputs = s.outputs ∧
    (unitObjectsLost b a s).groupLive = s.groupLive ∧ (unitObjectsLost b a s).stored = s.stored ∧
    (unitObjectsLost b a s).active = s.active ∧ (unitObjectsLost b a s).shadow = s.shadow ∧
    (unitObjectsLost b a s).check = s.check ∧ (unitObjectsLost b a s).storeOp = s.storeOp ∧
    (unitObjectsLost b a s).switchHeld = s.switchHeld ∧ (unitObjectsLost b a s).restartDue = s.restartDue ∧
    (unitObjectsLost b a s).lastRequester = s.lastRequester ∧ (unitObjectsLost b a s).part = s.part ∧
    (unitObjectsLost b a s).resetKind = s.resetKind ∧ (unitObjectsLost b a s).startTimer = s.startTimer ∧
    (unitObjectsLost b a s).trip = s.trip ∧ (unitObjectsLost b a s).freeCount = s.freeCount := by simp [unitObjectsLost]

@[simp] theorem unitSilenced_same (s : State) (b : Bank) (a : Nat) :
    (unitSilenced s b a).pending = s.pending ∧ (unitSilenced s b a).key = s.key ∧
    (unitSilenced s b a).inReset = s.inReset ∧ (unitSilenced s b a).now = s.now ∧
    (unitSilenced s b a).txHold = s.txHold ∧ (unitSilenced s b a).lossMarks = s.lossMarks ∧
    (unitSilenced s b a).refresh = s.refresh ∧ (unitSilenced s b a).loop = s.loop ∧
    (unitSilenced s b a).watch = s.watch ∧ (unitSilenced s b a).lineA = s.lineA ∧
    (unitSilenced s b a).lineB = s.lineB ∧ (unitSilenced s b a).incoming = s.incoming ∧
    (unitSilenced s b a).here = s.here ∧ (unitSilenced s b a).exchanges = s.exchanges ∧
    (unitSilenced s b a).obstructionA = s.obstructionA ∧ (unitSilenced s b a).obstructionB = s.obstructionB ∧
    (unitSilenced s b a).outputs = s.outputs ∧ (unitSilenced s b a).groupLive = s.groupLive ∧
    (unitSilenced s b a).stored = s.stored ∧ (unitSilenced s b a).active = s.active ∧
    (unitSilenced s b a).shadow = s.shadow ∧ (unitSilenced s b a).check = s.check ∧
    (unitSilenced s b a).storeOp = s.storeOp ∧ (unitSilenced s b a).switchHeld = s.switchHeld ∧
    (unitSilenced s b a).restartDue = s.restartDue ∧ (unitSilenced s b a).lastRequester = s.lastRequester ∧
    (unitSilenced s b a).part = s.part ∧ (unitSilenced s b a).resetKind = s.resetKind ∧
    (unitSilenced s b a).startTimer = s.startTimer ∧ (unitSilenced s b a).trip = s.trip ∧
    (unitSilenced s b a).freeCount = s.freeCount := by
  unfold unitSilenced
  try dsimp only
  repeat' split
  all_goals simp

@[simp] theorem unitBroken_same (b : Bank) (s : State) (a : Nat) :
    (unitBroken b s a).pending = s.pending ∧ (unitBroken b s a).key = s.key ∧
    (unitBroken b s a).inReset = s.inReset ∧ (unitBroken b s a).now = s.now ∧ (unitBroken b s a).txHold = s.txHold ∧
    (unitBroken b s a).lossMarks = s.lossMarks ∧ (unitBroken b s a).refresh = s.refresh ∧
    (unitBroken b s a).loop = s.loop ∧ (unitBroken b s a).watch = s.watch ∧ (unitBroken b s a).lineA = s.lineA ∧
    (unitBroken b s a).lineB = s.lineB ∧ (unitBroken b s a).incoming = s.incoming ∧
    (unitBroken b s a).here = s.here ∧ (unitBroken b s a).exchanges = s.exchanges ∧
    (unitBroken b s a).obstructionA = s.obstructionA ∧ (unitBroken b s a).obstructionB = s.obstructionB ∧
    (unitBroken b s a).outputs = s.outputs ∧ (unitBroken b s a).groupLive = s.groupLive ∧
    (unitBroken b s a).stored = s.stored ∧ (unitBroken b s a).active = s.active ∧
    (unitBroken b s a).shadow = s.shadow ∧ (unitBroken b s a).check = s.check ∧
    (unitBroken b s a).storeOp = s.storeOp ∧ (unitBroken b s a).switchHeld = s.switchHeld ∧
    (unitBroken b s a).restartDue = s.restartDue ∧ (unitBroken b s a).lastRequester = s.lastRequester ∧
    (unitBroken b s a).part = s.part ∧ (unitBroken b s a).resetKind = s.resetKind ∧
    (unitBroken b s a).startTimer = s.startTimer ∧ (unitBroken b s a).trip = s.trip ∧
    (unitBroken b s a).freeCount = s.freeCount := by
  unfold unitBroken
  try dsimp only
  repeat' split
  all_goals simp

@[simp] theorem unitsBroken_same (b : Bank) (s : State) :
    (unitsBroken b s).pending = s.pending ∧ (unitsBroken b s).key = s.key ∧ (unitsBroken b s).inReset = s.inReset ∧
    (unitsBroken b s).now = s.now ∧ (unitsBroken b s).txHold = s.txHold ∧ (unitsBroken b s).lossMarks = s.lossMarks ∧
    (unitsBroken b s).refresh = s.refresh ∧ (unitsBroken b s).loop = s.loop ∧ (unitsBroken b s).watch = s.watch ∧
    (unitsBroken b s).lineA = s.lineA ∧ (unitsBroken b s).lineB = s.lineB ∧ (unitsBroken b s).incoming = s.incoming ∧
    (unitsBroken b s).here = s.here ∧ (unitsBroken b s).exchanges = s.exchanges ∧
    (unitsBroken b s).obstructionA = s.obstructionA ∧ (unitsBroken b s).obstructionB = s.obstructionB ∧
    (unitsBroken b s).outputs = s.outputs ∧ (unitsBroken b s).groupLive = s.groupLive ∧
    (unitsBroken b s).stored = s.stored ∧ (unitsBroken b s).active = s.active ∧ (unitsBroken b s).shadow = s.shadow ∧
    (unitsBroken b s).check = s.check ∧ (unitsBroken b s).storeOp = s.storeOp ∧
    (unitsBroken b s).switchHeld = s.switchHeld ∧ (unitsBroken b s).restartDue = s.restartDue ∧
    (unitsBroken b s).lastRequester = s.lastRequester ∧ (unitsBroken b s).part = s.part ∧
    (unitsBroken b s).resetKind = s.resetKind ∧ (unitsBroken b s).startTimer = s.startTimer ∧
    (unitsBroken b s).trip = s.trip ∧ (unitsBroken b s).freeCount = s.freeCount := by
  have h := foldl_rel (fun s t =>
      t.pending = s.pending ∧ t.key = s.key ∧ t.inReset = s.inReset ∧ t.now = s.now ∧ t.txHold = s.txHold ∧ t.lossMarks = s.lossMarks ∧ t.refresh = s.refresh ∧ t.loop = s.loop ∧ t.watch = s.watch ∧ t.lineA = s.lineA ∧
      t.lineB = s.lineB ∧ t.incoming = s.incoming ∧ t.here = s.here ∧ t.exchanges = s.exchanges ∧
      t.obstructionA = s.obstructionA ∧ t.obstructionB = s.obstructionB ∧ t.outputs = s.outputs ∧
      t.groupLive = s.groupLive ∧ t.stored = s.stored ∧ t.active = s.active ∧ t.shadow = s.shadow ∧
      t.check = s.check ∧ t.storeOp = s.storeOp ∧ t.switchHeld = s.switchHeld ∧ t.restartDue = s.restartDue ∧
      t.lastRequester = s.lastRequester ∧ t.part = s.part ∧ t.resetKind = s.resetKind ∧
      t.startTimer = s.startTimer ∧ t.trip = s.trip ∧ t.freeCount = s.freeCount)
    (fun s => by and_intros <;> rfl) (fun s t r h h' => by simp_all) (unitBroken b) (fun s x => by simp) (s.units.map Prod.fst) s
  simpa [unitsBroken] using h

@[simp] theorem unitProbed_same (s : State) (b : Bank) (a : Nat) :
    (unitProbed s b a).pending = s.pending ∧ (unitProbed s b a).key = s.key ∧
    (unitProbed s b a).inReset = s.inReset ∧ (unitProbed s b a).now = s.now ∧ (unitProbed s b a).txHold = s.txHold ∧
    (unitProbed s b a).lossMarks = s.lossMarks ∧ (unitProbed s b a).loop = s.loop ∧
    (unitProbed s b a).watch = s.watch ∧ (unitProbed s b a).lineA = s.lineA ∧ (unitProbed s b a).lineB = s.lineB ∧
    (unitProbed s b a).incoming = s.incoming ∧ (unitProbed s b a).here = s.here ∧
    (unitProbed s b a).exchanges = s.exchanges ∧ (unitProbed s b a).obstructionA = s.obstructionA ∧
    (unitProbed s b a).obstructionB = s.obstructionB ∧ (unitProbed s b a).outputs = s.outputs ∧
    (unitProbed s b a).groupLive = s.groupLive ∧ (unitProbed s b a).stored = s.stored ∧
    (unitProbed s b a).active = s.active ∧ (unitProbed s b a).shadow = s.shadow ∧
    (unitProbed s b a).check = s.check ∧ (unitProbed s b a).storeOp = s.storeOp ∧
    (unitProbed s b a).switchHeld = s.switchHeld ∧ (unitProbed s b a).lastRequester = s.lastRequester ∧
    (unitProbed s b a).part = s.part ∧ (unitProbed s b a).resetKind = s.resetKind ∧
    (unitProbed s b a).startTimer = s.startTimer ∧ (unitProbed s b a).trip = s.trip ∧
    (unitProbed s b a).freeCount = s.freeCount := by
  unfold unitProbed
  try dsimp only
  repeat' split
  all_goals simp

@[simp] theorem reportCounted_same (s : State) (b : Bank) (a : Nat) :
    (reportCounted s b a).pending = s.pending ∧ (reportCounted s b a).key = s.key ∧
    (reportCounted s b a).inReset = s.inReset ∧ (reportCounted s b a).now = s.now ∧
    (reportCounted s b a).outQueue = s.outQueue ∧ (reportCounted s b a).seq = s.seq ∧
    (reportCounted s b a).sending = s.sending ∧ (reportCounted s b a).txHold = s.txHold ∧
    (reportCounted s b a).pendingReturns = s.pendingReturns ∧ (reportCounted s b a).lossMarks = s.lossMarks ∧
    (reportCounted s b a).refresh = s.refresh ∧ (reportCounted s b a).loop = s.loop ∧
    (reportCounted s b a).watch = s.watch ∧ (reportCounted s b a).tracks = s.tracks ∧
    (reportCounted s b a).levers = s.levers ∧ (reportCounted s b a).lineA = s.lineA ∧
    (reportCounted s b a).lineB = s.lineB ∧ (reportCounted s b a).incoming = s.incoming ∧
    (reportCounted s b a).here = s.here ∧ (reportCounted s b a).exchanges = s.exchanges ∧
    (reportCounted s b a).obstructionA = s.obstructionA ∧ (reportCounted s b a).obstructionB = s.obstructionB ∧
    (reportCounted s b a).sections = s.sections ∧ (reportCounted s b a).lamps = s.lamps ∧
    (reportCounted s b a).outputs = s.outputs ∧ (reportCounted s b a).groupLive = s.groupLive ∧
    (reportCounted s b a).stored = s.stored ∧ (reportCounted s b a).active = s.active ∧
    (reportCounted s b a).shadow = s.shadow ∧ (reportCounted s b a).check = s.check ∧
    (reportCounted s b a).storeOp = s.storeOp ∧ (reportCounted s b a).switchHeld = s.switchHeld ∧
    (reportCounted s b a).restartDue = s.restartDue ∧ (reportCounted s b a).lastRequester = s.lastRequester ∧
    (reportCounted s b a).part = s.part ∧ (reportCounted s b a).resetKind = s.resetKind ∧
    (reportCounted s b a).startTimer = s.startTimer ∧ (reportCounted s b a).trip = s.trip ∧
    (reportCounted s b a).events = s.events ∧ (reportCounted s b a).freeCount = s.freeCount := by and_intros <;> rfl

@[simp] theorem identArrives_same (s : State) (b : Bank) (a : Nat) (bs : List Byte) :
    (identArrives s b a bs).pending = s.pending ∧ (identArrives s b a bs).key = s.key ∧
    (identArrives s b a bs).inReset = s.inReset ∧ (identArrives s b a bs).now = s.now ∧
    (identArrives s b a bs).txHold = s.txHold ∧ (identArrives s b a bs).lossMarks = s.lossMarks ∧
    (identArrives s b a bs).refresh = s.refresh ∧ (identArrives s b a bs).loop = s.loop ∧
    (identArrives s b a bs).watch = s.watch ∧ (identArrives s b a bs).tracks = s.tracks ∧
    (identArrives s b a bs).levers = s.levers ∧ (identArrives s b a bs).lineA = s.lineA ∧
    (identArrives s b a bs).lineB = s.lineB ∧ (identArrives s b a bs).incoming = s.incoming ∧
    (identArrives s b a bs).here = s.here ∧ (identArrives s b a bs).exchanges = s.exchanges ∧
    (identArrives s b a bs).obstructionA = s.obstructionA ∧ (identArrives s b a bs).obstructionB = s.obstructionB ∧
    (identArrives s b a bs).sections = s.sections ∧ (identArrives s b a bs).lamps = s.lamps ∧
    (identArrives s b a bs).outputs = s.outputs ∧ (identArrives s b a bs).groupLive = s.groupLive ∧
    (identArrives s b a bs).stored = s.stored ∧ (identArrives s b a bs).active = s.active ∧
    (identArrives s b a bs).shadow = s.shadow ∧ (identArrives s b a bs).check = s.check ∧
    (identArrives s b a bs).storeOp = s.storeOp ∧ (identArrives s b a bs).switchHeld = s.switchHeld ∧
    (identArrives s b a bs).restartDue = s.restartDue ∧ (identArrives s b a bs).lastRequester = s.lastRequester ∧
    (identArrives s b a bs).part = s.part ∧ (identArrives s b a bs).resetKind = s.resetKind ∧
    (identArrives s b a bs).startTimer = s.startTimer ∧ (identArrives s b a bs).trip = s.trip ∧
    (identArrives s b a bs).freeCount = s.freeCount := by
  unfold identArrives
  try dsimp only
  repeat' split
  all_goals simp

@[simp] theorem bankStored_same (s : State) (e : BitVec 16) :
    (bankStored s e).pending = s.pending ∧ (bankStored s e).key = s.key ∧ (bankStored s e).inReset = s.inReset ∧
    (bankStored s e).now = s.now ∧ (bankStored s e).txHold = s.txHold ∧ (bankStored s e).lossMarks = s.lossMarks ∧
    (bankStored s e).refresh = s.refresh ∧ (bankStored s e).loop = s.loop ∧ (bankStored s e).watch = s.watch ∧
    (bankStored s e).units = s.units ∧ (bankStored s e).tracks = s.tracks ∧ (bankStored s e).levers = s.levers ∧
    (bankStored s e).lineA = s.lineA ∧ (bankStored s e).lineB = s.lineB ∧ (bankStored s e).incoming = s.incoming ∧
    (bankStored s e).here = s.here ∧ (bankStored s e).exchanges = s.exchanges ∧
    (bankStored s e).obstructionA = s.obstructionA ∧ (bankStored s e).obstructionB = s.obstructionB ∧
    (bankStored s e).sections = s.sections ∧ (bankStored s e).lamps = s.lamps ∧
    (bankStored s e).outputs = s.outputs ∧ (bankStored s e).groupLive = s.groupLive ∧
    (bankStored s e).stored = s.stored ∧ (bankStored s e).active = s.active ∧ (bankStored s e).shadow = s.shadow ∧
    (bankStored s e).check = s.check ∧ (bankStored s e).storeOp = s.storeOp ∧
    (bankStored s e).switchHeld = s.switchHeld ∧ (bankStored s e).restartDue = s.restartDue ∧
    (bankStored s e).lastRequester = s.lastRequester ∧ (bankStored s e).part = s.part ∧
    (bankStored s e).resetKind = s.resetKind ∧ (bankStored s e).startTimer = s.startTimer ∧
    (bankStored s e).trip = s.trip ∧ (bankStored s e).freeCount = s.freeCount := by simp [bankStored]

@[simp] theorem heldTripped_same (s : State) :
    (heldTripped s).pending = s.pending ∧ (heldTripped s).key = s.key ∧ (heldTripped s).inReset = s.inReset ∧
    (heldTripped s).now = s.now ∧ (heldTripped s).txHold = s.txHold ∧ (heldTripped s).lossMarks = s.lossMarks ∧
    (heldTripped s).refresh = s.refresh ∧ (heldTripped s).loop = s.loop ∧ (heldTripped s).watch = s.watch ∧
    (heldTripped s).units = s.units ∧ (heldTripped s).tracks = s.tracks ∧ (heldTripped s).levers = s.levers ∧
    (heldTripped s).lineA = s.lineA ∧ (heldTripped s).lineB = s.lineB ∧ (heldTripped s).incoming = s.incoming ∧
    (heldTripped s).here = s.here ∧ (heldTripped s).exchanges = s.exchanges ∧
    (heldTripped s).obstructionA = s.obstructionA ∧ (heldTripped s).obstructionB = s.obstructionB ∧
    (heldTripped s).sections = s.sections ∧ (heldTripped s).lamps = s.lamps ∧ (heldTripped s).outputs = s.outputs ∧
    (heldTripped s).groupLive = s.groupLive ∧ (heldTripped s).stored = s.stored ∧ (heldTripped s).active = s.active ∧
    (heldTripped s).shadow = s.shadow ∧ (heldTripped s).check = s.check ∧ (heldTripped s).storeOp = s.storeOp ∧
    (heldTripped s).restartDue = s.restartDue ∧ (heldTripped s).lastRequester = s.lastRequester ∧
    (heldTripped s).part = s.part ∧ (heldTripped s).resetKind = s.resetKind ∧
    (heldTripped s).startTimer = s.startTimer ∧ (heldTripped s).trip = s.trip ∧
    (heldTripped s).freeCount = s.freeCount := by
  unfold heldTripped
  try dsimp only
  repeat' split
  all_goals simp

@[simp] theorem sectionsAtTrip_same (s : State) :
    (sectionsAtTrip s).pending = s.pending ∧ (sectionsAtTrip s).key = s.key ∧
    (sectionsAtTrip s).inReset = s.inReset ∧ (sectionsAtTrip s).now = s.now ∧
    (sectionsAtTrip s).outQueue = s.outQueue ∧ (sectionsAtTrip s).seq = s.seq ∧
    (sectionsAtTrip s).sending = s.sending ∧ (sectionsAtTrip s).txHold = s.txHold ∧
    (sectionsAtTrip s).pendingReturns = s.pendingReturns ∧ (sectionsAtTrip s).lossMarks = s.lossMarks ∧
    (sectionsAtTrip s).refresh = s.refresh ∧ (sectionsAtTrip s).loop = s.loop ∧ (sectionsAtTrip s).watch = s.watch ∧
    (sectionsAtTrip s).units = s.units ∧ (sectionsAtTrip s).tracks = s.tracks ∧
    (sectionsAtTrip s).levers = s.levers ∧ (sectionsAtTrip s).lineA = s.lineA ∧ (sectionsAtTrip s).lineB = s.lineB ∧
    (sectionsAtTrip s).incoming = s.incoming ∧ (sectionsAtTrip s).here = s.here ∧
    (sectionsAtTrip s).exchanges = s.exchanges ∧ (sectionsAtTrip s).obstructionA = s.obstructionA ∧
    (sectionsAtTrip s).obstructionB = s.obstructionB ∧ (sectionsAtTrip s).lamps = s.lamps ∧
    (sectionsAtTrip s).outputs = s.outputs ∧ (sectionsAtTrip s).groupLive = s.groupLive ∧
    (sectionsAtTrip s).stored = s.stored ∧ (sectionsAtTrip s).active = s.active ∧
    (sectionsAtTrip s).shadow = s.shadow ∧ (sectionsAtTrip s).check = s.check ∧
    (sectionsAtTrip s).storeOp = s.storeOp ∧ (sectionsAtTrip s).switchHeld = s.switchHeld ∧
    (sectionsAtTrip s).restartDue = s.restartDue ∧ (sectionsAtTrip s).lastRequester = s.lastRequester ∧
    (sectionsAtTrip s).part = s.part ∧ (sectionsAtTrip s).resetKind = s.resetKind ∧
    (sectionsAtTrip s).startTimer = s.startTimer ∧ (sectionsAtTrip s).trip = s.trip ∧
    (sectionsAtTrip s).events = s.events ∧ (sectionsAtTrip s).freeCount = s.freeCount := by
  unfold sectionsAtTrip
  try dsimp only
  repeat' split
  all_goals simp

@[simp] theorem alarmsAtTrip_same (p : PartState) (s : State) :
    (alarmsAtTrip p s).pending = s.pending ∧ (alarmsAtTrip p s).key = s.key ∧
    (alarmsAtTrip p s).inReset = s.inReset ∧ (alarmsAtTrip p s).now = s.now ∧ (alarmsAtTrip p s).txHold = s.txHold ∧
    (alarmsAtTrip p s).lossMarks = s.lossMarks ∧ (alarmsAtTrip p s).refresh = s.refresh ∧
    (alarmsAtTrip p s).loop = s.loop ∧ (alarmsAtTrip p s).watch = s.watch ∧ (alarmsAtTrip p s).units = s.units ∧
    (alarmsAtTrip p s).tracks = s.tracks ∧ (alarmsAtTrip p s).levers = s.levers ∧
    (alarmsAtTrip p s).lineA = s.lineA ∧ (alarmsAtTrip p s).lineB = s.lineB ∧
    (alarmsAtTrip p s).incoming = s.incoming ∧ (alarmsAtTrip p s).here = s.here ∧
    (alarmsAtTrip p s).exchanges = s.exchanges ∧ (alarmsAtTrip p s).obstructionA = s.obstructionA ∧
    (alarmsAtTrip p s).obstructionB = s.obstructionB ∧ (alarmsAtTrip p s).sections = s.sections ∧
    (alarmsAtTrip p s).outputs = s.outputs ∧ (alarmsAtTrip p s).groupLive = s.groupLive ∧
    (alarmsAtTrip p s).stored = s.stored ∧ (alarmsAtTrip p s).active = s.active ∧
    (alarmsAtTrip p s).shadow = s.shadow ∧ (alarmsAtTrip p s).check = s.check ∧
    (alarmsAtTrip p s).storeOp = s.storeOp ∧ (alarmsAtTrip p s).switchHeld = s.switchHeld ∧
    (alarmsAtTrip p s).restartDue = s.restartDue ∧ (alarmsAtTrip p s).lastRequester = s.lastRequester ∧
    (alarmsAtTrip p s).part = s.part ∧ (alarmsAtTrip p s).resetKind = s.resetKind ∧
    (alarmsAtTrip p s).startTimer = s.startTimer ∧ (alarmsAtTrip p s).trip = s.trip ∧
    (alarmsAtTrip p s).freeCount = s.freeCount := by
  unfold alarmsAtTrip
  try dsimp only
  repeat' split
  all_goals simp

@[simp] theorem tripped_same (s : State) (c : TripCause) (o : Nat) (x y : Option Byte) :
    (tripped s c o x y).pending = s.pending ∧ (tripped s c o x y).key = s.key ∧
    (tripped s c o x y).inReset = s.inReset ∧ (tripped s c o x y).now = s.now ∧
    (tripped s c o x y).txHold = s.txHold ∧ (tripped s c o x y).lossMarks = s.lossMarks ∧
    (tripped s c o x y).refresh = s.refresh ∧ (tripped s c o x y).loop = s.loop ∧
    (tripped s c o x y).watch = s.watch ∧ (tripped s c o x y).units = s.units ∧
    (tripped s c o x y).tracks = s.tracks ∧ (tripped s c o x y).levers = s.levers ∧
    (tripped s c o x y).lineA = s.lineA ∧ (tripped s c o x y).lineB = s.lineB ∧
    (tripped s c o x y).incoming = s.incoming ∧ (tripped s c o x y).here = s.here ∧
    (tripped s c o x y).exchanges = s.exchanges ∧ (tripped s c o x y).obstructionA = s.obstructionA ∧
    (tripped s c o x y).obstructionB = s.obstructionB ∧ (tripped s c o x y).outputs = s.outputs ∧
    (tripped s c o x y).groupLive = s.groupLive ∧ (tripped s c o x y).stored = s.stored ∧
    (tripped s c o x y).active = s.active ∧ (tripped s c o x y).shadow = s.shadow ∧
    (tripped s c o x y).check = s.check ∧ (tripped s c o x y).storeOp = s.storeOp ∧
    (tripped s c o x y).restartDue = s.restartDue ∧ (tripped s c o x y).lastRequester = s.lastRequester ∧
    (tripped s c o x y).resetKind = s.resetKind ∧ (tripped s c o x y).freeCount = s.freeCount := by simp [tripped]

@[simp] theorem tripCause_same (s : State) (c : TripCause) (o : Nat) (x y : Option Byte) :
    (tripCause s c o x y).pending = s.pending ∧ (tripCause s c o x y).key = s.key ∧
    (tripCause s c o x y).inReset = s.inReset ∧ (tripCause s c o x y).now = s.now ∧
    (tripCause s c o x y).txHold = s.txHold ∧ (tripCause s c o x y).lossMarks = s.lossMarks ∧
    (tripCause s c o x y).refresh = s.refresh ∧ (tripCause s c o x y).loop = s.loop ∧
    (tripCause s c o x y).watch = s.watch ∧ (tripCause s c o x y).units = s.units ∧
    (tripCause s c o x y).tracks = s.tracks ∧ (tripCause s c o x y).levers = s.levers ∧
    (tripCause s c o x y).lineA = s.lineA ∧ (tripCause s c o x y).lineB = s.lineB ∧
    (tripCause s c o x y).incoming = s.incoming ∧ (tripCause s c o x y).here = s.here ∧
    (tripCause s c o x y).exchanges = s.exchanges ∧ (tripCause s c o x y).obstructionA = s.obstructionA ∧
    (tripCause s c o x y).obstructionB = s.obstructionB ∧ (tripCause s c o x y).outputs = s.outputs ∧
    (tripCause s c o x y).groupLive = s.groupLive ∧ (tripCause s c o x y).stored = s.stored ∧
    (tripCause s c o x y).active = s.active ∧ (tripCause s c o x y).shadow = s.shadow ∧
    (tripCause s c o x y).check = s.check ∧ (tripCause s c o x y).storeOp = s.storeOp ∧
    (tripCause s c o x y).restartDue = s.restartDue ∧ (tripCause s c o x y).lastRequester = s.lastRequester ∧
    (tripCause s c o x y).resetKind = s.resetKind ∧ (tripCause s c o x y).freeCount = s.freeCount := by
  unfold tripCause
  try dsimp only
  repeat' split
  all_goals simp

@[simp] theorem entryLost_same (s : State) (p : PendingReturn) :
    (entryLost s p).pending = s.pending ∧ (entryLost s p).key = s.key ∧ (entryLost s p).inReset = s.inReset ∧
    (entryLost s p).now = s.now ∧ (entryLost s p).txHold = s.txHold ∧ (entryLost s p).refresh = s.refresh ∧
    (entryLost s p).loop = s.loop ∧ (entryLost s p).watch = s.watch ∧ (entryLost s p).units = s.units ∧
    (entryLost s p).tracks = s.tracks ∧ (entryLost s p).levers = s.levers ∧ (entryLost s p).lineA = s.lineA ∧
    (entryLost s p).lineB = s.lineB ∧ (entryLost s p).incoming = s.incoming ∧ (entryLost s p).here = s.here ∧
    (entryLost s p).exchanges = s.exchanges ∧ (entryLost s p).obstructionA = s.obstructionA ∧
    (entryLost s p).obstructionB = s.obstructionB ∧ (entryLost s p).sections = s.sections ∧
    (entryLost s p).lamps = s.lamps ∧ (entryLost s p).outputs = s.outputs ∧ (entryLost s p).groupLive = s.groupLive ∧
    (entryLost s p).stored = s.stored ∧ (entryLost s p).active = s.active ∧ (entryLost s p).shadow = s.shadow ∧
    (entryLost s p).check = s.check ∧ (entryLost s p).storeOp = s.storeOp ∧
    (entryLost s p).switchHeld = s.switchHeld ∧ (entryLost s p).restartDue = s.restartDue ∧
    (entryLost s p).lastRequester = s.lastRequester ∧ (entryLost s p).part = s.part ∧
    (entryLost s p).resetKind = s.resetKind ∧ (entryLost s p).startTimer = s.startTimer ∧
    (entryLost s p).trip = s.trip ∧ (entryLost s p).freeCount = s.freeCount := by
  unfold entryLost
  try dsimp only
  repeat' split
  all_goals simp

@[simp] theorem watchRestarted_same (s : State) :
    (watchRestarted s).pending = s.pending ∧ (watchRestarted s).key = s.key ∧
    (watchRestarted s).inReset = s.inReset ∧ (watchRestarted s).now = s.now ∧
    (watchRestarted s).outQueue = s.outQueue ∧ (watchRestarted s).seq = s.seq ∧
    (watchRestarted s).sending = s.sending ∧ (watchRestarted s).txHold = s.txHold ∧
    (watchRestarted s).pendingReturns = s.pendingReturns ∧ (watchRestarted s).lossMarks = s.lossMarks ∧
    (watchRestarted s).refresh = s.refresh ∧ (watchRestarted s).loop = s.loop ∧ (watchRestarted s).units = s.units ∧
    (watchRestarted s).tracks = s.tracks ∧ (watchRestarted s).levers = s.levers ∧
    (watchRestarted s).lineA = s.lineA ∧ (watchRestarted s).lineB = s.lineB ∧
    (watchRestarted s).incoming = s.incoming ∧ (watchRestarted s).here = s.here ∧
    (watchRestarted s).exchanges = s.exchanges ∧ (watchRestarted s).obstructionA = s.obstructionA ∧
    (watchRestarted s).obstructionB = s.obstructionB ∧ (watchRestarted s).sections = s.sections ∧
    (watchRestarted s).lamps = s.lamps ∧ (watchRestarted s).outputs = s.outputs ∧
    (watchRestarted s).groupLive = s.groupLive ∧ (watchRestarted s).stored = s.stored ∧
    (watchRestarted s).active = s.active ∧ (watchRestarted s).shadow = s.shadow ∧
    (watchRestarted s).check = s.check ∧ (watchRestarted s).storeOp = s.storeOp ∧
    (watchRestarted s).switchHeld = s.switchHeld ∧ (watchRestarted s).restartDue = s.restartDue ∧
    (watchRestarted s).lastRequester = s.lastRequester ∧ (watchRestarted s).part = s.part ∧
    (watchRestarted s).resetKind = s.resetKind ∧ (watchRestarted s).startTimer = s.startTimer ∧
    (watchRestarted s).trip = s.trip ∧ (watchRestarted s).events = s.events ∧
    (watchRestarted s).freeCount = s.freeCount := by and_intros <;> rfl

@[simp] theorem loopHeard_same (s : State) :
    (loopHeard s).pending = s.pending ∧ (loopHeard s).key = s.key ∧ (loopHeard s).inReset = s.inReset ∧
    (loopHeard s).now = s.now ∧ (loopHeard s).txHold = s.txHold ∧ (loopHeard s).lossMarks = s.lossMarks ∧
    (loopHeard s).refresh = s.refresh ∧ (loopHeard s).units = s.units ∧ (loopHeard s).tracks = s.tracks ∧
    (loopHeard s).levers = s.levers ∧ (loopHeard s).lineA = s.lineA ∧ (loopHeard s).lineB = s.lineB ∧
    (loopHeard s).incoming = s.incoming ∧ (loopHeard s).here = s.here ∧ (loopHeard s).exchanges = s.exchanges ∧
    (loopHeard s).obstructionA = s.obstructionA ∧ (loopHeard s).obstructionB = s.obstructionB ∧
    (loopHeard s).sections = s.sections ∧ (loopHeard s).lamps = s.lamps ∧ (loopHeard s).outputs = s.outputs ∧
    (loopHeard s).groupLive = s.groupLive ∧ (loopHeard s).stored = s.stored ∧ (loopHeard s).active = s.active ∧
    (loopHeard s).shadow = s.shadow ∧ (loopHeard s).check = s.check ∧ (loopHeard s).storeOp = s.storeOp ∧
    (loopHeard s).switchHeld = s.switchHeld ∧ (loopHeard s).restartDue = s.restartDue ∧
    (loopHeard s).lastRequester = s.lastRequester ∧ (loopHeard s).part = s.part ∧
    (loopHeard s).resetKind = s.resetKind ∧ (loopHeard s).startTimer = s.startTimer ∧ (loopHeard s).trip = s.trip ∧
    (loopHeard s).freeCount = s.freeCount := by
  unfold loopHeard
  try dsimp only
  repeat' split
  all_goals simp

@[simp] theorem loopBroken_same (s : State) :
    (loopBroken s).pending = s.pending ∧ (loopBroken s).key = s.key ∧ (loopBroken s).inReset = s.inReset ∧
    (loopBroken s).now = s.now ∧ (loopBroken s).txHold = s.txHold ∧ (loopBroken s).lossMarks = s.lossMarks ∧
    (loopBroken s).refresh = s.refresh ∧ (loopBroken s).lineA = s.lineA ∧ (loopBroken s).lineB = s.lineB ∧
    (loopBroken s).incoming = s.incoming ∧ (loopBroken s).here = s.here ∧ (loopBroken s).exchanges = s.exchanges ∧
    (loopBroken s).obstructionA = s.obstructionA ∧ (loopBroken s).obstructionB = s.obstructionB ∧
    (loopBroken s).outputs = s.outputs ∧ (loopBroken s).groupLive = s.groupLive ∧ (loopBroken s).stored = s.stored ∧
    (loopBroken s).active = s.active ∧ (loopBroken s).shadow = s.shadow ∧ (loopBroken s).check = s.check ∧
    (loopBroken s).storeOp = s.storeOp ∧ (loopBroken s).switchHeld = s.switchHeld ∧
    (loopBroken s).restartDue = s.restartDue ∧ (loopBroken s).lastRequester = s.lastRequester ∧
    (loopBroken s).part = s.part ∧ (loopBroken s).resetKind = s.resetKind ∧
    (loopBroken s).startTimer = s.startTimer ∧ (loopBroken s).trip = s.trip ∧ (loopBroken s).freeCount = s.freeCount := by
  unfold loopBroken
  try dsimp only
  repeat' split
  all_goals simp

@[simp] theorem leversWritten_same (os : List (Nat × LeverOutcome)) (s : State) :
    (leversWritten os s).pending = s.pending ∧ (leversWritten os s).key = s.key ∧
    (leversWritten os s).inReset = s.inReset ∧ (leversWritten os s).now = s.now ∧
    (leversWritten os s).outQueue = s.outQueue ∧ (leversWritten os s).seq = s.seq ∧
    (leversWritten os s).sending = s.sending ∧ (leversWritten os s).txHold = s.txHold ∧
    (leversWritten os s).pendingReturns = s.pendingReturns ∧ (leversWritten os s).lossMarks = s.lossMarks ∧
    (leversWritten os s).refresh = s.refresh ∧ (leversWritten os s).loop = s.loop ∧
    (leversWritten os s).watch = s.watch ∧ (leversWritten os s).units = s.units ∧
    (leversWritten os s).tracks = s.tracks ∧ (leversWritten os s).lineA = s.lineA ∧
    (leversWritten os s).lineB = s.lineB ∧ (leversWritten os s).incoming = s.incoming ∧
    (leversWritten os s).here = s.here ∧ (leversWritten os s).exchanges = s.exchanges ∧
    (leversWritten os s).obstructionA = s.obstructionA ∧ (leversWritten os s).obstructionB = s.obstructionB ∧
    (leversWritten os s).sections = s.sections ∧ (leversWritten os s).lamps = s.lamps ∧
    (leversWritten os s).outputs = s.outputs ∧ (leversWritten os s).groupLive = s.groupLive ∧
    (leversWritten os s).stored = s.stored ∧ (leversWritten os s).active = s.active ∧
    (leversWritten os s).shadow = s.shadow ∧ (leversWritten os s).check = s.check ∧
    (leversWritten os s).storeOp = s.storeOp ∧ (leversWritten os s).switchHeld = s.switchHeld ∧
    (leversWritten os s).restartDue = s.restartDue ∧ (leversWritten os s).lastRequester = s.lastRequester ∧
    (leversWritten os s).part = s.part ∧ (leversWritten os s).resetKind = s.resetKind ∧
    (leversWritten os s).startTimer = s.startTimer ∧ (leversWritten os s).trip = s.trip ∧
    (leversWritten os s).events = s.events ∧ (leversWritten os s).freeCount = s.freeCount := by
  have h := foldl_rel (fun s t =>
      t.pending = s.pending ∧ t.key = s.key ∧ t.inReset = s.inReset ∧ t.now = s.now ∧ t.outQueue = s.outQueue ∧
      t.seq = s.seq ∧ t.sending = s.sending ∧ t.txHold = s.txHold ∧ t.pendingReturns = s.pendingReturns ∧
      t.lossMarks = s.lossMarks ∧ t.refresh = s.refresh ∧ t.loop = s.loop ∧ t.watch = s.watch ∧ t.units = s.units ∧
      t.tracks = s.tracks ∧ t.lineA = s.lineA ∧ t.lineB = s.lineB ∧ t.incoming = s.incoming ∧ t.here = s.here ∧
      t.exchanges = s.exchanges ∧ t.obstructionA = s.obstructionA ∧ t.obstructionB = s.obstructionB ∧
      t.sections = s.sections ∧ t.lamps = s.lamps ∧ t.outputs = s.outputs ∧ t.groupLive = s.groupLive ∧
      t.stored = s.stored ∧ t.active = s.active ∧ t.shadow = s.shadow ∧ t.check = s.check ∧ t.storeOp = s.storeOp ∧
      t.switchHeld = s.switchHeld ∧ t.restartDue = s.restartDue ∧ t.lastRequester = s.lastRequester ∧
      t.part = s.part ∧ t.resetKind = s.resetKind ∧ t.startTimer = s.startTimer ∧ t.trip = s.trip ∧
      t.events = s.events ∧ t.freeCount = s.freeCount)
    (fun s => by and_intros <;> rfl) (fun s t r h h' => by simp_all) (fun s (o : Nat × LeverOutcome) => modifyLever s o.1 fun _ => o.2.record) (fun s x => by simp) os s
  simpa [leversWritten] using h

@[simp] theorem lampsTaken_same (b : Bank) (a : Nat) (bytes : List Byte) (s : State) :
    (lampsTaken b a bytes s).pending = s.pending ∧ (lampsTaken b a bytes s).key = s.key ∧
    (lampsTaken b a bytes s).inReset = s.inReset ∧ (lampsTaken b a bytes s).now = s.now ∧
    (lampsTaken b a bytes s).txHold = s.txHold ∧ (lampsTaken b a bytes s).lossMarks = s.lossMarks ∧
    (lampsTaken b a bytes s).refresh = s.refresh ∧ (lampsTaken b a bytes s).loop = s.loop ∧
    (lampsTaken b a bytes s).watch = s.watch ∧ (lampsTaken b a bytes s).units = s.units ∧
    (lampsTaken b a bytes s).tracks = s.tracks ∧ (lampsTaken b a bytes s).levers = s.levers ∧
    (lampsTaken b a bytes s).lineA = s.lineA ∧ (lampsTaken b a bytes s).lineB = s.lineB ∧
    (lampsTaken b a bytes s).incoming = s.incoming ∧ (lampsTaken b a bytes s).here = s.here ∧
    (lampsTaken b a bytes s).exchanges = s.exchanges ∧ (lampsTaken b a bytes s).obstructionA = s.obstructionA ∧
    (lampsTaken b a bytes s).obstructionB = s.obstructionB ∧ (lampsTaken b a bytes s).sections = s.sections ∧
    (lampsTaken b a bytes s).outputs = s.outputs ∧ (lampsTaken b a bytes s).groupLive = s.groupLive ∧
    (lampsTaken b a bytes s).stored = s.stored ∧ (lampsTaken b a bytes s).active = s.active ∧
    (lampsTaken b a bytes s).shadow = s.shadow ∧ (lampsTaken b a bytes s).check = s.check ∧
    (lampsTaken b a bytes s).storeOp = s.storeOp ∧ (lampsTaken b a bytes s).switchHeld = s.switchHeld ∧
    (lampsTaken b a bytes s).restartDue = s.restartDue ∧ (lampsTaken b a bytes s).lastRequester = s.lastRequester ∧
    (lampsTaken b a bytes s).part = s.part ∧ (lampsTaken b a bytes s).resetKind = s.resetKind ∧
    (lampsTaken b a bytes s).startTimer = s.startTimer ∧ (lampsTaken b a bytes s).trip = s.trip ∧
    (lampsTaken b a bytes s).freeCount = s.freeCount := by
  have h := foldl_rel (fun s t =>
      t.pending = s.pending ∧ t.key = s.key ∧ t.inReset = s.inReset ∧ t.now = s.now ∧ t.txHold = s.txHold ∧ t.lossMarks = s.lossMarks ∧ t.refresh = s.refresh ∧ t.loop = s.loop ∧ t.watch = s.watch ∧ t.units = s.units ∧
      t.tracks = s.tracks ∧ t.levers = s.levers ∧ t.lineA = s.lineA ∧ t.lineB = s.lineB ∧ t.incoming = s.incoming ∧
      t.here = s.here ∧ t.exchanges = s.exchanges ∧ t.obstructionA = s.obstructionA ∧
      t.obstructionB = s.obstructionB ∧ t.sections = s.sections ∧ t.outputs = s.outputs ∧
      t.groupLive = s.groupLive ∧ t.stored = s.stored ∧ t.active = s.active ∧ t.shadow = s.shadow ∧
      t.check = s.check ∧ t.storeOp = s.storeOp ∧ t.switchHeld = s.switchHeld ∧ t.restartDue = s.restartDue ∧
      t.lastRequester = s.lastRequester ∧ t.part = s.part ∧ t.resetKind = s.resetKind ∧
      t.startTimer = s.startTimer ∧ t.trip = s.trip ∧ t.freeCount = s.freeCount)
    (fun s => by and_intros <;> rfl) (fun s t r h h' => by simp_all) (fun s (p : Nat × Nat) => lampTakes s b p.2 (packed12 bytes p.1)) (fun s x => by simp) (b.assignedChannels a) s
  simpa [lampsTaken] using h

@[simp] theorem faultTaken_same (a : Nat) (bytes : List Byte) (s : State) (c o : Nat) :
    (faultTaken a bytes s c o).pending = s.pending ∧ (faultTaken a bytes s c o).key = s.key ∧
    (faultTaken a bytes s c o).inReset = s.inReset ∧ (faultTaken a bytes s c o).now = s.now ∧
    (faultTaken a bytes s c o).txHold = s.txHold ∧ (faultTaken a bytes s c o).lossMarks = s.lossMarks ∧
    (faultTaken a bytes s c o).refresh = s.refresh ∧ (faultTaken a bytes s c o).loop = s.loop ∧
    (faultTaken a bytes s c o).watch = s.watch ∧ (faultTaken a bytes s c o).tracks = s.tracks ∧
    (faultTaken a bytes s c o).levers = s.levers ∧ (faultTaken a bytes s c o).lineA = s.lineA ∧
    (faultTaken a bytes s c o).lineB = s.lineB ∧ (faultTaken a bytes s c o).incoming = s.incoming ∧
    (faultTaken a bytes s c o).here = s.here ∧ (faultTaken a bytes s c o).exchanges = s.exchanges ∧
    (faultTaken a bytes s c o).obstructionA = s.obstructionA ∧
    (faultTaken a bytes s c o).obstructionB = s.obstructionB ∧ (faultTaken a bytes s c o).sections = s.sections ∧
    (faultTaken a bytes s c o).lamps = s.lamps ∧ (faultTaken a bytes s c o).outputs = s.outputs ∧
    (faultTaken a bytes s c o).groupLive = s.groupLive ∧ (faultTaken a bytes s c o).stored = s.stored ∧
    (faultTaken a bytes s c o).active = s.active ∧ (faultTaken a bytes s c o).shadow = s.shadow ∧
    (faultTaken a bytes s c o).check = s.check ∧ (faultTaken a bytes s c o).storeOp = s.storeOp ∧
    (faultTaken a bytes s c o).switchHeld = s.switchHeld ∧ (faultTaken a bytes s c o).restartDue = s.restartDue ∧
    (faultTaken a bytes s c o).lastRequester = s.lastRequester ∧ (faultTaken a bytes s c o).part = s.part ∧
    (faultTaken a bytes s c o).resetKind = s.resetKind ∧ (faultTaken a bytes s c o).startTimer = s.startTimer ∧
    (faultTaken a bytes s c o).trip = s.trip ∧ (faultTaken a bytes s c o).freeCount = s.freeCount := by
  unfold faultTaken
  try dsimp only
  repeat' split
  all_goals simp

@[simp] theorem faultsTaken_same (b : Bank) (a : Nat) (bytes : List Byte) (s : State) :
    (faultsTaken b a bytes s).pending = s.pending ∧ (faultsTaken b a bytes s).key = s.key ∧
    (faultsTaken b a bytes s).inReset = s.inReset ∧ (faultsTaken b a bytes s).now = s.now ∧
    (faultsTaken b a bytes s).txHold = s.txHold ∧ (faultsTaken b a bytes s).lossMarks = s.lossMarks ∧
    (faultsTaken b a bytes s).refresh = s.refresh ∧ (faultsTaken b a bytes s).loop = s.loop ∧
    (faultsTaken b a bytes s).watch = s.watch ∧ (faultsTaken b a bytes s).tracks = s.tracks ∧
    (faultsTaken b a bytes s).levers = s.levers ∧ (faultsTaken b a bytes s).lineA = s.lineA ∧
    (faultsTaken b a bytes s).lineB = s.lineB ∧ (faultsTaken b a bytes s).incoming = s.incoming ∧
    (faultsTaken b a bytes s).here = s.here ∧ (faultsTaken b a bytes s).exchanges = s.exchanges ∧
    (faultsTaken b a bytes s).obstructionA = s.obstructionA ∧
    (faultsTaken b a bytes s).obstructionB = s.obstructionB ∧ (faultsTaken b a bytes s).sections = s.sections ∧
    (faultsTaken b a bytes s).lamps = s.lamps ∧ (faultsTaken b a bytes s).outputs = s.outputs ∧
    (faultsTaken b a bytes s).groupLive = s.groupLive ∧ (faultsTaken b a bytes s).stored = s.stored ∧
    (faultsTaken b a bytes s).active = s.active ∧ (faultsTaken b a bytes s).shadow = s.shadow ∧
    (faultsTaken b a bytes s).check = s.check ∧ (faultsTaken b a bytes s).storeOp = s.storeOp ∧
    (faultsTaken b a bytes s).switchHeld = s.switchHeld ∧ (faultsTaken b a bytes s).restartDue = s.restartDue ∧
    (faultsTaken b a bytes s).lastRequester = s.lastRequester ∧ (faultsTaken b a bytes s).part = s.part ∧
    (faultsTaken b a bytes s).resetKind = s.resetKind ∧ (faultsTaken b a bytes s).startTimer = s.startTimer ∧
    (faultsTaken b a bytes s).trip = s.trip ∧ (faultsTaken b a bytes s).freeCount = s.freeCount := by
  have h := foldl_rel (fun s t =>
      t.pending = s.pending ∧ t.key = s.key ∧ t.inReset = s.inReset ∧ t.now = s.now ∧ t.txHold = s.txHold ∧ t.lossMarks = s.lossMarks ∧ t.refresh = s.refresh ∧ t.loop = s.loop ∧ t.watch = s.watch ∧
      t.tracks = s.tracks ∧ t.levers = s.levers ∧ t.lineA = s.lineA ∧ t.lineB = s.lineB ∧ t.incoming = s.incoming ∧
      t.here = s.here ∧ t.exchanges = s.exchanges ∧ t.obstructionA = s.obstructionA ∧
      t.obstructionB = s.obstructionB ∧ t.sections = s.sections ∧ t.lamps = s.lamps ∧ t.outputs = s.outputs ∧
      t.groupLive = s.groupLive ∧ t.stored = s.stored ∧ t.active = s.active ∧ t.shadow = s.shadow ∧
      t.check = s.check ∧ t.storeOp = s.storeOp ∧ t.switchHeld = s.switchHeld ∧ t.restartDue = s.restartDue ∧
      t.lastRequester = s.lastRequester ∧ t.part = s.part ∧ t.resetKind = s.resetKind ∧
      t.startTimer = s.startTimer ∧ t.trip = s.trip ∧ t.freeCount = s.freeCount)
    (fun s => by and_intros <;> rfl) (fun s t r h h' => by simp_all) (fun s (p : Nat × Nat) => faultTaken a bytes s p.1 p.2) (fun s x => by simp) (b.assignedChannels a) s
  simpa [faultsTaken] using h

@[simp] theorem instrumentsTaken_same (b : Bank) (a : Nat) (bytes : List Byte) (s : State) :
    (instrumentsTaken b a bytes s).pending = s.pending ∧ (instrumentsTaken b a bytes s).key = s.key ∧
    (instrumentsTaken b a bytes s).inReset = s.inReset ∧ (instrumentsTaken b a bytes s).now = s.now ∧
    (instrumentsTaken b a bytes s).txHold = s.txHold ∧ (instrumentsTaken b a bytes s).lossMarks = s.lossMarks ∧
    (instrumentsTaken b a bytes s).refresh = s.refresh ∧ (instrumentsTaken b a bytes s).loop = s.loop ∧
    (instrumentsTaken b a bytes s).watch = s.watch ∧ (instrumentsTaken b a bytes s).units = s.units ∧
    (instrumentsTaken b a bytes s).tracks = s.tracks ∧ (instrumentsTaken b a bytes s).levers = s.levers ∧
    (instrumentsTaken b a bytes s).obstructionA = s.obstructionA ∧
    (instrumentsTaken b a bytes s).obstructionB = s.obstructionB ∧
    (instrumentsTaken b a bytes s).outputs = s.outputs ∧ (instrumentsTaken b a bytes s).groupLive = s.groupLive ∧
    (instrumentsTaken b a bytes s).stored = s.stored ∧ (instrumentsTaken b a bytes s).active = s.active ∧
    (instrumentsTaken b a bytes s).shadow = s.shadow ∧ (instrumentsTaken b a bytes s).check = s.check ∧
    (instrumentsTaken b a bytes s).storeOp = s.storeOp ∧ (instrumentsTaken b a bytes s).switchHeld = s.switchHeld ∧
    (instrumentsTaken b a bytes s).restartDue = s.restartDue ∧
    (instrumentsTaken b a bytes s).lastRequester = s.lastRequester ∧ (instrumentsTaken b a bytes s).part = s.part ∧
    (instrumentsTaken b a bytes s).resetKind = s.resetKind ∧
    (instrumentsTaken b a bytes s).startTimer = s.startTimer ∧ (instrumentsTaken b a bytes s).trip = s.trip ∧
    (instrumentsTaken b a bytes s).freeCount = s.freeCount := by
  have h1 := foldl_rel (fun s t : State =>
      t.pending = s.pending ∧ t.key = s.key ∧ t.inReset = s.inReset ∧ t.now = s.now ∧ t.txHold = s.txHold ∧
      t.lossMarks = s.lossMarks ∧ t.refresh = s.refresh ∧ t.loop = s.loop ∧ t.watch = s.watch ∧ t.units = s.units ∧
      t.tracks = s.tracks ∧ t.levers = s.levers ∧ t.obstructionA = s.obstructionA ∧ t.obstructionB = s.obstructionB ∧
      t.outputs = s.outputs ∧ t.groupLive = s.groupLive ∧ t.stored = s.stored ∧ t.active = s.active ∧
      t.shadow = s.shadow ∧ t.check = s.check ∧ t.storeOp = s.storeOp ∧ t.switchHeld = s.switchHeld ∧
      t.restartDue = s.restartDue ∧ t.lastRequester = s.lastRequester ∧ t.part = s.part ∧ t.resetKind = s.resetKind ∧
      t.startTimer = s.startTimer ∧ t.trip = s.trip ∧ t.freeCount = s.freeCount)
    (fun s => by and_intros <;> rfl) (fun s t r h h' => by simp_all)
    (fun s (p : Nat × Nat) => takeCommutator s b p.2 (reportedCommutator bytes p.1)) (fun s x => by simp)
    (b.assignedChannels a) s
  have h2 := foldl_rel (fun s t : State =>
      t.pending = s.pending ∧ t.key = s.key ∧ t.inReset = s.inReset ∧ t.now = s.now ∧ t.txHold = s.txHold ∧
      t.lossMarks = s.lossMarks ∧ t.refresh = s.refresh ∧ t.loop = s.loop ∧ t.watch = s.watch ∧ t.units = s.units ∧
      t.tracks = s.tracks ∧ t.levers = s.levers ∧ t.obstructionA = s.obstructionA ∧ t.obstructionB = s.obstructionB ∧
      t.outputs = s.outputs ∧ t.groupLive = s.groupLive ∧ t.stored = s.stored ∧ t.active = s.active ∧
      t.shadow = s.shadow ∧ t.check = s.check ∧ t.storeOp = s.storeOp ∧ t.switchHeld = s.switchHeld ∧
      t.restartDue = s.restartDue ∧ t.lastRequester = s.lastRequester ∧ t.part = s.part ∧ t.resetKind = s.resetKind ∧
      t.startTimer = s.startTimer ∧ t.trip = s.trip ∧ t.freeCount = s.freeCount)
    (fun s => by and_intros <;> rfl) (fun s t r h h' => by simp_all)
    (fun s (p : Nat × Nat) => if tapperMark bytes p.1 then localStroke s b p.2 else s)
    (fun s x => by split <;> simp) (b.assignedChannels a)
    ((b.assignedChannels a).foldl (fun s (p : Nat × Nat) => takeCommutator s b p.2 (reportedCommutator bytes p.1)) s)
  unfold instrumentsTaken
  dsimp only at h1 h2 ⊢
  split <;> simp_all

@[simp] theorem changedPurged_same (old : Option Bank) (new : Bank) (s : State) :
    (changedPurged old new s).pending = s.pending ∧ (changedPurged old new s).key = s.key ∧
    (changedPurged old new s).inReset = s.inReset ∧ (changedPurged old new s).now = s.now ∧
    (changedPurged old new s).txHold = s.txHold ∧ (changedPurged old new s).loop = s.loop ∧
    (changedPurged old new s).watch = s.watch ∧ (changedPurged old new s).tracks = s.tracks ∧ (changedPurged old new s).levers = s.levers ∧
    (changedPurged old new s).lineA = s.lineA ∧ (changedPurged old new s).lineB = s.lineB ∧
    (changedPurged old new s).incoming = s.incoming ∧ (changedPurged old new s).here = s.here ∧
    (changedPurged old new s).exchanges = s.exchanges ∧ (changedPurged old new s).obstructionA = s.obstructionA ∧
    (changedPurged old new s).obstructionB = s.obstructionB ∧ (changedPurged old new s).sections = s.sections ∧
    (changedPurged old new s).lamps = s.lamps ∧ (changedPurged old new s).outputs = s.outputs ∧
    (changedPurged old new s).groupLive = s.groupLive ∧ (changedPurged old new s).stored = s.stored ∧
    (changedPurged old new s).active = s.active ∧ (changedPurged old new s).shadow = s.shadow ∧
    (changedPurged old new s).check = s.check ∧ (changedPurged old new s).storeOp = s.storeOp ∧
    (changedPurged old new s).switchHeld = s.switchHeld ∧ (changedPurged old new s).lastRequester = s.lastRequester ∧
    (changedPurged old new s).part = s.part ∧ (changedPurged old new s).resetKind = s.resetKind ∧
    (changedPurged old new s).startTimer = s.startTimer ∧ (changedPurged old new s).trip = s.trip ∧
    (changedPurged old new s).events = s.events ∧ (changedPurged old new s).freeCount = s.freeCount := by
  obtain ⟨_, _, _, _, _, _, h⟩ := entriesLeave_form
    { s with outQueue := s.outQueue.filter fun f => !entryChanged old new f.dest,
             lossMarks := s.lossMarks.filter fun a => !entryChanged old new a,
             refresh := s.refresh.filter fun p => !entryChanged old new p.1,
             restartDue := s.restartDue || s.outQueue.any fun f => entryChanged old new f.dest && f.restart }
    (s.pendingReturns.filter fun p => !entryChanged old new p.dest)
  unfold changedPurged
  dsimp only
  rw [h]
  and_intros <;> rfl

@[simp] theorem refreshStarted_same (old : Option Bank) (new : Bank) (s : State) :
    (refreshStarted old new s).pending = s.pending ∧ (refreshStarted old new s).key = s.key ∧
    (refreshStarted old new s).inReset = s.inReset ∧ (refreshStarted old new s).now = s.now ∧
    (refreshStarted old new s).outQueue = s.outQueue ∧ (refreshStarted old new s).seq = s.seq ∧
    (refreshStarted old new s).sending = s.sending ∧ (refreshStarted old new s).txHold = s.txHold ∧
    (refreshStarted old new s).pendingReturns = s.pendingReturns ∧
    (refreshStarted old new s).lossMarks = s.lossMarks ∧ (refreshStarted old new s).loop = s.loop ∧
    (refreshStarted old new s).watch = s.watch ∧ (refreshStarted old new s).units = s.units ∧
    (refreshStarted old new s).tracks = s.tracks ∧ (refreshStarted old new s).levers = s.levers ∧
    (refreshStarted old new s).lineA = s.lineA ∧ (refreshStarted old new s).lineB = s.lineB ∧
    (refreshStarted old new s).incoming = s.incoming ∧ (refreshStarted old new s).here = s.here ∧
    (refreshStarted old new s).exchanges = s.exchanges ∧ (refreshStarted old new s).obstructionA = s.obstructionA ∧
    (refreshStarted old new s).obstructionB = s.obstructionB ∧ (refreshStarted old new s).sections = s.sections ∧
    (refreshStarted old new s).lamps = s.lamps ∧ (refreshStarted old new s).outputs = s.outputs ∧
    (refreshStarted old new s).groupLive = s.groupLive ∧ (refreshStarted old new s).stored = s.stored ∧
    (refreshStarted old new s).active = s.active ∧ (refreshStarted old new s).shadow = s.shadow ∧
    (refreshStarted old new s).check = s.check ∧ (refreshStarted old new s).storeOp = s.storeOp ∧
    (refreshStarted old new s).switchHeld = s.switchHeld ∧ (refreshStarted old new s).restartDue = s.restartDue ∧
    (refreshStarted old new s).lastRequester = s.lastRequester ∧ (refreshStarted old new s).part = s.part ∧
    (refreshStarted old new s).resetKind = s.resetKind ∧ (refreshStarted old new s).startTimer = s.startTimer ∧
    (refreshStarted old new s).trip = s.trip ∧ (refreshStarted old new s).events = s.events ∧
    (refreshStarted old new s).freeCount = s.freeCount := by and_intros <;> rfl

@[simp] theorem unitsAdopted_same (old : Option Bank) (new : Bank) (s : State) :
    (unitsAdopted old new s).pending = s.pending ∧ (unitsAdopted old new s).key = s.key ∧
    (unitsAdopted old new s).inReset = s.inReset ∧ (unitsAdopted old new s).now = s.now ∧
    (unitsAdopted old new s).outQueue = s.outQueue ∧ (unitsAdopted old new s).seq = s.seq ∧
    (unitsAdopted old new s).sending = s.sending ∧ (unitsAdopted old new s).txHold = s.txHold ∧
    (unitsAdopted old new s).pendingReturns = s.pendingReturns ∧ (unitsAdopted old new s).lossMarks = s.lossMarks ∧
    (unitsAdopted old new s).refresh = s.refresh ∧ (unitsAdopted old new s).loop = s.loop ∧
    (unitsAdopted old new s).watch = s.watch ∧ (unitsAdopted old new s).tracks = s.tracks ∧
    (unitsAdopted old new s).levers = s.levers ∧ (unitsAdopted old new s).lineA = s.lineA ∧
    (unitsAdopted old new s).lineB = s.lineB ∧ (unitsAdopted old new s).incoming = s.incoming ∧
    (unitsAdopted old new s).here = s.here ∧ (unitsAdopted old new s).exchanges = s.exchanges ∧
    (unitsAdopted old new s).obstructionA = s.obstructionA ∧ (unitsAdopted old new s).obstructionB = s.obstructionB ∧
    (unitsAdopted old new s).sections = s.sections ∧ (unitsAdopted old new s).lamps = s.lamps ∧
    (unitsAdopted old new s).outputs = s.outputs ∧ (unitsAdopted old new s).groupLive = s.groupLive ∧
    (unitsAdopted old new s).stored = s.stored ∧ (unitsAdopted old new s).active = s.active ∧
    (unitsAdopted old new s).shadow = s.shadow ∧ (unitsAdopted old new s).check = s.check ∧
    (unitsAdopted old new s).storeOp = s.storeOp ∧ (unitsAdopted old new s).switchHeld = s.switchHeld ∧
    (unitsAdopted old new s).restartDue = s.restartDue ∧ (unitsAdopted old new s).lastRequester = s.lastRequester ∧
    (unitsAdopted old new s).part = s.part ∧ (unitsAdopted old new s).resetKind = s.resetKind ∧
    (unitsAdopted old new s).startTimer = s.startTimer ∧ (unitsAdopted old new s).trip = s.trip ∧
    (unitsAdopted old new s).events = s.events ∧ (unitsAdopted old new s).freeCount = s.freeCount := by and_intros <;> rfl

@[simp] theorem tracksAdopted_same (old : Option Bank) (new : Bank) (l : List Nat) (s : State) :
    (tracksAdopted old new l s).pending = s.pending ∧ (tracksAdopted old new l s).key = s.key ∧
    (tracksAdopted old new l s).inReset = s.inReset ∧ (tracksAdopted old new l s).now = s.now ∧
    (tracksAdopted old new l s).outQueue = s.outQueue ∧ (tracksAdopted old new l s).seq = s.seq ∧
    (tracksAdopted old new l s).sending = s.sending ∧ (tracksAdopted old new l s).txHold = s.txHold ∧
    (tracksAdopted old new l s).pendingReturns = s.pendingReturns ∧
    (tracksAdopted old new l s).lossMarks = s.lossMarks ∧ (tracksAdopted old new l s).refresh = s.refresh ∧
    (tracksAdopted old new l s).loop = s.loop ∧ (tracksAdopted old new l s).watch = s.watch ∧
    (tracksAdopted old new l s).units = s.units ∧ (tracksAdopted old new l s).lineA = s.lineA ∧
    (tracksAdopted old new l s).lineB = s.lineB ∧ (tracksAdopted old new l s).incoming = s.incoming ∧
    (tracksAdopted old new l s).here = s.here ∧ (tracksAdopted old new l s).exchanges = s.exchanges ∧
    (tracksAdopted old new l s).obstructionA = s.obstructionA ∧
    (tracksAdopted old new l s).obstructionB = s.obstructionB ∧ (tracksAdopted old new l s).lamps = s.lamps ∧
    (tracksAdopted old new l s).outputs = s.outputs ∧ (tracksAdopted old new l s).groupLive = s.groupLive ∧
    (tracksAdopted old new l s).stored = s.stored ∧ (tracksAdopted old new l s).active = s.active ∧
    (tracksAdopted old new l s).shadow = s.shadow ∧ (tracksAdopted old new l s).check = s.check ∧
    (tracksAdopted old new l s).storeOp = s.storeOp ∧ (tracksAdopted old new l s).switchHeld = s.switchHeld ∧
    (tracksAdopted old new l s).restartDue = s.restartDue ∧
    (tracksAdopted old new l s).lastRequester = s.lastRequester ∧ (tracksAdopted old new l s).part = s.part ∧
    (tracksAdopted old new l s).resetKind = s.resetKind ∧ (tracksAdopted old new l s).startTimer = s.startTimer ∧
    (tracksAdopted old new l s).trip = s.trip ∧ (tracksAdopted old new l s).events = s.events ∧
    (tracksAdopted old new l s).freeCount = s.freeCount := by and_intros <;> rfl

@[simp] theorem leversAdopted_same (old : Option Bank) (new : Bank) (l : List Nat) (s : State) :
    (leversAdopted old new l s).pending = s.pending ∧ (leversAdopted old new l s).key = s.key ∧
    (leversAdopted old new l s).inReset = s.inReset ∧ (leversAdopted old new l s).now = s.now ∧
    (leversAdopted old new l s).outQueue = s.outQueue ∧ (leversAdopted old new l s).seq = s.seq ∧
    (leversAdopted old new l s).sending = s.sending ∧ (leversAdopted old new l s).txHold = s.txHold ∧
    (leversAdopted old new l s).pendingReturns = s.pendingReturns ∧
    (leversAdopted old new l s).lossMarks = s.lossMarks ∧ (leversAdopted old new l s).refresh = s.refresh ∧
    (leversAdopted old new l s).loop = s.loop ∧ (leversAdopted old new l s).watch = s.watch ∧
    (leversAdopted old new l s).units = s.units ∧ (leversAdopted old new l s).tracks = s.tracks ∧
    (leversAdopted old new l s).lineA = s.lineA ∧ (leversAdopted old new l s).lineB = s.lineB ∧
    (leversAdopted old new l s).incoming = s.incoming ∧ (leversAdopted old new l s).here = s.here ∧
    (leversAdopted old new l s).exchanges = s.exchanges ∧ (leversAdopted old new l s).obstructionA = s.obstructionA ∧
    (leversAdopted old new l s).obstructionB = s.obstructionB ∧ (leversAdopted old new l s).sections = s.sections ∧
    (leversAdopted old new l s).lamps = s.lamps ∧ (leversAdopted old new l s).outputs = s.outputs ∧
    (leversAdopted old new l s).groupLive = s.groupLive ∧ (leversAdopted old new l s).stored = s.stored ∧
    (leversAdopted old new l s).active = s.active ∧ (leversAdopted old new l s).shadow = s.shadow ∧
    (leversAdopted old new l s).check = s.check ∧ (leversAdopted old new l s).storeOp = s.storeOp ∧
    (leversAdopted old new l s).switchHeld = s.switchHeld ∧ (leversAdopted old new l s).restartDue = s.restartDue ∧
    (leversAdopted old new l s).lastRequester = s.lastRequester ∧ (leversAdopted old new l s).part = s.part ∧
    (leversAdopted old new l s).resetKind = s.resetKind ∧ (leversAdopted old new l s).startTimer = s.startTimer ∧
    (leversAdopted old new l s).trip = s.trip ∧ (leversAdopted old new l s).events = s.events ∧
    (leversAdopted old new l s).freeCount = s.freeCount := by
  have h := foldl_rel (fun s t : State =>
      t.pending = s.pending ∧ t.key = s.key ∧ t.inReset = s.inReset ∧ t.now = s.now ∧ t.outQueue = s.outQueue ∧
      t.seq = s.seq ∧ t.sending = s.sending ∧ t.txHold = s.txHold ∧ t.pendingReturns = s.pendingReturns ∧
      t.lossMarks = s.lossMarks ∧ t.refresh = s.refresh ∧ t.loop = s.loop ∧ t.watch = s.watch ∧ t.units = s.units ∧
      t.tracks = s.tracks ∧ t.lineA = s.lineA ∧ t.lineB = s.lineB ∧ t.incoming = s.incoming ∧ t.here = s.here ∧
      t.exchanges = s.exchanges ∧ t.obstructionA = s.obstructionA ∧ t.obstructionB = s.obstructionB ∧
      t.sections = s.sections ∧ t.lamps = s.lamps ∧ t.outputs = s.outputs ∧ t.groupLive = s.groupLive ∧
      t.stored = s.stored ∧ t.active = s.active ∧ t.shadow = s.shadow ∧ t.check = s.check ∧ t.storeOp = s.storeOp ∧
      t.switchHeld = s.switchHeld ∧ t.restartDue = s.restartDue ∧ t.lastRequester = s.lastRequester ∧
      t.part = s.part ∧ t.resetKind = s.resetKind ∧ t.startTimer = s.startTimer ∧ t.trip = s.trip ∧
      t.events = s.events ∧ t.freeCount = s.freeCount)
    (fun s => by and_intros <;> rfl) (fun s t r h h' => by simp_all) leverLost (fun s x => by simp) l
  unfold leversAdopted
  exact h _

@[simp] theorem sectionsAdopted_same (old : Option Bank) (new : Bank) (l : List Nat) (s : State) :
    (sectionsAdopted old new l s).pending = s.pending ∧ (sectionsAdopted old new l s).key = s.key ∧
    (sectionsAdopted old new l s).inReset = s.inReset ∧ (sectionsAdopted old new l s).now = s.now ∧
    (sectionsAdopted old new l s).outQueue = s.outQueue ∧ (sectionsAdopted old new l s).seq = s.seq ∧
    (sectionsAdopted old new l s).sending = s.sending ∧ (sectionsAdopted old new l s).txHold = s.txHold ∧
    (sectionsAdopted old new l s).pendingReturns = s.pendingReturns ∧
    (sectionsAdopted old new l s).lossMarks = s.lossMarks ∧ (sectionsAdopted old new l s).refresh = s.refresh ∧
    (sectionsAdopted old new l s).loop = s.loop ∧ (sectionsAdopted old new l s).watch = s.watch ∧
    (sectionsAdopted old new l s).units = s.units ∧ (sectionsAdopted old new l s).tracks = s.tracks ∧
    (sectionsAdopted old new l s).levers = s.levers ∧ (sectionsAdopted old new l s).lineA = s.lineA ∧
    (sectionsAdopted old new l s).lineB = s.lineB ∧ (sectionsAdopted old new l s).obstructionA = s.obstructionA ∧
    (sectionsAdopted old new l s).obstructionB = s.obstructionB ∧ (sectionsAdopted old new l s).lamps = s.lamps ∧
    (sectionsAdopted old new l s).outputs = s.outputs ∧ (sectionsAdopted old new l s).groupLive = s.groupLive ∧
    (sectionsAdopted old new l s).stored = s.stored ∧ (sectionsAdopted old new l s).active = s.active ∧
    (sectionsAdopted old new l s).shadow = s.shadow ∧ (sectionsAdopted old new l s).check = s.check ∧
    (sectionsAdopted old new l s).storeOp = s.storeOp ∧ (sectionsAdopted old new l s).switchHeld = s.switchHeld ∧
    (sectionsAdopted old new l s).restartDue = s.restartDue ∧
    (sectionsAdopted old new l s).lastRequester = s.lastRequester ∧ (sectionsAdopted old new l s).part = s.part ∧
    (sectionsAdopted old new l s).resetKind = s.resetKind ∧ (sectionsAdopted old new l s).startTimer = s.startTimer ∧
    (sectionsAdopted old new l s).trip = s.trip ∧ (sectionsAdopted old new l s).events = s.events ∧
    (sectionsAdopted old new l s).freeCount = s.freeCount := by
  have h := foldl_rel (fun s t : State =>
      t.pending = s.pending ∧ t.key = s.key ∧ t.inReset = s.inReset ∧ t.now = s.now ∧ t.outQueue = s.outQueue ∧
      t.seq = s.seq ∧ t.sending = s.sending ∧ t.txHold = s.txHold ∧ t.pendingReturns = s.pendingReturns ∧
      t.lossMarks = s.lossMarks ∧ t.refresh = s.refresh ∧ t.loop = s.loop ∧ t.watch = s.watch ∧ t.units = s.units ∧
      t.tracks = s.tracks ∧ t.levers = s.levers ∧ t.lineA = s.lineA ∧ t.lineB = s.lineB ∧
      t.obstructionA = s.obstructionA ∧ t.obstructionB = s.obstructionB ∧ t.lamps = s.lamps ∧ t.outputs = s.outputs ∧
      t.groupLive = s.groupLive ∧ t.stored = s.stored ∧ t.active = s.active ∧ t.shadow = s.shadow ∧
      t.check = s.check ∧ t.storeOp = s.storeOp ∧ t.switchHeld = s.switchHeld ∧ t.restartDue = s.restartDue ∧
      t.lastRequester = s.lastRequester ∧ t.part = s.part ∧ t.resetKind = s.resetKind ∧ t.startTimer = s.startTimer ∧
      t.trip = s.trip ∧ t.events = s.events ∧ t.freeCount = s.freeCount)
    (fun s => by and_intros <;> rfl) (fun s t r h h' => by simp_all) commutatorLost (fun s x => by simp) l
  unfold sectionsAdopted
  exact h _

@[simp] theorem lampsAdopted_same (old : Option Bank) (new : Bank) (l : List Nat) (s : State) :
    (lampsAdopted old new l s).pending = s.pending ∧ (lampsAdopted old new l s).key = s.key ∧
    (lampsAdopted old new l s).inReset = s.inReset ∧ (lampsAdopted old new l s).now = s.now ∧
    (lampsAdopted old new l s).txHold = s.txHold ∧ (lampsAdopted old new l s).lossMarks = s.lossMarks ∧
    (lampsAdopted old new l s).refresh = s.refresh ∧ (lampsAdopted old new l s).loop = s.loop ∧
    (lampsAdopted old new l s).watch = s.watch ∧ (lampsAdopted old new l s).units = s.units ∧
    (lampsAdopted old new l s).tracks = s.tracks ∧ (lampsAdopted old new l s).levers = s.levers ∧
    (lampsAdopted old new l s).lineA = s.lineA ∧ (lampsAdopted old new l s).lineB = s.lineB ∧
    (lampsAdopted old new l s).incoming = s.incoming ∧ (lampsAdopted old new l s).here = s.here ∧
    (lampsAdopted old new l s).exchanges = s.exchanges ∧ (lampsAdopted old new l s).obstructionA = s.obstructionA ∧
    (lampsAdopted old new l s).obstructionB = s.obstructionB ∧ (lampsAdopted old new l s).sections = s.sections ∧
    (lampsAdopted old new l s).outputs = s.outputs ∧ (lampsAdopted old new l s).groupLive = s.groupLive ∧
    (lampsAdopted old new l s).stored = s.stored ∧ (lampsAdopted old new l s).active = s.active ∧
    (lampsAdopted old new l s).shadow = s.shadow ∧ (lampsAdopted old new l s).check = s.check ∧
    (lampsAdopted old new l s).storeOp = s.storeOp ∧ (lampsAdopted old new l s).switchHeld = s.switchHeld ∧
    (lampsAdopted old new l s).restartDue = s.restartDue ∧
    (lampsAdopted old new l s).lastRequester = s.lastRequester ∧ (lampsAdopted old new l s).part = s.part ∧
    (lampsAdopted old new l s).resetKind = s.resetKind ∧ (lampsAdopted old new l s).startTimer = s.startTimer ∧
    (lampsAdopted old new l s).trip = s.trip ∧ (lampsAdopted old new l s).freeCount = s.freeCount := by
  have h := foldl_rel (fun s t : State =>
      t.pending = s.pending ∧ t.key = s.key ∧ t.inReset = s.inReset ∧ t.now = s.now ∧ t.txHold = s.txHold ∧
      t.lossMarks = s.lossMarks ∧ t.refresh = s.refresh ∧ t.loop = s.loop ∧ t.watch = s.watch ∧ t.units = s.units ∧
      t.tracks = s.tracks ∧ t.levers = s.levers ∧ t.lineA = s.lineA ∧ t.lineB = s.lineB ∧ t.incoming = s.incoming ∧
      t.here = s.here ∧ t.exchanges = s.exchanges ∧ t.obstructionA = s.obstructionA ∧
      t.obstructionB = s.obstructionB ∧ t.sections = s.sections ∧ t.outputs = s.outputs ∧ t.groupLive = s.groupLive ∧
      t.stored = s.stored ∧ t.active = s.active ∧ t.shadow = s.shadow ∧ t.check = s.check ∧ t.storeOp = s.storeOp ∧
      t.switchHeld = s.switchHeld ∧ t.restartDue = s.restartDue ∧ t.lastRequester = s.lastRequester ∧
      t.part = s.part ∧ t.resetKind = s.resetKind ∧ t.startTimer = s.startTimer ∧ t.trip = s.trip ∧
      t.freeCount = s.freeCount)
    (fun s => by and_intros <;> rfl) (fun s t r h h' => by simp_all) lampLost (fun s x => by simp) l
  unfold lampsAdopted
  exact h _

@[simp] theorem groupsAdopted_same (old : Option Bank) (new : Bank) (s : State) :
    (groupsAdopted old new s).pending = s.pending ∧ (groupsAdopted old new s).key = s.key ∧
    (groupsAdopted old new s).inReset = s.inReset ∧ (groupsAdopted old new s).now = s.now ∧
    (groupsAdopted old new s).outQueue = s.outQueue ∧ (groupsAdopted old new s).seq = s.seq ∧
    (groupsAdopted old new s).sending = s.sending ∧ (groupsAdopted old new s).txHold = s.txHold ∧
    (groupsAdopted old new s).pendingReturns = s.pendingReturns ∧ (groupsAdopted old new s).lossMarks = s.lossMarks ∧
    (groupsAdopted old new s).refresh = s.refresh ∧ (groupsAdopted old new s).loop = s.loop ∧
    (groupsAdopted old new s).watch = s.watch ∧ (groupsAdopted old new s).units = s.units ∧
    (groupsAdopted old new s).tracks = s.tracks ∧ (groupsAdopted old new s).levers = s.levers ∧
    (groupsAdopted old new s).lineA = s.lineA ∧ (groupsAdopted old new s).lineB = s.lineB ∧
    (groupsAdopted old new s).incoming = s.incoming ∧ (groupsAdopted old new s).here = s.here ∧
    (groupsAdopted old new s).exchanges = s.exchanges ∧ (groupsAdopted old new s).obstructionA = s.obstructionA ∧
    (groupsAdopted old new s).obstructionB = s.obstructionB ∧ (groupsAdopted old new s).sections = s.sections ∧
    (groupsAdopted old new s).lamps = s.lamps ∧ (groupsAdopted old new s).outputs = s.outputs ∧
    (groupsAdopted old new s).stored = s.stored ∧ (groupsAdopted old new s).active = s.active ∧
    (groupsAdopted old new s).shadow = s.shadow ∧ (groupsAdopted old new s).check = s.check ∧
    (groupsAdopted old new s).storeOp = s.storeOp ∧ (groupsAdopted old new s).switchHeld = s.switchHeld ∧
    (groupsAdopted old new s).restartDue = s.restartDue ∧ (groupsAdopted old new s).lastRequester = s.lastRequester ∧
    (groupsAdopted old new s).part = s.part ∧ (groupsAdopted old new s).resetKind = s.resetKind ∧
    (groupsAdopted old new s).startTimer = s.startTimer ∧ (groupsAdopted old new s).trip = s.trip ∧
    (groupsAdopted old new s).events = s.events ∧ (groupsAdopted old new s).freeCount = s.freeCount := by and_intros <;> rfl

@[simp] theorem linesAdopted_same (old : Option Bank) (new : Bank) (s : State) :
    (linesAdopted old new s).pending = s.pending ∧ (linesAdopted old new s).key = s.key ∧
    (linesAdopted old new s).inReset = s.inReset ∧ (linesAdopted old new s).now = s.now ∧
    (linesAdopted old new s).txHold = s.txHold ∧ (linesAdopted old new s).lossMarks = s.lossMarks ∧
    (linesAdopted old new s).refresh = s.refresh ∧ (linesAdopted old new s).loop = s.loop ∧
    (linesAdopted old new s).watch = s.watch ∧ (linesAdopted old new s).units = s.units ∧
    (linesAdopted old new s).tracks = s.tracks ∧ (linesAdopted old new s).levers = s.levers ∧
    (linesAdopted old new s).exchanges = s.exchanges ∧ (linesAdopted old new s).obstructionA = s.obstructionA ∧
    (linesAdopted old new s).obstructionB = s.obstructionB ∧ (linesAdopted old new s).lamps = s.lamps ∧
    (linesAdopted old new s).outputs = s.outputs ∧ (linesAdopted old new s).groupLive = s.groupLive ∧
    (linesAdopted old new s).stored = s.stored ∧ (linesAdopted old new s).active = s.active ∧
    (linesAdopted old new s).shadow = s.shadow ∧ (linesAdopted old new s).check = s.check ∧
    (linesAdopted old new s).storeOp = s.storeOp ∧ (linesAdopted old new s).switchHeld = s.switchHeld ∧
    (linesAdopted old new s).restartDue = s.restartDue ∧ (linesAdopted old new s).lastRequester = s.lastRequester ∧
    (linesAdopted old new s).part = s.part ∧ (linesAdopted old new s).resetKind = s.resetKind ∧
    (linesAdopted old new s).startTimer = s.startTimer ∧ (linesAdopted old new s).trip = s.trip ∧
    (linesAdopted old new s).freeCount = s.freeCount := by
  unfold linesAdopted
  try dsimp only
  repeat' split
  all_goals simp

@[simp] theorem probesPlaced_same (old : Option Bank) (new : Bank) (s : State) :
    (probesPlaced old new s).pending = s.pending ∧ (probesPlaced old new s).key = s.key ∧
    (probesPlaced old new s).inReset = s.inReset ∧ (probesPlaced old new s).now = s.now ∧
    (probesPlaced old new s).txHold = s.txHold ∧ (probesPlaced old new s).lossMarks = s.lossMarks ∧
    (probesPlaced old new s).loop = s.loop ∧ (probesPlaced old new s).watch = s.watch ∧
    (probesPlaced old new s).tracks = s.tracks ∧ (probesPlaced old new s).levers = s.levers ∧
    (probesPlaced old new s).lineA = s.lineA ∧ (probesPlaced old new s).lineB = s.lineB ∧
    (probesPlaced old new s).incoming = s.incoming ∧ (probesPlaced old new s).here = s.here ∧
    (probesPlaced old new s).exchanges = s.exchanges ∧ (probesPlaced old new s).obstructionA = s.obstructionA ∧
    (probesPlaced old new s).obstructionB = s.obstructionB ∧ (probesPlaced old new s).sections = s.sections ∧
    (probesPlaced old new s).lamps = s.lamps ∧ (probesPlaced old new s).outputs = s.outputs ∧
    (probesPlaced old new s).groupLive = s.groupLive ∧ (probesPlaced old new s).stored = s.stored ∧
    (probesPlaced old new s).active = s.active ∧ (probesPlaced old new s).shadow = s.shadow ∧
    (probesPlaced old new s).check = s.check ∧ (probesPlaced old new s).storeOp = s.storeOp ∧
    (probesPlaced old new s).switchHeld = s.switchHeld ∧ (probesPlaced old new s).lastRequester = s.lastRequester ∧
    (probesPlaced old new s).part = s.part ∧ (probesPlaced old new s).resetKind = s.resetKind ∧
    (probesPlaced old new s).startTimer = s.startTimer ∧ (probesPlaced old new s).trip = s.trip ∧
    (probesPlaced old new s).freeCount = s.freeCount := by simp [probesPlaced]

@[simp] theorem bankAdopted_same (img : BankImage) (s : State) :
    (bankAdopted img s).pending = s.pending ∧ (bankAdopted img s).key = s.key ∧
    (bankAdopted img s).inReset = s.inReset ∧ (bankAdopted img s).now = s.now ∧
    (bankAdopted img s).txHold = s.txHold ∧ (bankAdopted img s).lossMarks = s.lossMarks ∧ (bankAdopted img s).loop = s.loop ∧ (bankAdopted img s).watch = s.watch ∧
    (bankAdopted img s).obstructionA = s.obstructionA ∧ (bankAdopted img s).obstructionB = s.obstructionB ∧
    (bankAdopted img s).outputs = s.outputs ∧ (bankAdopted img s).stored = s.stored ∧
    (bankAdopted img s).shadow = s.shadow ∧ (bankAdopted img s).check = s.check ∧
    (bankAdopted img s).storeOp = s.storeOp ∧ (bankAdopted img s).switchHeld = s.switchHeld ∧
    (bankAdopted img s).lastRequester = s.lastRequester ∧ (bankAdopted img s).part = s.part ∧
    (bankAdopted img s).resetKind = s.resetKind ∧ (bankAdopted img s).startTimer = s.startTimer ∧
    (bankAdopted img s).trip = s.trip ∧ (bankAdopted img s).freeCount = s.freeCount := by simp [bankAdopted]

@[simp] theorem bankAdopted_active (img : BankImage) (s : State) : (bankAdopted img s).active = some img := by
  simp [bankAdopted]

@[simp] theorem switchCompleted_same (img : BankImage) (s : State) :
    (switchCompleted img s).pending = s.pending ∧ (switchCompleted img s).key = s.key ∧
    (switchCompleted img s).inReset = s.inReset ∧ (switchCompleted img s).now = s.now ∧
    (switchCompleted img s).txHold = s.txHold ∧ (switchCompleted img s).lossMarks = s.lossMarks ∧ (switchCompleted img s).loop = s.loop ∧
    (switchCompleted img s).watch = s.watch ∧ (switchCompleted img s).obstructionA = s.obstructionA ∧
    (switchCompleted img s).obstructionB = s.obstructionB ∧ (switchCompleted img s).outputs = s.outputs ∧
    (switchCompleted img s).stored = s.stored ∧ (switchCompleted img s).shadow = s.shadow ∧
    (switchCompleted img s).storeOp = s.storeOp ∧ (switchCompleted img s).lastRequester = s.lastRequester ∧
    (switchCompleted img s).resetKind = s.resetKind ∧ (switchCompleted img s).startTimer = s.startTimer ∧
    (switchCompleted img s).trip = s.trip ∧ (switchCompleted img s).freeCount = s.freeCount := by simp [switchCompleted]

@[simp] theorem switchCompleted_fields (img : BankImage) (s : State) :
    (switchCompleted img s).active = some img ∧ (switchCompleted img s).part = .running ∧
    (switchCompleted img s).check = .unchecked ∧ (switchCompleted img s).switchHeld = false := by
  simp [switchCompleted]

end Sys2Proof.Machine
end

