-- ==== Sys2Proof/Laws/Arrivals.lean ====
section
/-! SUPPORT. What an arrival comes to: frames by the cases of R6, reports that count, requests that are handled. -/

namespace Sys2Proof.Machine

theorem arrival_awake {s : State} (h : s.inReset = false) (dt : Time) (f : State → State) :
    arrival s dt f = f (s.advance dt) := by simp [arrival, h]

theorem arrival_held {s : State} (h : s.inReset = true) (dt : Time) (f : State → State) : arrival s dt f = s := by
  simp [arrival, h]

theorem wfFromUnit_valid {kind : Byte} {f : Frame} (h : wfFromUnit kind f = true) :
    frameValid kind f = true ∧ srcOf f ≠ 0 ∧ destOf f = 0 := by
  simp only [wfFromUnit, Bool.and_eq_true, bne_iff_ne, ne_eq, beq_iff_eq] at h
  exact ⟨h.1.1, h.1.2, h.2⟩

@[simp] theorem loopHeard_bank (s : State) : (loopHeard s).bank = s.bank := State.bank_of _ _ (by simp)

@[simp] theorem advance_bank (s : State) (dt : Time) : (s.advance dt).bank = s.bank := rfl

/-- A frame that is not valid has no effect (R6). -/
theorem frameArrival_invalid {s : State} (hs : s.inReset = false) {kind : Byte} {f : Frame}
    (h : frameValid kind f = false) (dt : Time) : frameArrival s dt kind f = s.advance dt := by
  simp [frameArrival, arrival_awake hs, frameArrives, h]

/-- Only a counted LEVER_REPORT completes a held switch, so only it purges (R17, R168). -/
theorem purgedFor_other {s : State} {kind : Byte} {f : Frame} (h : kind ≠ 8 ∨ s.switchHeld = false ∨ srcOf f = 0 ∨ s.bank = none) :
    purgedFor s kind f = s := by
  unfold purgedFor completesHeld
  rcases h with h | h | h | h
  · have h8 : kind ≠ 8#8 := h
    cases s.bank <;> simp [h8]
  · cases s.bank <;> simp [heldCompletes, h]
  · cases s.bank <;> simp [h]
  · simp [h]

/-- A counted report comes to what its owners make of it (R7, R27). -/
theorem counted_arrival {s : State} {b : Bank} {k : UnitKind} {kind : Byte} {f : Frame} {u : UnitRec}
    (h : Counted s b k kind f u) (hk : k.reports.map FrameKind.code = some kind.toNat)
    (hh : kind ≠ 8 ∨ s.switchHeld = false) (dt : Time) :
    frameArrival s dt kind f =
      concluded (s.advance dt)
        (reportTaken b (srcOf f) k f.payload (reportCounted (loopHeard (s.advance dt)) b (srcOf f))) := by
  obtain ⟨hv, hsrc, hd⟩ := wfFromUnit_valid h.formed
  have h13 : kind ≠ 13 := by rintro rfl; cases k <;> simp [UnitKind.reports, FrameKind.code] at hk
  have h14 : kind ≠ 14 := by rintro rfl; cases k <;> simp [UnitKind.reports, FrameKind.code] at hk
  have hn : k ≠ .none := by rintro rfl; simp [UnitKind.reports] at hk
  have hu : recAt (loopHeard (s.advance dt)).units (srcOf f) = some u := by simpa using h.unit
  rw [frameArrival, arrival_awake h.awake, frameArrives, if_pos hv,
    purgedFor_other (by rcases hh with hh | hh; exacts [.inl hh, .inr (.inl hh)]), frameTreated, if_neg hsrc,
    if_neg (by simp [hd])]
  simp only [loopHeard_bank, advance_bank, h.bank]
  rw [if_neg (by rw [h.rostered]; exact hn), if_neg h13, if_neg h14, h.rostered, if_pos hk, reportArrives]
  simp only [hu, h.active, h.rostered]

/-- A request from a source that is not a SILENT or MISMATCH terminal's goes to the handler (R36). -/
theorem maint_handled (h : State) (src : Nat) (f : RequestFrame) (code : Byte)
    (hs : h.bank = none ∨ ∃ b, h.bank = some b ∧ b.kindAt src = .mt ∧
      ∀ u, recAt h.units src = some u → u.state ≠ .mismatch ∧ u.state ≠ .silent) :
    maintArrives h src (requestFrame code f).payload =
      requestHandled (h.requestedBy src) src f.tag code.toNat f.params := by
  have hp : (requestFrame code f).payload = f.tag :: code :: f.params := rfl
  unfold maintArrives
  simp only [hp, byteAt, List.getD_cons_zero, List.getD_cons_succ, List.drop_succ_cons, List.drop_zero]
  rcases hs with hs | ⟨b, hs, hk, hu⟩
  · simp only [hs]
  · simp only [hs, hk, if_true]
    cases hr : recAt h.units src with
    | none => rfl
    | some u =>
      obtain ⟨h1, h2⟩ := hu u hr
      simp only [h1, h2, if_false]

/-- A request that the handler takes comes to what it makes of it (R36, R161). -/
theorem requested_arrival {s : State} {code : Byte} {f : RequestFrame} (h : Requested s code f) (dt : Time)
    (key : Option Bool) :
    requestArrival s dt key code f =
      concluded ((s.advance dt).sampled key)
        (requestHandled (heardRequest s dt key code f) (srcOf (requestFrame code f)) f.tag code.toNat f.params) := by
  obtain ⟨hv, hsrc, hd⟩ := wfFromUnit_valid h.formed
  have hb : (loopHeard ((s.advance dt).sampled key)).bank = s.bank := State.bank_of _ _ (by simp)
  have hu : (loopHeard ((s.advance dt).sampled key)).units = s.units := by simp
  have key' := maint_handled (loopHeard ((s.advance dt).sampled key)) (srcOf (requestFrame code f)) f
    code (by
      rw [hb, hu]
      rcases h.source with hs | hs
      · exact .inl (by simp [State.bank, hs])
      · exact .inr hs)
  rw [requestArrival, arrival_awake h.awake, frameArrives, if_pos hv, purgedFor_other (.inl (by decide)), frameTreated,
    if_neg hsrc, if_neg (by simp [hd]), hb]
  congr 1
  rcases h.source with hs | ⟨b, hs, hk, _⟩
  · have : s.bank = none := by simp [State.bank, hs]
    simp only [this, if_true]
    exact key'
  · simp only [hs, hk]
    exact key'

end Sys2Proof.Machine
end

