-- ==== Sys2Proof/Tests/Slice0.lean ====
section
/-! SUPPORT. Tests of the model on small states, with results taken from the manual's worked sequences, and for every
statement with hypotheses a state and operands that meet them. -/

namespace Sys2Proof.Tests

open Sys2Proof.Machine

set_option Elab.async false

/-! ### A small box -/

/-- A list of table entries, the given ones first. -/
def filled {α : Type} (n : Nat) (xs : List α) (x : α) : List α := xs ++ List.replicate (n - xs.length) x

/-- A roster entry with a timeout of 1 s. -/
def unitEntry (k : UnitKind) (objects : List (BitVec 7)) : RosterEntry :=
  { kind := k.code, timeout := 10, channels := filled 16 objects 0 }

/-- LFU 1 serves levers 1 and 2, TU 2 tracks 1 and 2, LU 3 lamp 1, IU 4 section 1, DU 5 output 1; 6 is the terminal.
Track 1 has the entry of 3.8, proving apart; levers 1 and 2 lock each other; section 1 is SINGLE with the junior end here; the
bell codes are those of 8.9. -/
def box : Bank :=
  { roster := filled 31 [unitEntry .lfu [1, 2], unitEntry .tu [1, 2], unitEntry .lu [1], unitEntry .iu [1],
      unitEntry .du [1], { kind := 6 }] {},
    tracks := filled 24 [
      { fmin := 200, p := 700, d := 500, k := 2, nlim := 150, delay := 20, proving := 1, neighbours := [2, 0, 0] },
      { fmin := 200, p := 700, d := 500, k := 2, nlim := 150, delay := 0, neighbours := [1, 0, 0] }] {},
    levers := filled 48 [
      { kind := 1, reverseList := ⟨0, 2⟩, approach := [2, 0], approachTime := 90 },
      { kind := 2, reverseList := ⟨2, 1⟩, normalList := ⟨0, 1⟩ }] {},
    sections := filled 4 [{ direction := 3, senior := 2, exitTrack := 1, arrivals := [1, 2, 0], window := 120 }] {},
    lamps := filled 16 [{ openLimit := 200, shortLimit := 1800 }] {},
    diagram := filled 64 [{ source := 1, object := 1, group := 1 }] {},
    pool := filled 512 [{ kind := 4, object := 1 }, { kind := 1, object := 2 }, { kind := 1, object := 1 }] {},
    bells := filled 32 [⟨0x1000, 1, 0⟩, ⟨0x3100, 2, 2⟩, ⟨0x2000, 3, 0⟩, ⟨0x2100, 4, 0⟩, ⟨0x3500, 5, 0⟩, ⟨0x6000, 6, 0⟩,
      ⟨0x3320, 7, 0⟩] {},
    edition := 14 }

def unitOf (s : UnitState) : UnitRec := { state := s, started := true }

/-- A lever at NORMAL with its catch down, locked. -/
def home : LeverRec := { position := .normal, release := .nLocked }

/-- A lever at NORMAL with its catch up, free. -/
def lifted : LeverRec := { position := .normal, catchUp := true, release := .nFree, lock := .free }

def lineUp : LineRec := { settings := some {}, link := .up, linkTimer := some 300, statusTimer := some 50 }

/-- The box in RUNNING at running time 0: every unit ACTIVE, both tracks CLEAR, both levers at NORMAL, section 1 BLOCKED at
both ends, lamp 1 LIT, both links UP; an event waits, so that no notice is placed. -/
def running : State :=
  { loop := .up, txHold := none, active := some { bank := box }, part := .running,
    units := [(1, unitOf .active), (2, unitOf .active), (3, unitOf .active), (4, unitOf .active), (5, unitOf .active),
      (6, unitOf .active)],
    tracks := [(1, { state := .clear, s := 820, q := 820, provedOnce := true }), (2, { state := .clear, s := 877, q := 880 })],
    levers := [(1, home), (2, home)],
    lineA := lineUp, lineB := lineUp, incoming := [(1, {})], here := [(1, {})], exchanges := [(1, {})],
    sections := [(1, { own := .blocked, far := .blocked, commutator := .blocked })],
    lamps := [(1, { state := .lit, last := some .lit, current := some 905 })], outputs := [(1, .off)],
    groupLive := [15, 15, 15, 15, 15], refresh := [(1, 100), (4, 100), (5, 200)],
    events := [⟨.start, 0, 259, 0, false⟩] }

/-- The state that a command leaves. -/
def after (c : Instr) (s : State) : State :=
  match exec c s with
  | .next t => t
  | .fault _ | .refused _ => s

/-- A report of a unit. -/
def report (src : Nat) (k : FrameKind) (payload : List Byte) : Frame := unitFrame src k payload

/-- A request of the terminal at address 6, with tag 9. -/
def request (code : Byte) (params : List Byte) : RequestFrame :=
  let f := withCrc 14 (requestFrame code ⟨0, 6, 0, 9, params, 0, 0⟩)
  ⟨0, 6, 0, 9, params, f.crcHigh, f.crcLow⟩

/-- A return of a frame sent to an address. -/
def returned (kind : Byte) (dest : Byte) (taken : Bool) (seq : Byte) (payload : List Byte) : Frame :=
  withCrc kind ⟨if taken then dest + 128 else dest, 0, seq, payload, 0, 0⟩

/-- A frame of a unit with a wrong CRC. -/
def damaged (f : Frame) : Frame := { f with crcLow := f.crcLow + 1 }

/-- The payload of a TRACK_SAMPLE whose channel 0 carries F and the three receiver levels. -/
def sampleBytes (f v1 v2 v3 : Nat) : List Byte :=
  let pair := fun x y : Nat => [b1 (x / 16), b1 (x % 16 * 16 + y / 256), b1 y]
  pair f v1 ++ pair v2 v3 ++ pair 1000 880 ++ pair 880 880 ++ List.replicate 12 0

/-- A LEVER_REPORT's payload from the bytes of its first two channels. -/
def leverBytes (x y : Byte) : List Byte := [x, y, 0, 0, 0, 0, 0, 0]

/-- A LAMP_REPORT's payload from the current of its first channel. -/
def lampBytes (x : Nat) : List Byte := [b1 (x / 16), b1 (x % 16 * 16)] ++ List.replicate 10 0

/-- The replies among the frames that wait or are being sent, as queued. -/
def replies (s : State) : List (List Byte) :=
  (s.pendingReturns.filter fun p => p.kind = .maintReply).map PendingReturn.payload

theorem test_box_is_well_formed : box.wf = true := by decide +kernel

theorem test_box_passes_the_check : bankFault box = none := by decide +kernel

/-! ### Well-formed commands: each check refuses an ill-formed command, and takes a well-formed one -/

theorem test_wf_return : wellFormed (.ret 0 1 (returned 1 1 true 0 [0])) = true ∧
    wellFormed (.ret 0 1 (damaged (returned 1 1 true 0 [0]))) = false ∧
    wellFormed (.ret 0 1 (report 1 .lockSet [0])) = false := by decide +kernel

theorem test_wf_reports_too_short :
    wellFormed (.leverReport 0 (report 1 .leverReport [0])) = false ∧
    wellFormed (.trackSample 0 (report 2 .trackSample [0])) = false ∧
    wellFormed (.lampReport 0 (report 3 .lampReport [0])) = false ∧
    wellFormed (.instrReport 0 (report 4 .instrReport [0])) = false ∧
    wellFormed (.diagReport 0 (report 5 .diagReport [0])) = false ∧
    wellFormed (.ident 0 (report 1 .ident [1])) = false := by decide +kernel

theorem test_wf_reports :
    wellFormed (.leverReport 0 (report 1 .leverReport (leverBytes 1 1))) = true ∧
    wellFormed (.trackSample 0 (report 2 .trackSample (sampleBytes 0 0 0 0))) = true ∧
    wellFormed (.lampReport 0 (report 3 .lampReport (lampBytes 0))) = true ∧
    wellFormed (.instrReport 0 (report 4 .instrReport [1, 0, 0])) = true ∧
    wellFormed (.diagReport 0 (report 5 .diagReport [0, 0, 0, 0])) = true ∧
    wellFormed (.ident 0 (report 1 .ident [1, 0, 0, 0, 0, 0])) = true ∧
    wellFormed (.ident 0 (damaged (report 1 .ident [1, 0, 0, 0, 0, 0]))) = false := by decide +kernel

theorem test_wf_reports_from_no_unit :
    wellFormed (.leverReport 0 (report 0 .leverReport (leverBytes 1 1))) = false ∧
    wellFormed (.ident 0 (withCrc 13 ⟨3, 1, 0, [1, 0, 0, 0, 0, 0], 0, 0⟩)) = false := by decide +kernel

theorem test_wf_requests_with_faulty_forms :
    wellFormed (.readRecord 0 (request 1 [0x0C, 1])) = false ∧ wellFormed (.loadTable 0 (request 2 [0x58, 1])) = false ∧
    wellFormed (.restoreTrack 0 (request 6 [25])) = false ∧ wellFormed (.clearViolation 0 true (request 7 [49])) = false ∧
    wellFormed (.blockRelease 0 true (request 8 [5])) = false ∧ wellFormed (.setGroupIntensity 0 (request 10 [6, 0])) = false ∧
    wellFormed (.reprobeUnit 0 (request 11 [0])) = false ∧ wellFormed (.readEvents 0 (request 12 [9])) = false := by
  decide +kernel

theorem test_wf_requests_of_another_code :
    wellFormed (.copyBank 0 (request 4 [])) = false ∧ wellFormed (.checkBank 0 (request 3 [])) = false ∧
    wellFormed (.switchBank 0 true (request 3 [])) = false ∧ wellFormed (.ackAlarms 0 (request 3 [])) = false ∧
    wellFormed (.restart 0 true (request 3 [])) = false ∧ wellFormed (.copyBank 0 (request 3 [])) = true := by
  decide +kernel

theorem test_wf_timers_out_of_range :
    wellFormed (.refreshTimerExpiry 0 32) = false ∧ wellFormed (.probeWindowExpiry 0 0) = false ∧
    wellFormed (.reProbeTimerExpiry 0 32) = false ∧ wellFormed (.reportTimerExpiry 0 0) = false ∧
    wellFormed (.pickUpTimerExpiry 0 25) = false ∧ wellFormed (.approachTimerExpiry 0 49) = false ∧
    wellFormed (.endTimerExpiry 0 5 .here) = false ∧ wellFormed (.repetitionTimerExpiry 0 0) = false := by decide +kernel

theorem test_wf_line_messages :
    wellFormed (.lineCharacter 0 .a true { cleanSamples 0xF0 true with data := [] }) = false ∧
    wellFormed (.instrMessage 0 .a 0 .unknown) = false ∧ wellFormed (.statusMessage 0 .a .blocked .unknown) = false := by
  decide +kernel

theorem test_wf_bad_request :
    wellFormed (.badRequest 0 (report 6 .maintRequest [9, 99])) = true ∧
    wellFormed (.badRequest 0 (report 6 .maintRequest [9, 3])) = false ∧
    wellFormed (.discardedValidFrame 0 3 (withCrc 3 ⟨0, 1, 0, [0, 0, 0, 0], 0, 0⟩)) = true ∧
    wellFormed (.discardedValidFrame 0 13 (report 1 .ident [1, 0, 0, 0, 0, 0])) = false := by decide +kernel

theorem test_no_word_spells_a_command : decodeTableWord 0 0 = none := rfl

/-! ### The checksums (R182): the check values of CRC-16 and CRC-32 in their commonly published forms, over "123456789" -/

theorem test_crc16 : crc16 [0x31, 0x32, 0x33, 0x34, 0x35, 0x36, 0x37, 0x38, 0x39] = 0x29B1 := by decide +kernel

theorem test_crc32 : crc32 [0x31, 0x32, 0x33, 0x34, 0x35, 0x36, 0x37, 0x38, 0x39] = 0xCBF43926 := by decide +kernel

/-! ### The box loop and the roster (1.9, 2.9, 2.10) -/

/-- The pending-return list of 1.9 after step 9, with the addresses of the small box. -/
def looping : State :=
  { running with
    pendingReturns := [⟨41, .lockSet, 1, [0], some 9⟩, ⟨42, .bellRing, 4, [0, 1], some 9⟩, ⟨43, .diagramSet, 5, [], some 9⟩,
      ⟨44, .maintReply, 6, [], some 9⟩] }

/-- Step 10 of 1.9: 42 comes back untaken, so 41 is lost, and the IU is SILENT. -/
theorem test_ret_overtakes :
    let t := after (.ret 1 2 (returned 2 4 false 42 [0, 1])) looping
    t.pendingReturns.map PendingReturn.seq = [43, 44] ∧ t.lossMarks = [1] ∧
      (recAt t.units 4).map UnitRec.state = some .silent ∧ ⟨.commandLost, 1, 1, 1, false⟩ ∈ t.events := by decide +kernel

/-- 13.6 and R176: the echo of a LOCK_SET that differs trips the part. -/
theorem test_ret_echo_differs :
    let t := after (.ret 1 1 (returned 1 1 true 41 [1])) looping
    t.part = .tripped ∧ t.trip = some ⟨.lockEcho, 1, some 0, some 1, 1, .running⟩ := by decide +kernel

/-- Step 12 of 1.9. -/
theorem test_returnTimerExpiry :
    let t := after (.returnTimerExpiry 1 44) looping
    t.pendingReturns.map PendingReturn.seq = [41, 42, 43] ∧ t.lossMarks = [6] ∧ t.now = 9 ∧
      t.events.getLast? = some ⟨.commandLost, 6, 6, 9, false⟩ := by decide +kernel

/-- Step 2 of 1.9: the sending of 39 ends, and the LOCK_SET is taken before the older frames; its refresh timer restarts. -/
theorem test_frameSent :
    let t := after (.frameSent 1) { running with
      seq := 40, sending := some ⟨39, .eventNotice, 6, false, []⟩, pendingReturns := [⟨39, .eventNotice, 6, [], none⟩],
      outQueue := [⟨.diagramSet, 5, [], false⟩, ⟨.maintReply, 6, [], false⟩, ⟨.lockSet, 1, [0], false⟩] }
    t.outQueue.map OutFrame.kind = [.diagramSet, .maintReply] ∧ t.seq = 41 ∧ recAt t.refresh 1 = some 101 ∧
      t.pendingReturns = [⟨39, .eventNotice, 6, [], some 3⟩, ⟨40, .lockSet, 1, [0], none⟩] := by decide +kernel

/-- R10: nothing is sent for 20 ms after a reset. -/
theorem test_transmitHoldExpiry :
    let waiting := { running with txHold := some 2, outQueue := [⟨.bellRing, 4, [0, 1], false⟩] }
    (after (.idlePatternArrival 1) waiting).sending = none ∧
      (after (.transmitHoldExpiry 1) waiting).sending.isSome = true := by decide +kernel

theorem test_refreshTimerExpiry :
    let t := after (.refreshTimerExpiry 1 1) running
    t.now = 100 ∧ t.pendingReturns = [⟨0, .lockSet, 1, [0], none⟩] ∧ recAt t.refresh 1 = some 200 := by decide +kernel

theorem test_idlePatternArrival :
    let t := after (.idlePatternArrival 1) { running with loop := .broken }
    t.watch = 3 ∧ t.loop = .broken := by decide +kernel

/-- R15, R30: the loop breaks, and the units that are ACTIVE or PROBING go to SILENT. -/
theorem test_loopWatchTimerExpiry :
    let t := after (.loopWatchTimerExpiry 1) { running with
      watch := 2, units := [(1, unitOf .active), (2, unitOf .probing), (3, unitOf .mismatch), (6, unitOf .absent)] }
    t.loop = .broken ∧ t.units.map (fun p => p.2.state) = [.silent, .silent, .mismatch, .absent] ∧
      (recAt t.levers 1).map LeverRec.position = some .unknown := by decide +kernel

/-- 2.9 at 500 and at 3 140. -/
theorem test_reportTimerExpiry :
    let t := after (.reportTimerExpiry 0 2) { running with
      units := [(2, { unitOf .active with report := some 50 })],
      tracks := [(1, { state := .clear }), (2, { state := .suspect })] }
    t.now = 50 ∧ (recAt t.units 2).map UnitRec.state = some .silent ∧
      t.tracks.map (fun p => (p.2.state, p.2.cause)) = [(.failed, some .unit), (.suspect, none)] := by decide +kernel

theorem test_trackSample_of_a_silent_unit :
    let t := after (.trackSample 1 (report 2 .trackSample (sampleBytes 1000 0 0 0)))
      { running with units := [(2, unitOf .silent)] }
    (recAt t.units 2).map UnitRec.state = some .probing ∧ t.pendingReturns.map PendingReturn.kind = [.identProbe] ∧
      t.tracks = running.tracks := by decide +kernel

/-- 2.9 at 3 241: a second probe follows; R23: the third window's end makes the unit ABSENT. -/
theorem test_probeWindowExpiry :
    let waiting := fun n => { running with units := [(2, { state := .probing, probeCount := n, probeWindow := some 10 })] }
    ((recAt (after (.probeWindowExpiry 1 2) (waiting 0)).units 2).map UnitRec.probeCount = some 1) ∧
      ((recAt (after (.probeWindowExpiry 1 2) (waiting 2)).units 2).map fun u => (u.state, u.reprobe)) =
        some (.absent, some 1010) := by decide +kernel

theorem test_reProbeTimerExpiry :
    let t := after (.reProbeTimerExpiry 1 2) { running with units := [(2, { unitOf .absent with reprobe := some 1010 })] }
    t.pendingReturns.map PendingReturn.kind = [.identProbe] ∧ (recAt t.units 2).bind UnitRec.reprobe = some 2010 := by
  decide +kernel

/-- 2.9 at 3 290, and 2.10 step 2. -/
theorem test_ident :
    let probing := { running with units := [(2, { state := .probing, probeWindow := some 10 })] }
    let answer := fun k : Byte => after (.ident 1 (report 2 .ident [k, 0, 0, 0x9C, 0xB5, 12])) probing
    ((recAt (answer 2).units 2).map fun u => (u.state, u.obsSerial, u.obsEdition, u.report)) =
        some (.active, some 40117, some 12, some 101) ∧
      (recAt (answer 3).units 2).map UnitRec.state = some .mismatch := by decide +kernel

/-- 2.10 step 4. -/
theorem test_reprobeUnit :
    let t := after (.reprobeUnit 1 (request 11 [3])) { running with units := [(3, unitOf .mismatch)] }
    (recAt t.units 3).map (fun u => (u.state, u.probeCount)) = some (.probing, 0) ∧
      t.pendingReturns.map PendingReturn.kind = [.identProbe] ∧ t.outQueue.map OutFrame.payload = [[9, 11, 0, 0]] := by
  decide +kernel

/-- R6: the frame is discarded but for the watch timer and the loop state. -/
theorem test_discardedValidFrame :
    after (.discardedValidFrame 1 3 (withCrc 3 ⟨0, 4, 0, [0, 0, 0, 0], 0, 0⟩)) running =
      { running with now := 1, watch := 3 } := by decide +kernel

/-! ### Tracks (3.8, 3.9, 4.5) -/

/-- The record of track 1 after a sample of its channel, its record before being `r`. -/
def sampled (r : TrackRec) (f v1 v2 v3 : Nat) : TrackRec :=
  (recAt (after (.trackSample 1 (report 2 .trackSample (sampleBytes f v1 v2 v3))) { running with tracks := [(1, r)] }).tracks
    1).getD {}

/-- 3.8, samples 1, 2 and 3. -/
theorem test_trackSample_shunt :
    sampled { state := .clear, s := 820 } 1010 610 598 905 = { state := .clear, q := 618, s := 769, noisy := 1 } ∧
    sampled { state := .clear, s := 769, noisy := 1 } 1005 120 130 118 = { state := .clear, q := 122, s := 607, good := 1 } ∧
    sampled { state := .clear, s := 607, good := 1 } 1005 120 130 118 = { q := 122, s := 485, good := 2 } := by
  decide +kernel

/-- 3.9, samples a and f; 3.8, step 6. -/
theorem test_trackSample_feed :
    sampled { state := .clear, s := 877 } 150 300 303 297 = { state := .failed, cause := some .feed, s := 657 } ∧
    sampled { state := .failed, cause := some .feed, s := 728, good := 3 } 1010 890 891 889 =
      { q := 902, s := 771, good := 4 } ∧
    sampled { s := 657 } 1024 880 880 880 =
      { state := .pickingUp, q := 880, s := 712, good := 1, timer := some 201 } := by decide +kernel

/-- 4.5: the expiry in a proven passage, and after a leaf-fall. -/
theorem test_pickUpTimerExpiry :
    let ends := fun seen => (after (.pickUpTimerExpiry 1 1) { running with tracks :=
      [(1, { state := .pickingUp, s := 741, timer := some 200, provedOnce := true, exitSeen := seen }),
       (2, { state := .clear, s := 800 })] })
    (recAt (ends true).tracks 1).map TrackRec.state = some .clear ∧
      (recAt (ends false).tracks 1).map TrackRec.state = some .suspect ∧
      ⟨.trackSuspect, 1, 741, 200, false⟩ ∈ (ends false).events := by decide +kernel

/-- 4.5: RESTORE_TRACK, and its repetition. -/
theorem test_restoreTrack :
    let at' := fun x => after (.restoreTrack 1 (request 6 [1])) { running with
      tracks := [(1, { state := x, s := 868, provedOnce := true })] }
    (recAt (at' .suspect).tracks 1).map TrackRec.state = some .clear ∧
      replies (at' .clear) = [[9, 6, 1, 10]] := by decide +kernel

/-! ### Levers (5.10, 5.11) -/

/-- 5.10 at 0.00: the catch goes up, and the lever is free. -/
theorem test_leverReport_frees :
    let t := after (.leverReport 1 (report 1 .leverReport (leverBytes 5 1))) running
    recAt t.levers 1 = some lifted ∧ t.pendingReturns = [⟨0, .lockSet, 1, [1], none⟩] := by decide +kernel

/-- 5.10 at 41.00: the arrival at NORMAL clears stroke loss and sets the approach lock. -/
theorem test_leverReport_comes_home :
    let t := after (.leverReport 1 (report 1 .leverReport (leverBytes 5 1))) { running with
      levers := [(1, { lifted with position := .mid, release := .strokeR, strokeLoss := true }), (2, home)],
      tracks := [(1, { state := .occupied }), (2, { state := .occupied })] }
    recAt t.levers 1 = some { home with catchUp := true, approach := some 9001 } := by decide +kernel

/-- 5.10 at 131.00. -/
theorem test_approachTimerExpiry :
    let t := after (.approachTimerExpiry 1 1) { running with levers := [(1, { home with approach := some 9001 }), (2, home)] }
    t.now = 9001 ∧ recAt t.levers 1 = some home := by decide +kernel

/-- 5.11, steps 3 and 4a. -/
theorem test_clearViolation :
    let forced := { running with levers := [(1, home), (2, { home with violation := true })] }
    replies (after (.clearViolation 1 false (request 7 [2])) forced) = [[9, 7, 1, 4]] ∧
      (after (.clearViolation 1 true (request 7 [2])) forced).levers = [(1, home), (2, home)] := by decide +kernel

/-! ### Lamps and outputs (10.5) -/

/-- 10.5 at 1 200: the second report of OUT, and the output that shows the alarm. -/
theorem test_lampReport :
    let t := after (.lampReport 1 (report 3 .lampReport (lampBytes 29))) { running with
      active := some { bank := { box with diagram := filled 64 [{ source := 6, object := 1 }] {} } },
      lamps := [(1, { state := .lit, last := some .out, current := some 31 })] }
    recAt t.lamps 1 = some { state := .out, last := some .out, current := some 29, alarm := .alarm } ∧
      recAt t.outputs 1 = some .flashFast ∧ ⟨.lampFault, 1, 1, 1, false⟩ ∈ t.events := by decide +kernel

/-- 10.5 at 3 500. -/
theorem test_ackAlarms :
    let t := after (.ackAlarms 1 (request 9 [])) { running with
      lamps := [(1, { state := .out, last := some .out, current := some 29, alarm := .alarm })] }
    (recAt t.lamps 1).map LampRec.alarm = some .accepted ∧ replies t = [[9, 9, 0, 0]] := by decide +kernel

/-- R158, R180: code 3 is read as SHORT. -/
theorem test_diagReport :
    let t := after (.diagReport 1 (report 5 .diagReport [0xC0, 0, 0, 0])) running
    (recAt t.units 5).bind (fun u => u.faults[0]?) = some .short ∧ ⟨.diagramFault, 1, 2, 1, false⟩ ∈ t.events := by
  decide +kernel

/-- R156: a value above 15 is taken as 15. -/
theorem test_setGroupIntensity :
    let t := after (.setGroupIntensity 1 (request 10 [1, 16])) { running with groupLive := [9, 15, 15, 15, 15] }
    t.groupLive = [15, 15, 15, 15, 15] ∧ replies t = [[9, 10, 0, 0, 15]] := by decide +kernel

/-! ### Bells and block (7.8, 8.9, 8.10, 8.11, 9.9, 9.10) -/

/-- 8.9 at 7 900: the offer acknowledged, its record. -/
def offered : Exchange :=
  { origin := some .theySent, pattern := [3, 1], cls := some .offer, trainClass := some 2, status := .acknowledged,
    time := 340, ackTime := some 790 }

/-- 9.9 at 12.0: the acceptance is taken, and consumes the offer. -/
theorem test_instrReport_accepts :
    let t := after (.instrReport 1200 (report 4 .instrReport [2, 0, 0])) { running with exchanges := [(1, offered)] }
    recAt t.sections 1 = some { own := .clear, far := .blocked, commutator := .clear } ∧
      recAt t.exchanges 1 = some { offered with status := .expired } ∧ t.lineA.sending = some (.instr 0 .clear) := by
  decide +kernel

/-- 8.9 at 4 600: a local stroke. -/
theorem test_instrReport_strikes :
    let t := after (.instrReport 460 (report 4 .instrReport [0x81, 0, 0])) running
    recAt t.here 1 = some { collecting := true, groups := [1], last := some 460, endTimer := some 660 } ∧
      t.lineA.sending = some (.stroke 0) := by decide +kernel

/-- 8.9 at 1 400. -/
theorem test_strokeMessage :
    let t := after (.strokeMessage 140 .a 0) { running with
      incoming := [(1, { collecting := true, groups := [3], last := some 50, endTimer := some 250 })] }
    recAt t.incoming 1 = some { collecting := true, groups := [3, 1], last := some 140, endTimer := some 340 } ∧
      t.pendingReturns = [⟨0, .bellRing, 4, [0, 1], none⟩] := by decide +kernel

/-- 8.9 at 3 400 and at 7 900. -/
theorem test_endTimerExpiry :
    let code : Recogniser := { collecting := true, groups := [3, 1], last := some 140, endTimer := some 340 }
    let coming := after (.endTimerExpiry 1 1 .incoming) { running with incoming := [(1, code)] }
    let going := after (.endTimerExpiry 1 1 .here) { running with
      here := [(1, { code with endTimer := some 790 })],
      exchanges := [(1, { offered with status := .awaiting, ackTime := none, timer := some 2340 })] }
    recAt coming.exchanges 1 = some { offered with status := .awaiting, ackTime := none, timer := some 2340 } ∧
      recAt coming.incoming 1 = some {} ∧ recAt going.exchanges 1 = some offered := by decide +kernel

/-- 8.11 at 40 000: an OBSTRUCTION sets the line's flag; 8.9: a code that is not repeated expires. -/
theorem test_repetitionTimerExpiry :
    (after (.endTimerExpiry 1 1 .incoming) { running with
      incoming := [(1, { collecting := true, groups := [6], last := some 140, endTimer := some 340 })] }).obstructionA = true ∧
    recAt (after (.repetitionTimerExpiry 1 1) { running with
      exchanges := [(1, { offered with status := .awaiting, ackTime := none, timer := some 2340 })] }).exchanges 1 =
        some { offered with status := .expired, ackTime := none } := by decide +kernel

/-- 9.10, step 2: the junior end withdraws. -/
theorem test_instrMessage :
    let t := after (.instrMessage 1 .a 0 .clear) { running with
      sections := [(1, { own := .clear, far := .blocked, commutator := .clear })] }
    recAt t.sections 1 = some { own := .blocked, far := .clear, commutator := .clear, disagreement := true } ∧
      ⟨.conflictWithdrawn, 1, 0, 1, false⟩ ∈ t.events := by decide +kernel

/-- 7.8 at 210 and at 710: the first valid message is noted, the second brings the link UP. -/
theorem test_statusMessage :
    let down := fun x => { running with lineA := { settings := some {}, firstHeard := x } }
    let t := after (.statusMessage 71 .a .clear .blocked) (down (some 21))
    (after (.statusMessage 21 .a .clear .blocked) (down none)).lineA = { settings := some {}, firstHeard := some 21 } ∧
      t.lineA = { settings := some {}, link := .up, linkTimer := some 371 } ∧
      (recAt t.sections 1).map SectionRec.far = some .clear := by decide +kernel

/-- 7.8 at 4 210. -/
theorem test_linkTimerExpiry :
    let t := after (.linkTimerExpiry 1 .a) { running with lineA := { lineUp with linkTimer := some 421 } }
    t.now = 421 ∧ t.lineA.link = .down ∧ (recAt t.sections 1).map SectionRec.far = some .unknown := by decide +kernel

/-- 7.8 at 900: an INSTR header starts assembly; a data character with a noise mark discards it. -/
theorem test_lineCharacter :
    let t := after (.lineCharacter 90 .a true (cleanSamples 0xD2 true)) running
    t.lineA = { lineUp with receiver := .assemble 2 [], gapStart := some 90 } ∧
      (after (.lineCharacter 1 .a true { cleanSamples 0xE1 false with stop := 5 }) t).lineA =
        { lineUp with discardRun := 1 } := by decide +kernel

/-- R109: the gap timer's expiry discards the partial message; its two character times at 600 bit/s are 36.67 ms. -/
theorem test_gapTimerExpiry :
    let t := after (.gapTimerExpiry 1 .a) { running with
      lineA := { lineUp with receiver := .assemble 2 [], gapStart := some 90 } }
    t.now = 93 ∧ t.lineA = { lineUp with discardRun := 1 } := by decide +kernel

/-- 7.8 at 500. -/
theorem test_statusTimerExpiry :
    let t := after (.statusTimerExpiry 1 .a) running
    t.lineA = { lineUp with statusTimer := some 100, sending := some (.status .blocked .blocked) } := by decide +kernel

/-- 7.9 at 110: the STATUS ends, and the oldest STROKE is taken before the older INSTR. -/
theorem test_lineMessageSent :
    (after (.lineMessageSent 1 .b) { running with
      lineB := { lineUp with sending := some (.status .blocked .blocked), queue := [.instr 1 .onLine, .stroke 1] } }).lineB =
        { lineUp with sending := some (.stroke 1), queue := [.instr 1 .onLine] } := by decide +kernel

/-- 7.8 at 18 and at 37. -/
theorem test_start_sequence :
    let starting := { lineUp with startSeq := .sendingBreak, queue := [.status .blocked .blocked] }
    let t := after (.sendingBreakEnd 1 .a) { running with lineA := starting }
    t.lineA = { starting with startSeq := .sendingIdle } ∧
      (after (.sendingIdleEnd 1 .a) t).lineA = { lineUp with sending := some (.status .blocked .blocked) } := by
  decide +kernel

/-- R142: with KEY, a section ON_LINE is proven. -/
theorem test_blockRelease :
    let t := after (.blockRelease 1 true (request 8 [1])) { running with
      sections := [(1, { own := .onLine, progress := .seen 2 })] }
    (recAt t.sections 1).map SectionRec.progress = some .proven ∧ ⟨.blockReleased, 1, 2, 1, false⟩ ∈ t.events := by
  decide +kernel

/-! ### Banks, requests and events (11.7, 12.4) -/

/-- 11.7, steps 1 and 4. -/
theorem test_copyBank_and_loadTable :
    let t := after (.copyBank 1 (request 3 [])) { running with check := .passed 5 }
    t.shadow = box ∧ t.check = .unchecked ∧
      (after (.loadTable 1 (request 2 [0x48, 1, 0, 15])) t).shadow = { box with edition := 15 } := by decide +kernel

/-- R164, R160: the empty bank fails with NO_TERMINAL. -/
theorem test_checkBank :
    let t := after (.checkBank 1 (request 4 [])) running
    t.check = .failed ⟨.noTerminal, .roster, 0, 0⟩ ∧ replies t = [[9, 4, 0, 0, 2, 3, 11, 0, 0, 0, 0]] := by decide +kernel

/-- 11.7, steps 9 and 10. -/
theorem test_switchBank :
    let checked := { running with shadow := box, check := .passed 7, levers := [(1, home), (2, lifted)] }
    let t := after (.switchBank 1 true (request 5 [])) { checked with levers := [(1, home), (2, home)] }
    replies (after (.switchBank 1 true (request 5 [])) checked) = [[9, 5, 1, 6]] ∧
      t.part = .switching ∧ t.storeOp = some { bank := box, crc := 7 } := by decide +kernel

/-- 11.7, step 11, and R161: READ_RECORD is answered during a switch, and every other request is refused with BUSY. -/
theorem test_readRecord :
    let switching := { running with part := .switching }
    (replies (after (.readRecord 1 (request 1 [0x48, 0])) switching)).map (List.take 5) = [[9, 1, 0, 0, 0]] ∧
      replies (after (.copyBank 1 (request 3 [])) switching) = [[9, 3, 1, 1]] := by decide +kernel

/-- 11.7, step 12: the store ends and the switch completes. -/
theorem test_storeOperationEnd :
    let t := after (.storeOperationEnd 120 true) { running with
      part := .switching, storeOp := some { bank := { box with edition := 15 }, crc := 7 } }
    t.part = .running ∧ t.active.map BankImage.crc = some 7 ∧ t.levers = running.levers ∧
      ⟨.bankSwitched, 0, 15, 120, false⟩ ∈ t.events := by decide +kernel

/-- R179: the oldest entries are returned, oldest first. -/
theorem test_readEvents :
    let t := after (.readEvents 1 (request 12 [1])) { running with
      events := [⟨.loopRestored, 0, 0, 3, true⟩, ⟨.unitState, 3, 258, 4, false⟩] }
    t.events.map Event.kind = [.unitState] ∧ (replies t).map (List.take 5) = [[9, 12, 0, 0, 0x81]] := by decide +kernel

/-- R172: the restart reset follows the sending of its reply. -/
theorem test_restart :
    let t := after (.restart 1 true (request 13 [])) running
    t.restartDue = false ∧ (after (.frameSent 1) t).restartDue = true ∧
      after (.restartReset) t = t := by decide +kernel

theorem test_badRequest :
    replies (after (.badRequest 1 (report 6 .maintRequest [9, 99])) running) = [[9, 99, 2, 0]] := by decide +kernel

/-! ### Start and resets (12.1, 12.2) -/

/-- R173: the start timer ends STARTING, with START. -/
theorem test_startTimerExpiry :
    let t := after (.startTimerExpiry 1) { running with part := .starting, startTimer := some 200 }
    t.part = .running ∧ t.now = 200 ∧ ⟨.start, 0, 259, 200, false⟩ ∈ t.events := by decide +kernel

/-- R173: a stored bank with a wrong CRC leaves the part UNCONFIGURED. -/
theorem test_startupCrcCheck :
    let t := after (.startupCrcCheck 1) State.reset
    t.part = .unconfigured ∧ t.events = [⟨.start, 0, 258, 1, false⟩] := by decide +kernel

/-- R173: a sound stored bank is taken into use. -/
theorem test_startupCrcCheck_takes_a_bank :
    let t := after (.startupCrcCheck 1) { State.reset with stored := { bank := box, crc := box.crc32 } }
    t.part = .starting ∧ t.startTimer = some 201 ∧ t.levers = [(1, {}), (2, {})] ∧ t.refresh.map Prod.fst = [1, 4, 5] := by
  decide +kernel

/-- R175: each kind of reset, with what it keeps. -/
theorem test_resets :
    let tripped := { running with part := .tripped, trip := some ⟨.storeFail, 0, none, none, 5, .switching⟩, restartDue := true }
    (after .powerReset tripped).trip = none ∧ (after .resetPinAsserted tripped).inReset = true ∧
      (after .restartReset tripped).trip = tripped.trip ∧ (after .restartReset tripped).resetKind = .restart ∧
      (after .resetPinReleased (after .resetPinAsserted tripped)).inReset = false ∧
      after (.idlePatternArrival 1) (after .resetPinAsserted tripped) = after .resetPinAsserted tripped := by decide +kernel

/-! ### Witnesses: for every statement with hypotheses, a state and operands that meet them, clause by clause -/

theorem witness_StepRunsFrontCommand :
    ({ running with pending := [.powerReset, .restartReset] }).pending = .powerReset :: [.restartReset] ∧
    running.pending = [] := by decide +kernel

theorem witness_ResetsClearTheBlocks :
    (after .resetPinAsserted running).inReset = true ∧ isReset (.idlePatternArrival 1) = false ∧ running.inReset = false ∧
    ({ running with restartDue := true }).restartDue = true ∧ running.restartDue = false := by decide +kernel

theorem witness_LoopWatch :
    running.inReset = false ∧ running.loop = .up ∧ running.bank = some box ∧ recAt running.units 2 = some (unitOf .active) ∧
    recAt ({ running with units := [(1, unitOf .probing), (2, unitOf .silent), (3, unitOf .mismatch), (4, unitOf .absent)] }).units 1
      = some (unitOf .probing) ∧
    ({ State.reset with loop := .up }).active = none ∧ State.reset.loop = .broken := by decide +kernel

/-- Records whose timers are idle, and numbers without a record. -/
theorem witness_IdleTimersDoNothing :
    running.inReset = false ∧ (∀ p ∈ looping.pendingReturns, p.seq = 40 → p.timer = none) ∧ recAt running.refresh 2 = none ∧
    running.txHold = none ∧ (recAt running.units 1).all (fun u => u.probeWindow.isNone && u.reprobe.isNone && u.report.isNone) ∧
    (recAt running.tracks 1).all (fun r => r.timer.isNone) ∧ (recAt running.levers 1).all (fun l => l.approach.isNone) ∧
    (recAt running.exchanges 1).all (fun x => x.timer.isNone) ∧
    (recAt (running.recognisers .here) 1).all (fun r => r.endTimer.isNone) ∧
    (running.line .a).gapStart = none ∧ (State.reset.line .b).linkTimer = none ∧ (State.reset.line .b).statusTimer = none ∧
    running.startTimer = none := by decide +kernel

/-- An entry whose address has no loss mark, and has one; and a full list. -/
theorem witness_ReturnTimerLosesTheFrame :
    looping.inReset = false ∧ looping.pendingReturns.find? (fun p => p.seq = 44) = some ⟨44, .maintReply, 6, [], some 9⟩ ∧
    (6 ∉ looping.lossMarks) ∧ 6 ∈ ({ looping with lossMarks := [6] }).lossMarks ∧
    (List.replicate 8 (⟨44, .maintReply, 6, [], some 9⟩ : PendingReturn)).find? (fun p => p.seq = 44) =
      some ⟨44, .maintReply, 6, [], some 9⟩ := by decide +kernel

theorem witness_RefreshPlacesTheCommand :
    running.inReset = false ∧ running.bank = some box ∧ recAt running.refresh 1 = some 100 ∧
    (box.kindAt 1).refreshed = some .lockSet ∧ recAt running.refresh 4 = some 100 ∧
    (box.kindAt 4).refreshed = some .repeaterSet ∧ recAt running.refresh 5 = some 200 ∧
    (box.kindAt 5).refreshed = some .diagramSet ∧ running.outQueue.length < 24 := by decide +kernel

theorem witness_TransmitterBecomesFree :
    running.inReset = false ∧ running.sending = none ∧
    ({ running with sending := some ⟨3, .identProbe, 2, false, []⟩ }).sending = some ⟨3, .identProbe, 2, false, []⟩ ∧
    State.reset.txHold = some 2 := by decide +kernel

/-- Frames for a queue: `n` of one kind to one address. -/
def frames (n : Nat) (k : FrameKind) (a : Nat) : List OutFrame := List.replicate n { kind := k, dest := a }

theorem witness_ArbiterTakesTheMostUrgent :
    State.reset.txHold.isSome = true ∧
    ({ running with pendingReturns := List.replicate 8 ⟨1, .bellRing, 4, [], none⟩ }).pendingReturns.length = 8 ∧
    (let s := { running with
      outQueue := frames 1 .maintReply 6 ++ frames 1 .identProbe 2,
      pendingReturns := List.replicate 7 ⟨1, .bellRing, 4, [], none⟩ }
     s.txHold = none ∧ s.sending = none ∧ s.pendingReturns.length < 8 ∧ s.outQueue ≠ []) ∧
    (∀ n ∈ [1, 24], payloadLength FrameKind.lockSet.code ≤ (List.replicate n (0 : Byte)).length ∧
      (List.replicate n (0 : Byte)).length ≤ 24) := by decide +kernel

/-- A queued frame of the same kind and address; an empty queue, 23 and 24 frames; frames of each class to join a queue of 24;
a queue whose newest frame of class 4, or of class 3, stands before younger frames of another class; and a probe that is dropped
of a unit in PROBING, at counts 1 and 2, and in ABSENT. -/
theorem witness_FrameJoinsTheQueue :
    (∃ g ∈ frames 1 .lockSet 1, g.kind = .lockSet ∧ g.dest = 1) ∧ running.outQueue = [] ∧
    (∀ g ∈ frames 23 .bellRing 4, ¬ g.kind = .lockSet) ∧ (frames 23 .bellRing 4).length < 24 ∧
    24 ≤ (frames 24 .bellRing 4).length ∧ (∀ g ∈ frames 24 .bellRing 4, g.kind.cls < 3) ∧
    3 ≤ FrameKind.diagramSet.cls ∧ FrameKind.lockSet.cls < 3 ∧
    (let older := frames 10 .maintReply 6
     let younger := frames 13 .bellRing 4
     24 ≤ (older ++ { kind := .eventNotice, dest := 6 } :: younger).length ∧ FrameKind.eventNotice.cls = 4 ∧
       ∀ h ∈ younger, h.kind.cls ≠ 4) ∧
    (let older := frames 10 .diagramSet 5
     let younger := frames 13 .bellRing 4
     24 ≤ (older ++ { kind := .identProbe, dest := 2 } :: younger).length ∧ FrameKind.identProbe.cls = 3 ∧
       (∀ h ∈ older ++ younger, h.kind.cls ≠ 4) ∧ ∀ h ∈ younger, h.kind.cls ≠ 3) ∧
    (∀ n ∈ [1, 2], recAt ({ running with units := [(2, { state := .probing, probeCount := n })] }).units 2 =
      some { state := .probing, probeCount := n }) ∧
    recAt ({ running with units := [(2, unitOf .absent)] }).units 2 = some (unitOf .absent) := by decide +kernel

/-- Queues of 63 and of 64 events; an empty queue with no terminal, with one, with an empty, a waiting and a full outbound
queue. -/
theorem witness_EventJoinsTheQueue :
    (let e : Event := ⟨.start, 0, 0, 0, false⟩
     List.replicate 63 e ≠ [] ∧ (List.replicate 63 e).length < 64 ∧ (e :: e :: List.replicate 62 e).length = 64) ∧
    State.reset.events = [] ∧ State.reset.bank = none ∧ State.reset.lastRequester = none ∧
    running.bank = some box ∧ box.terminal = some 6 ∧ running.outQueue = [] ∧
    ({ running with outQueue := frames 23 .bellRing 4 }).outQueue.length < 24 ∧
    24 ≤ ({ running with outQueue := frames 24 .bellRing 4 }).outQueue.length := by decide +kernel

/-- Damaged frames; a frame of a kind no unit sends; reports to a unit, in a part without a bank, from an address of kind NONE, and
from a unit of another kind; and requests, readable and not, to a unit and from an address of kind NONE. -/
theorem witness_FramesThatEndAtTheLoop :
    running.inReset = false ∧ frameValid 8 (damaged (report 1 .leverReport (leverBytes 1 1))) = false ∧
    frameValid 14 (requestFrame 1 { request 1 [8, 1] with crcHigh := 0 }) = false ∧
    frameValid 14 (damaged (report 6 .maintRequest [9, 99])) = false ∧
    wfOther 3 (withCrc 3 ⟨0, 1, 0, [0, 0, 0, 0], 0, 0⟩) = true ∧
    (let f := withCrc 8 ⟨31, 1, 0, leverBytes 1 1, 0, 0⟩
     srcOf f ≠ 0 ∧ destOf f ≠ 0 ∧ frameValid 8 f = true) ∧
    (let f := report 31 .leverReport (leverBytes 1 1)
     srcOf f ≠ 0 ∧ frameValid 8 f = true ∧ box.kindAt (srcOf f) = .none) ∧
    State.reset.bank = none ∧ running.bank = some box ∧ box.kindAt 1 ≠ .tu ∧
    frameValid 9 (report 1 .trackSample (sampleBytes 0 0 0 0)) = true ∧
    (let f := withCrc 14 ⟨3, 6, 0, [9, 99], 0, 0⟩
     destOf f ≠ 0 ∧ frameValid 14 f = true) ∧
    (let g := withCrc 14 ⟨3, 6, 0, [9, 3], 0, 0⟩
     let f := requestFrame 3 { request 3 [] with b0 := 3, crcHigh := g.crcHigh, crcLow := g.crcLow }
     srcOf f ≠ 0 ∧ destOf f ≠ 0 ∧ frameValid 14 f = true) ∧
    (let g := withCrc 14 ⟨0, 31, 0, [9, 3], 0, 0⟩
     let f := requestFrame 3 { request 3 [] with b1 := 31, crcHigh := g.crcHigh, crcLow := g.crcLow }
     box.kindAt (srcOf f) = .none ∧ frameValid 14 f = true) ∧
    ((3 : Byte), (none : Option Bool), Instr.copyBank 1 (request 3 [])) ∈ requestsOf 1 true (request 3 []) := by decide +kernel

/-- A return of no entry; returns of the second entry and, with a byte more than its copy, of the LOCK_SET, that are taken; and a
probe's return that is not. -/
theorem witness_ReturnDeliversTheCommand :
    looping.inReset = false ∧ wfReturn 2 (returned 2 4 true 99 [0, 1]) = true ∧
    (∀ p ∈ (loopHeard (looping.advance 1)).pendingReturns, p.seq ≠ (returned 2 4 true 99 [0, 1]).seq) ∧
    (loopHeard (looping.advance 1)).pendingReturns = [⟨41, .lockSet, 1, [0], some 9⟩] ++ ⟨42, .bellRing, 4, [0, 1], some 9⟩ ::
      [⟨43, .diagramSet, 5, [], some 9⟩, ⟨44, .maintReply, 6, [], some 9⟩] ∧
    takenOf (returned 2 4 true 42 [0, 1]) = true ∧ wfReturn 1 (returned 1 1 true 41 [0, 7]) = true ∧
    (returned 1 1 true 41 [0, 7]).payload.take [(0 : Byte)].length = [0] ∧ wfReturn 4 (returned 4 2 false 7 []) = true ∧
    takenOf (returned 4 2 false 7 []) = false ∧
    (loopHeard ({ running with pendingReturns := [⟨7, .identProbe, 2, [], some 9⟩] }.advance 1)).pendingReturns =
      [] ++ ⟨7, .identProbe, 2, [], some 9⟩ :: [] := by decide +kernel

/-- The first return's payload differs, and so does an empty one; the second is untaken, of an ACTIVE unit, of one that is not, and
with no bank. -/
theorem witness_ReturnThatFailsIsJudged :
    (let f := returned 1 1 true 41 [1]
     wfReturn 1 f = true ∧ f.seq = 41 ∧ takenOf f = true ∧ f.payload.take [(0 : Byte)].length ≠ [0]) ∧
    (let f := returned 7 1 true 41 []
     wfReturn 7 f = true ∧ f.payload.take [(0 : Byte)].length ≠ [0]) ∧
    looping.inReset = false ∧ looping.part ≠ .tripped ∧ looping.part ≠ .unconfigured ∧
    (loopHeard (looping.advance 1)).pendingReturns =
      [] ++ ⟨41, .lockSet, 1, [0], some 9⟩ :: looping.pendingReturns.drop 1 ∧
    (let f := returned 2 4 false 42 [0, 1]
     wfReturn 2 f = true ∧ f.seq = 42 ∧ takenOf f = false) ∧ looping.bank = some box ∧
    recAt looping.units 4 = some (unitOf .active) ∧
    recAt ({ looping with units := [(4, unitOf .silent)] }).units 4 = some (unitOf .silent) ∧
    ({ looping with active := none }).bank = none := by decide +kernel

/-- Reports of the five units that send any, all ACTIVE. -/
def levers := report 1 .leverReport (leverBytes 7 6)
def sample := report 2 .trackSample (sampleBytes 1000 880 880 880)
def lamps := report 3 .lampReport (lampBytes 29)
def instruments := report 4 .instrReport [0x82, 0, 1]
def diagram := report 5 .diagReport [0xC0, 0, 0, 0]

theorem counted_levers : Counted running box .lfu 8 levers (unitOf .active) :=
  ⟨rfl, by decide +kernel, rfl, by decide +kernel, by decide +kernel, rfl⟩

theorem counted_sample : Counted running box .tu 9 sample (unitOf .active) :=
  ⟨rfl, by decide +kernel, rfl, by decide +kernel, by decide +kernel, rfl⟩

theorem counted_lamps : Counted running box .lu 10 lamps (unitOf .active) :=
  ⟨rfl, by decide +kernel, rfl, by decide +kernel, by decide +kernel, rfl⟩

theorem counted_instruments : Counted running box .iu 11 instruments (unitOf .active) :=
  ⟨rfl, by decide +kernel, rfl, by decide +kernel, by decide +kernel, rfl⟩

theorem counted_diagram : Counted running box .du 12 diagram (unitOf .active) :=
  ⟨rfl, by decide +kernel, rfl, by decide +kernel, by decide +kernel, rfl⟩

theorem witness_CountedReportRestartsItsTimer :
    Counted running box .lfu 8 levers (unitOf .active) ∧ running.switchHeld = false ∧
    Counted running box .tu 9 sample (unitOf .active) ∧ Counted running box .lu 10 lamps (unitOf .active) ∧
    Counted running box .iu 11 instruments (unitOf .active) ∧ Counted running box .du 12 diagram (unitOf .active) :=
  ⟨counted_levers, rfl, counted_sample, counted_lamps, counted_instruments, counted_diagram⟩

theorem witness_UncountedReports :
    running.inReset = false ∧ running.bank = some box ∧ box.kindAt (srcOf sample) = .tu ∧ wfFromUnit 9 sample = true ∧
    (∀ x ∈ [UnitState.probing, .absent, .mismatch, .silent],
      recAt ({ running with units := [(2, unitOf x)] }).units (srcOf sample) = some (unitOf x)) ∧
    running.outQueue.length + 2 < 24 ∧ (UnitKind.tu, (9 : Byte), Instr.trackSample 1 sample) ∈
      [(UnitKind.lfu, (8 : Byte), Instr.leverReport 1 sample), (.tu, 9, .trackSample 1 sample)] := by decide +kernel

theorem witness_IdentIsJudged :
    (let f := report 2 .ident [2, 0, 0, 0x9C, 0xB5, 12]
     wfFromUnit 13 f = true ∧ box.kindAt (srcOf f) ≠ .none ∧ byteAt f.payload 0 = (box.rosterAt 2).kind ∧
       (box.rosterAt 2).serial = 0) ∧
    byteAt (report 2 .ident [3, 0, 0, 0x9C, 0xB5, 12]).payload 0 ≠ (box.rosterAt 2).kind ∧
    recAt ({ running with units := [(2, unitOf .absent)] }).units 2 = some (unitOf .absent) ∧
    recAt running.units 2 = some (unitOf .active) ∧ running.inReset = false ∧ running.bank = some box := by decide +kernel

/-- A probe window of a PROBING unit at counts 1 and 2 and of an ABSENT one; a re-probe timer. -/
theorem witness_ProbeTimersProbeAgain :
    running.inReset = false ∧
    (∀ n ∈ [1, 2], recAt ({ running with units := [(2, { state := .probing, probeCount := n, probeWindow := some 9 })] }).units 2 =
      some { state := .probing, probeCount := n, probeWindow := some 9 }) ∧
    recAt ({ running with units := [(2, { unitOf .absent with probeWindow := some 9, reprobe := some 900 })] }).units 2 =
      some { unitOf .absent with probeWindow := some 9, reprobe := some 900 } ∧ running.outQueue.length < 24 := by decide +kernel

theorem witness_ReportTimerSilencesTheUnit :
    running.inReset = false ∧ running.bank = some box ∧
    recAt ({ running with units := [(2, { unitOf .active with report := some 50 })] }).units 2 =
      some { unitOf .active with report := some 50 } := by decide +kernel

/-- R149, R150: LU 3 falls SILENT, and lamp 1 was LIT with its alarm QUIET. -/
theorem witness_ReportTimerSilencesTheUnit_lamps :
    let s := { running with units := [(3, { unitOf .active with report := some 50 })] }
    let t := after (.reportTimerExpiry 1 3) s
    s.part = .running ∧ box.kindAt 3 = .lu ∧ box.assignedChannels 3 = [(0, 1)] ∧
      recAt s.lamps 1 = some { state := .lit, last := some .lit, current := some 905 } ∧
      (recAt t.lamps 1).map LampRec.alarm = some .alarm ∧ ⟨.lampFault, 1, 4, 50, false⟩ ∈ t.events := by decide +kernel

theorem witness_SampleComputation :
    Counted running box .tu 9 sample (unitOf .active) ∧ ((box.assignedChannels (srcOf sample)).map Prod.snd).Nodup ∧
    (0, 1) ∈ box.assignedChannels (srcOf sample) ∧
    recAt running.tracks 1 = some { state := .clear, s := 820, q := 820, provedOnce := true } ∧
    recAt ({ running with tracks := [(1, { s := 2047 })] }).tracks 1 = some { s := 2047 } :=
  ⟨counted_sample, by decide +kernel⟩

theorem witness_SampleDecision :
    Counted running box .tu 9 sample (unitOf .active) ∧ ((box.assignedChannels (srcOf sample)).map Prod.snd).Nodup ∧
    (1, 2) ∈ box.assignedChannels (srcOf sample) ∧ recAt running.tracks 2 = some { state := .clear, s := 877, q := 880 } :=
  ⟨counted_sample, by decide +kernel⟩

/-- R39, R59, R60, R84, R135, R141: in one sample track 1 is entered while track 2, its neighbour, still stands OCCUPIED, and track
2 picks up in the second pass; section 1 is ON_LINE under a far CLEAR, and an approach lock of lever 1 waits for track 2. -/
theorem witness_SampleDecision_passes :
    let s := { running with
      tracks := [(1, { state := .clear, s := 600, provedOnce := true }), (2, { state := .occupied, s := 877 })],
      sections := [(1, { own := .onLine, far := .clear, commutator := .onLine })],
      levers := [(1, { home with approach := some 900 }), (2, home)] }
    let t := after (.trackSample 1 (report 2 .trackSample (sampleBytes 1000 0 0 0))) s
    betweenPasses s.tracks t.tracks 2 = some .occupied ∧
      recAt t.tracks 1 = some { state := .occupied, s := 450, good := 1, provedOnce := true } ∧
      (recAt t.tracks 2).map (fun r => (r.state, r.exitSeen, r.provedOnce)) = some (.clear, true, true) ∧
      (recAt t.sections 1).map (fun r => (r.consumed, r.progress)) = some (true, .seen 1) ∧
      (recAt t.levers 1).map LeverRec.approach = some none ∧
      (samplePasses s.tracks t.tracks).map (arrivalChanges [1, 2]) = [[(1, .clear, .occupied)], [(2, .occupied, .clear)]] := by
  decide +kernel

/-- A track that its exit proves, and one that nothing proves. -/
theorem witness_PickUpExpiryDecidesClearing :
    running.inReset = false ∧ running.bank = some box ∧
    recAt ({ running with tracks := [(1, { state := .pickingUp, timer := some 9, exitSeen := true })] }).tracks 1 =
      some { state := .pickingUp, timer := some 9, exitSeen := true } ∧
    (let r : TrackRec := { state := .pickingUp, timer := some 9, provedOnce := true }
     recAt ({ running with tracks := [(1, r), (2, { state := .clear })] }).tracks 1 = some r ∧
       (box.trackEntry 1).provingOn = true ∧ (box.trackEntry 1).neighbourNumbers = [2] ∧ r.exitSeen = false) := by
  decide +kernel

theorem running_fits : ∀ p ∈ running.levers, leverFits p.2 := by
  show ∀ p ∈ [(1, home), (2, home)], leverFits p.2
  simp [home, leverFits]

/-- Lever 1 leaves NORMAL against its lock; lever 2 is at MID. -/
theorem witness_LeverReportIsJudged :
    Counted running box .lfu 8 levers (unitOf .active) ∧ running.switchHeld = false ∧
    ((box.assignedChannels (srcOf levers)).map Prod.snd).Nodup ∧ (∀ p ∈ running.levers, leverFits p.2) ∧
    (0, 1) ∈ box.assignedChannels (srcOf levers) ∧ recAt running.levers 1 = some home ∧
    3 ∉ (box.assignedChannels (srcOf levers)).map Prod.snd :=
  ⟨counted_levers, rfl, by decide +kernel, running_fits, by decide +kernel⟩

/-- R97: a FREE stroke of lever 1 that a report ends at REVERSE, or at FAULT, while track 1, which its list names, is OCCUPIED. -/
theorem witness_LeverReportIsJudged_strokes :
    let s := { running with
      levers := [(1, { lifted with position := .mid, release := .strokeN }), (2, home)],
      tracks := [(1, { state := .occupied }), (2, { state := .clear, s := 877, q := 880 })] }
    let at' := fun x => after (.leverReport 1 (report 1 .leverReport (leverBytes x 1))) s
    let t := at' 2
    (recAt (at' 3).levers 1).map (fun l => (l.position, l.strokeLoss)) = some (.fault, true) ∧
      ⟨.strokeLoss, 1, 1, 1, false⟩ ∈ (at' 3).events ∧ recAt s.levers 1 = some { lifted with position := .mid, release := .strokeN } ∧
      listHolds t box (box.leverEntry 1).reverseList = false ∧ (recAt t.levers 1).map LeverRec.strokeLoss = some true := by
  decide +kernel

/-- R79: what STROKE_LOSS looks for: a FREE stroke that goes on, one that has raised it, and one locked with the part. -/
theorem witness_LeverReportIsJudged_told :
    let pulled : LeverRec := { lifted with position := .mid, release := .strokeN }
    let t := { running with tracks := [(1, { state := .occupied })] }
    LosesStroke box t 1 pulled .mid 1 ∧ ¬ LosesStroke box t 1 { pulled with lossTold := true } .mid 1 ∧
      ¬ LosesStroke box { t with part := .tripped } 1 pulled .mid 1 ∧ LosesStroke box t 1 pulled .fault 1 := by
  refine ⟨⟨by decide, .normal, by decide +kernel⟩, ?_, ?_, ⟨by decide, .normal, by decide +kernel⟩⟩
  · exact fun h => absurd h.1 (by decide)
  · exact fun ⟨_, _, h, _⟩ => absurd h (by simp [freeStrokeLeft, lifted])

/-- A report that finds both levers at REVERSE, the two having stood locked at NORMAL; and a flag that stood on lever 2. -/
theorem witness_SecondViolationTrips :
    (let f := report 1 .leverReport (leverBytes 2 2)
     srcOf f = 1 ∧ leavesLocked home (reportedPosition f.payload 0) = true ∧
       leavesLocked home (reportedPosition f.payload 1) = true) ∧
    running.part = .running ∧ recAt running.levers 1 = some home ∧ recAt running.levers 2 = some home ∧
    box.assignedChannels 1 = [(0, 1), (1, 2)] ∧
    (∃ p ∈ ({ running with levers := [(1, home), (2, { home with violation := true })] }).levers,
      p.1 ≠ 1 ∧ p.2.violation = true) ∧
    ⟨.trip, 1, TripCause.multiViolation.code, 1, false⟩ ∈
      (after (.leverReport 1 (report 1 .leverReport (leverBytes 2 2))) running).events := by decide +kernel

theorem witness_ConditionsRead :
    recAt running.levers (PoolEntry.object { kind := 1, object := 1 }).toNat = some home ∧
    recAt running.levers (PoolEntry.second { kind := 3, object := 1, second := 2, position := 2 }).toNat = some home := by
  decide +kernel

theorem witness_ApproachAndRepetitionTimers :
    running.inReset = false ∧
    recAt ({ running with levers := [(1, { home with approach := some 9001 })] }).levers 1 =
      some { home with approach := some 9001 } ∧
    recAt ({ running with exchanges := [(1, { offered with timer := some 2340 })] }).exchanges 1 =
      some { offered with timer := some 2340 } := by decide +kernel

theorem witness_LampReportIsClassed :
    Counted running box .lu 10 lamps (unitOf .active) ∧ ((box.assignedChannels (srcOf lamps)).map Prod.snd).Nodup ∧
    (0, 1) ∈ box.assignedChannels (srcOf lamps) ∧
    recAt running.lamps 1 = some { state := .lit, last := some .lit, current := some 905 } :=
  ⟨counted_lamps, by decide +kernel⟩

theorem witness_DiagReportWritesFaults :
    Counted running box .du 12 diagram (unitOf .active) ∧ (unitOf .active).faults.length = 16 ∧
    (0, 1) ∈ box.assignedChannels (srcOf diagram) ∧ 1 ∉ (box.assignedChannels (srcOf diagram)).map Prod.fst :=
  ⟨counted_diagram, by decide +kernel⟩

theorem witness_DiagramModes :
    recAt running.tracks 1 = some { state := .clear, s := 820, q := 820, provedOnce := true } ∧
    recAt running.levers 2 = some home ∧
    recAt running.sections 1 = some { own := .blocked, far := .blocked, commutator := .blocked } ∧
    recAt running.exchanges 1 = some {} ∧
    recAt running.lamps 1 = some { state := .lit, last := some .lit, current := some 905 } ∧
    recAt running.units 6 = some (unitOf .active) ∧ running.part ≠ .unconfigured := by decide +kernel

theorem witness_CommandContents :
    box.kindAt 1 = .lfu ∧ box.kindAt 4 = .iu ∧ box.kindAt 5 = .du ∧ (0, 1) ∈ box.assignedChannels 4 ∧
    (1 ∉ (box.assignedChannels 4).map Prod.fst) ∧ recAt running.sections 0 = none ∧
    (0, 1, Mode.off) ∈ [(0, 1, Mode.off)] ∧ recAt running.outputs 1 = some .off ∧
    15 ∉ (box.assignedChannels 5).map Prod.fst ∧ recAt running.outputs 0 = none := by decide +kernel

/-- An arrival that made section 1 ON_LINE, in a part whose queues have room: 16 frames and 6 units, 15 messages and a
section. -/
theorem witness_CommandContents_placed :
    let s := { running with
      outQueue := frames 16 .bellRing 4, sections := [(1, { own := .onLine, far := .blocked, commutator := .onLine })],
      lineA := { lineUp with queue := List.replicate 15 (.stroke 0) } }
    s.bank = some box ∧ s.part ≠ .starting ∧
      s.outQueue.length + (addresses.filter fun a => box.kindAt a ≠ .none).length + 2 = 24 ∧
      (stateCommand (finish running s) box 4).isSome = true ∧ stateCommand running box 4 ≠ stateCommand (finish running s) box 4 ∧
      recAt running.sections 1 = some { own := .blocked, far := .blocked, commutator := .blocked } ∧
      (s.sections.map Prod.fst).Nodup ∧ (s.line .a).queue.length + s.sections.length = 16 := by decide +kernel

theorem witness_InstrReportMovesTheInstrument :
    Counted running box .iu 11 instruments (unitOf .active) ∧ box.assignedChannels (srcOf instruments) = [(0, 1)] ∧
    recAt running.sections 1 = some { own := .blocked, far := .blocked, commutator := .blocked } ∧
    (byteAt instruments.payload 0).getLsbD 7 = true ∧ (byteAt instruments.payload 2).getLsbD 0 = true ∧
    (running.line .a).link = .up ∧ (List.replicate 14 (LineMsg.stroke 0)).length < 15 ∧ State.reset.lineA.link = .down :=
  ⟨counted_instruments, by decide +kernel⟩

/-- The offer of 8.9 stands, and the window is 120 s: at 100 s a move to CLEAR is taken. -/
theorem witness_InstrReport_acceptance_stands :
    AcceptanceStands { running with exchanges := [(1, offered)] } box 1
      { own := .blocked, far := .blocked, commutator := .blocked } 10000 := by
  refine ⟨by decide +kernel, by decide +kernel, fun _ => rfl, ⟨offered, 790, ⟨by decide +kernel, rfl, rfl, rfl⟩, rfl, ?_⟩, ?_⟩
  · decide +kernel
  · decide +kernel

/-- An idle recogniser; one at a group of 8 and of 9; and one with three groups and with four. -/
theorem witness_RecogniserTakesAStroke :
    ({} : Recogniser).collecting = false ∧
    (let r : Recogniser := { collecting := true, groups := [3, 8], last := some 0 }
     r.groups = [3] ++ [8] ∧ ((69 : Time) - 0).toNat < box.timing.tg.toNat ∧ 8 < 9) ∧
    (let r : Recogniser := { collecting := true, groups := [1, 1, 1, 9], last := some 0 }
     r.groups = [1, 1, 1] ++ [9] ∧ box.timing.tg.toNat ≤ ((70 : Time) - 0).toNat ∧ 3 ≤ [1, 1, 1].length) := by decide +kernel

/-- The codes of `test_endTimerExpiry`: the first replaces an empty record, the second repeats an awaiting one. -/
theorem witness_CodeCompletes :
    running.inReset = false ∧ running.bank = some box ∧
    (let r : Recogniser := { collecting := true, groups := [3, 1], last := some 140, endTimer := some 340 }
     recAt (({ running with incoming := [(1, r)] }).recognisers .incoming) 1 = some r) ∧ recAt running.exchanges 1 = some {} ∧
    (let y : Exchange := { offered with status := .awaiting, ackTime := none, timer := some 2340 }
     recAt ({ running with exchanges := [(1, y)] }).exchanges 1 = some y ∧ y.origin ≠ some .weSent ∧ y.pattern = [3, 1]) := by
  decide +kernel

/-- The samples of a clean STROKE header; a header, a data character and a damaged one; and each state of the receiver. -/
theorem witness_CharactersAreAssembled :
    (cleanSamples 0xF0 true).data = List.ofFn ![0, 0, 0, 0, 7, 7, 7, 7] ∧
    (∀ n ∈ [0, 1, 2, 4], (soundCharacter n true).markBit = true ∧ (soundCharacter n true).value % 16 = n ∧
      (soundCharacter n true).value / 16 + (soundCharacter n true).value % 16 = 15) ∧
    (∀ n ∈ [1, 3], (soundCharacter n false).markBit = false ∧ (soundCharacter n false).value % 16 = n) ∧
    ({ soundCharacter 0 true with noise := true }).noise = true ∧ Receiver.assemble (2 + 1) [] = .assemble 3 [] := by
  decide +kernel

/-- A line without its rate; a start that is not confirmed; an INSTR header; a STROKE header; and the data characters that complete
an INSTR and a STATUS. -/
theorem witness_LineCharacterIsTaken :
    running.inReset = false ∧ (running.line .a).settings.isSome = true ∧ (running.line .a).markHold = false ∧
    (State.reset.line .a).settings = none ∧ readCharacter { cleanSamples 0xF0 true with start := 7 } = none ∧
    readCharacter (cleanSamples 0xD2 true) = some (soundCharacter 2 true) ∧
    (assemble (running.line .a).receiver (soundCharacter 2 true)).message = none ∧
    readCharacter (cleanSamples 0xE1 true) = some (soundCharacter 1 true) ∧
    (let r : LineRec := { lineUp with receiver := .assemble (2 + 1) [] }
     r.receiver = .assemble 3 [] ∧ readCharacter (cleanSamples 0xC3 false) = some (soundCharacter Instrument.onLine.code false)) ∧
    (let r : LineRec := { lineUp with receiver := .assemble 4 [.clear] }
     r.receiver = .assemble 4 [.clear] ∧
       readCharacter (cleanSamples 0xE1 false) = some (soundCharacter Instrument.blocked.code false)) := by decide +kernel

/-- A link that is UP, and one that is DOWN without a first message; a first message 3 s and 2.99 s ago; a running link timer. -/
theorem witness_LinkRule :
    (running.line .a).settings = some {} ∧ (running.line .a).link = .up ∧ (running.line .a).linkTimer = some 300 ∧
    State.reset.lineA.link = .down ∧ State.reset.lineA.firstHeard = none ∧
    ((300 : Time) - 0).toNat = ({} : LineSettings).linkTimeout.toNat * 100 ∧
    ((300 : Time) - 1).toNat < ({} : LineSettings).linkTimeout.toNat * 100 ∧ running.bank = some box := by decide +kernel

theorem witness_StrokeMessageIsTaken :
    running.inReset = false ∧ (State.reset.line .a).settings = none ∧ (running.line .a).settings.isSome = true ∧
    (running.line .a).receiver = .hunt ∧ (running.line .a).gapStart = none ∧ running.bank = some box ∧
    box.sectionAt .a 0 = some 1 ∧ box.assignment .iu 1 = some (4, 0) ∧ box.sectionAt .a 1 = none ∧
    running.outQueue.length + 1 < 24 := by decide +kernel

theorem witness_FarStatesAreTaken :
    running.inReset = false ∧ running.bank = some box ∧ (running.line .a).settings = some {} ∧
    (running.line .a).link = .up ∧ box.sectionAt .a 0 = some 1 ∧ box.sectionAt .a 1 = none ∧
    (box.sectionEntry 1).dir = .single ∧ (box.sectionEntry 1).senior = 2 ∧
    (let s := { running with sections := [(1, { own := .clear, far := .blocked, commutator := .clear })] }
     ⟨.conflictWithdrawn, 1, 0, 1, false⟩ ∈ (after (.statusMessage 1 .a .clear .blocked) s).events) ∧
    recAt running.sections 1 = some { own := .blocked, far := .blocked, commutator := .blocked } := by decide +kernel

/-- Transmit queues of 15 and of 16 messages, with and without the message that would be replaced. -/
theorem witness_LineQueue :
    (running.line .a).settings.isSome = true ∧ (running.line .a).sending = none ∧ (running.line .a).startSeq = .idle ∧
    ([LineMsg.instr 0 .clear, .stroke 0] ≠ []) ∧ (List.replicate 15 (LineMsg.stroke 0)).length < 16 ∧
    16 ≤ (List.replicate 16 (LineMsg.stroke 0)).length ∧
    List.replicate 16 (LineMsg.stroke 0) = List.replicate 15 (.stroke 0) ++ .stroke 0 :: [] ∧
    [LineMsg.stroke 0, .instr 0 .clear] = [.stroke 0] ++ .instr 0 .clear :: [] ∧ State.reset.lineA.link = .down := by
  decide +kernel

theorem witness_LineTransmitterAndTimers :
    running.inReset = false ∧ (({ lineUp with sending := some (.stroke 0) } : LineRec)).sending.isSome = true ∧
    (({ lineUp with startSeq := .sendingBreak } : LineRec)).startSeq = .sendingBreak ∧
    (({ lineUp with startSeq := .sendingIdle } : LineRec)).startSeq = .sendingIdle ∧ lineUp.startSeq ≠ .sendingIdle ∧
    (({ lineUp with gapStart := some 9 } : LineRec)).gapStart = some 9 ∧ lineUp.settings = some {} ∧
    lineUp.statusTimer = some 50 ∧ (running.line .b).sending = none ∧ running.bank = some box := by decide +kernel

/-- A request of the terminal, ACTIVE at address 6, is handled. -/
theorem requested_of (s : State) (code : Byte) (params : List Byte) (b : Bank) (u : UnitRec)
    (h : s.inReset = false ∧ wfFromUnit 14 (requestFrame code (request code params)) = true ∧ s.bank = some b ∧
      b.kindAt (srcOf (requestFrame code (request code params))) = .mt ∧
      recAt s.units (srcOf (requestFrame code (request code params))) = some u ∧ u.state ≠ .mismatch ∧ u.state ≠ .silent) :
    Requested s code (request code params) := by
  obtain ⟨h1, h2, h3, h4, h5, h6, h7⟩ := h
  refine ⟨h1, h2, .inr ⟨b, h3, h4, fun v hv => ?_⟩⟩
  rw [h5] at hv
  cases hv
  exact ⟨h6, h7⟩

theorem requested (code : Byte) (params : List Byte)
    (h : wfFromUnit 14 (requestFrame code (request code params)) = true ∧
      srcOf (requestFrame code (request code params)) = 6) : Requested running code (request code params) :=
  requested_of running code params box (unitOf .active)
    ⟨rfl, h.1, rfl, by rw [h.2]; decide +kernel, by rw [h.2]; decide +kernel, by decide, by decide⟩

/-- A request from an LFU; from a terminal in MISMATCH and in SILENT; a faulty form; a request while SWITCHING. -/
theorem witness_RequestsAreAdmitted :
    (let g := withCrc 14 ⟨0, 1, 0, [9, 3], 0, 0⟩
     let f : RequestFrame := { request 3 [] with b1 := 1, crcHigh := g.crcHigh, crcLow := g.crcLow }
     wfFromUnit 14 (requestFrame 3 f) = true ∧ box.kindAt (srcOf (requestFrame 3 f)) = .lfu) ∧
    box.kindAt 6 = .mt ∧ recAt ({ running with units := [(6, unitOf .mismatch)] }).units 6 = some (unitOf .mismatch) ∧
    recAt ({ running with units := [(6, unitOf .silent)] }).units 6 = some (unitOf .silent) ∧
    readRequest 12 (request 12 [9]).params = none ∧ wfRequest 3 (request 3 []) = true ∧
    ((3 : Byte), (none : Option Bool), Instr.copyBank 1 (request 3 [])) ∈ requestsOf 1 true (request 3 []) ∧
    wfBadRequest (report 6 .maintRequest [9, 99]) = true := by decide +kernel

theorem witness_RequestsAreAdmitted_requested :
    Requested running 12 (request 12 [9]) ∧
    Requested { running with part := .switching } 3 (request 3 []) :=
  ⟨requested _ _ (by decide +kernel), requested_of _ _ _ box (unitOf .active) (by decide +kernel)⟩

theorem witness_RecordsAndEventsAreRead :
    Requested running 1 (request 1 [8, 1]) ∧ readRequest 1 (request 1 [8, 1]).params = some (.readRecord .unit 1) ∧
    Requested running 12 (request 12 [8]) ∧ readRequest 12 (request 12 [8]).params = some (.readEvents 8) :=
  ⟨requested _ _ (by decide +kernel), by decide +kernel, requested _ _ (by decide +kernel), by decide +kernel⟩

theorem running_faults (a : Nat) (u : UnitRec) (h : recAt running.units a = some u) : u.faults.length = 16 := by
  have : ∀ p ∈ running.units, p.2.faults.length = 16 := by decide +kernel
  exact this (a, u) (by
    revert h
    generalize running.units = r
    induction r with
    | nil => simp [recAt]
    | cons p r ih =>
      obtain ⟨m, x⟩ := p
      by_cases hm : m = a
      · simp only [recAt, hm, if_true, Option.some.injEq]
        rintro rfl
        exact List.mem_cons_self ..
      · simp only [recAt, hm, if_false]
        exact fun h => List.mem_cons_of_mem _ (ih h))

theorem witness_RecordsAreMarked :
    RecordClass.unit.indexOk 31 = true ∧ readRecord running .unit 31 = (.undefined, List.replicate 31 0) ∧
    readRecord State.reset .pool 511 = (.undefined, List.replicate 4 0) ∧ RecordClass.exchange.indexOk 4 = true ∧ RecordClass.pool.indexOk 511 = true ∧
    (∀ b, running.bank = some b → b.wf = true) ∧ (∀ a u, recAt running.units a = some u → u.faults.length = 16) :=
  ⟨by decide, by decide +kernel, by decide +kernel, by decide, by decide, fun b h => by
    obtain rfl : box = b := Option.some.inj h
    exact test_box_is_well_formed, running_faults⟩

theorem witness_ShadowBankIsEdited :
    running.part ≠ .switching ∧ Requested running 2 (request 2 [0xA8, 1, 7]) ∧
    readRequest 2 (request 2 [0xA8, 1, 7]).params = some (.loadTable .group 1 [7]) ∧
    (running.shadow.loadEntry .group 1 [7]).isSome = true ∧
    readRequest 2 (request 2 [0x50, 0]).params = some (.loadTable .trip 0 []) ∧ RecordClass.trip.code ≤ 10 ∧
    readRequest 2 (request 2 [0x48, 1, 0, 15]).params = some (.loadEdition 15) ∧
    Requested running 3 (request 3 []) ∧ running.bank = some box ∧ Requested running 4 (request 4 []) ∧
    bankFault ({ running with shadow := box }).shadow = none ∧
    bankFault running.shadow = some ⟨.noTerminal, .roster, 0, 0⟩ :=
  ⟨by decide, requested _ _ (by decide +kernel), by decide +kernel, by decide +kernel, by decide +kernel, by decide,
    by decide +kernel, requested _ _ (by decide +kernel), rfl, requested _ _ (by decide +kernel), test_box_passes_the_check,
    by decide +kernel⟩

theorem witness_CheckedBankIsSound :
    bankFault box = none ∧ box.defined .tu 2 = true ∧ box.defined .lfu 1 = true ∧ (0, 1) ∈ box.assignedChannels 1 ∧
    LeverKind.ofByte (box.leverEntry 1).kind = .signal ∧ (1, ({ kind := 1, object := 2 } : PoolEntry)) ∈
      box.covered (box.leverEntry 1).reverseList :=
  ⟨test_box_passes_the_check, by decide +kernel⟩

/-- Every test of SWITCH_BANK passes; and a state in which each test of its order is the first to fail. -/
theorem witness_SwitchBankIsJudged :
    (let s := { running with shadow := box, check := .passed 7 }
     Requested s 5 (request 5 []) ∧ s.part ≠ .switching ∧ s.part = .running ∧ s.check = .passed 7 ∧
       (∀ p ∈ s.levers, p.2.position = .normal ∧ p.2.catchUp = false ∧ p.2.violation = false ∧ p.2.approach = none) ∧
       (∀ p ∈ s.sections, p.2.own = .blocked)) ∧
    PartState.starting ≠ .running ∧ running.check = .unchecked ∧ lifted.catchUp = true ∧
    ({ home with violation := true } : LeverRec).violation = true ∧ (box.sectionEntry 1).dir ≠ .outbound ∧
    ({ home with approach := some 9 } : LeverRec).approach ≠ none :=
  ⟨⟨requested_of _ _ _ box (unitOf .active) (by decide +kernel), by decide +kernel⟩, by decide +kernel⟩

theorem witness_RestoreTrackIsJudged :
    (let s := { running with tracks := [(1, { state := .suspect, s := 700 }), (2, { state := .suspect, s := 699 })] }
     Requested s 6 (request 6 [1]) ∧ s.part ≠ .switching ∧
       readRequest 6 (request 6 [1]).params = some (.restoreTrack 1) ∧ s.bank = some box ∧
       recAt s.tracks 1 = some { state := .suspect, s := 700 } ∧ (box.trackEntry 1).p.toNat = 700 ∧
       recAt s.tracks 2 = some { state := .suspect, s := 699 } ∧ box.assignment .tu 1 = some (2, 0) ∧
       s.unitActive 2 = true) ∧
    readRequest 6 (request 6 [24]).params = some (.restoreTrack 24) ∧ recAt running.tracks 24 = none :=
  ⟨⟨requested_of _ _ _ box (unitOf .active) (by decide +kernel), by decide +kernel⟩, by decide +kernel⟩

theorem witness_KeyedRequestsAreJudged :
    running.part ≠ .switching ∧ Requested running 7 (request 7 [2]) ∧
    readRequest 7 (request 7 [2]).params = some (.clearViolation 2) ∧ recAt running.levers 2 = some home ∧
    recAt running.levers 48 = none ∧ Requested running 8 (request 8 [1]) ∧
    readRequest 8 (request 8 [1]).params = some (.blockRelease 1) ∧
    recAt ({ running with sections := [(1, { own := .onLine })] }).sections 1 = some { own := .onLine } ∧
    Requested running 13 (request 13 []) ∧ readRequest 13 (request 13 []).params = some .restart :=
  ⟨by decide, requested _ _ (by decide +kernel), by decide +kernel, by decide +kernel, by decide +kernel,
    requested _ _ (by decide +kernel), by decide +kernel, by decide +kernel, requested _ _ (by decide +kernel), by decide +kernel⟩

theorem witness_UnkeyedRequestsAreJudged :
    running.part ≠ .switching ∧ Requested running 9 (request 9 []) ∧ readRequest 9 (request 9 []).params = some .ackAlarms ∧
    Requested running 10 (request 10 [5, 15]) ∧ readRequest 10 (request 10 [5, 15]).params = some (.setGroup 5 15) ∧
    readRequest 10 (request 10 [0, 0]).params = some (.setGroup 0 0) ∧ 5 ≤ running.groupLive.length ∧
    running.bank.isSome = true ∧ Requested running 11 (request 11 [31]) ∧
    readRequest 11 (request 11 [31]).params = some (.reprobe 31) ∧ box.kindAt 31 = .none ∧
    readRequest 11 (request 11 [1]).params = some (.reprobe 1) ∧ recAt running.units 1 = some (unitOf .active) ∧
    running.outQueue.length + 2 < 24 :=
  ⟨by decide, requested _ _ (by decide +kernel), by decide +kernel, requested _ _ (by decide +kernel), by decide +kernel,
    by decide +kernel, by decide +kernel, by decide +kernel, requested _ _ (by decide +kernel), by decide +kernel⟩

theorem witness_StartTimerEndsStarting :
    (let s := { running with part := .starting, startTimer := some 200 }
     s.inReset = false ∧ s.startTimer = some 200 ∧ s.part = .starting ∧ (s.lamps.map Prod.fst).Nodup ∧
       recAt s.lamps 1 = some { state := .lit, last := some .lit, current := some 905 }) ∧
    running.part ≠ .starting := by decide +kernel

theorem witness_StartupComparison :
    State.reset.inReset = false ∧ State.reset.part = .starting ∧ State.reset.active = none ∧ running.part ≠ .starting ∧
    State.reset.stored.bank.crc32 ≠ State.reset.stored.crc ∧
    (let s := { State.reset with stored := { bank := box, crc := box.crc32 } }
     s.part = .starting ∧ s.active = none ∧ s.tracks = [] ∧ s.stored.bank.crc32 = s.stored.crc) := by decide +kernel

/-- A store ends while SWITCHING, with every lever at NORMAL and with lever 2 away, and while TRIPPED. -/
theorem witness_StoreOperationEnds :
    running.storeOp = none ∧
    (let s := { running with part := .switching, storeOp := some { bank := box } }
     s.inReset = false ∧ s.part = .switching ∧ s.storeOp = some { bank := box } ∧ ∀ p ∈ s.levers, p.2.position = .normal) ∧
    ({ running with levers := [(1, home), (2, { position := .mid })] }).levers = [(1, home)] ++ (2, { position := .mid }) :: [] ∧
    ({ running with part := .tripped }).part = .tripped := by decide +kernel

/-- A bank in which lever 1's entry differs from the small box, and neither lever 2's nor any assignment. -/
def rebuilt : Bank :=
  { box with levers := filled 48 [{ kind := 1, reverseList := ⟨0, 2⟩ },
      { kind := 2, reverseList := ⟨2, 1⟩, normalList := ⟨0, 1⟩ }] {} }

/-- A switch to that bank, from the small box and out of UNCONFIGURED. -/
theorem witness_SwitchRedefines :
    (let s := { running with part := .switching, storeOp := some { bank := rebuilt } }
     s.inReset = false ∧ s.storeOp = some { bank := rebuilt } ∧ s.part = .switching ∧ s.bank = some box ∧
       (∀ p ∈ s.levers, p.2.position = .normal) ∧ box.rosterAt 1 = rebuilt.rosterAt 1 ∧ rebuilt.defined .lfu 2 = true ∧
       box.leverEntry 1 ≠ rebuilt.leverEntry 1 ∧ box.leverEntry 2 = rebuilt.leverEntry 2 ∧
       box.assignment .lfu 2 = rebuilt.assignment .lfu 2 ∧ rebuilt.defined .tu 1 = true ∧ rebuilt.defined .iu 1 = true ∧
       rebuilt.defined .lu 1 = true ∧ rebuilt.defined .tu 24 = false) ∧
    (let s := { State.reset with part := .switching, storeOp := some { bank := rebuilt } }
     s.bank = none ∧ s.storeOp = some { bank := rebuilt } ∧ ∀ p ∈ s.levers, p.2.position = .normal) := by decide +kernel

/-- A completion that lever 1 holds, at MID after a stroke from NORMAL; the report that finds it at NORMAL. -/
def heldBack : State :=
  { running with part := .switching, switchHeld := true, stored := { bank := rebuilt },
                 levers := [(1, { position := .mid, release := .strokeN }), (2, home)] }

def comesHome := report 1 .leverReport (leverBytes 1 1)

theorem witness_SwitchRedefines_held :
    Counted heldBack box .lfu 8 comesHome (unitOf .active) ∧ heldBack.part = .switching ∧ heldBack.switchHeld = true ∧
    ((box.assignedChannels (srcOf comesHome)).map Prod.snd).Nodup ∧ (∀ p ∈ heldBack.levers, leverFits p.2) ∧
    (∀ c ∈ box.assignedChannels (srcOf comesHome), reportedPosition comesHome.payload c.1 = .normal) ∧
    leavesLocked { position := .mid, release := .strokeN } .normal = false ∧ leavesLocked home .normal = false ∧
    ∀ p ∈ heldBack.levers, p.1 ∉ (box.assignedChannels (srcOf comesHome)).map Prod.snd → p.2.position = .normal :=
  ⟨⟨rfl, by decide +kernel, rfl, by decide +kernel, by decide +kernel, rfl⟩, rfl, rfl, by decide +kernel,
    by simp [heldBack, home, leverFits], by decide +kernel⟩

/-- The same, lever 1 having stood locked at REVERSE: the completing report violates it, and no other flag stands. -/
theorem witness_SwitchRedefines_violating :
    let forced : LeverRec := { position := .reverse, release := .rLocked }
    let s := { heldBack with levers := [(1, forced), (2, home)] }
    let t := after (.leverReport 1 comesHome) s
    leavesLocked forced .normal = true ∧ leavesLocked home .normal = false ∧ leverFits forced ∧
      (∀ p ∈ s.levers, p.1 ≠ 1 → p.2.violation = false) ∧ t.part = .running ∧
      ⟨.leverViolation, 1, 2, 1, false⟩ ∈ t.events := by
  refine ⟨by decide, by decide, rfl, by decide +kernel⟩

theorem witness_PartStateRoutes :
    (∃ t, exec (.startTimerExpiry 1) { running with part := .starting, startTimer := some 200 } = .next t) ∧
    ({ running with part := .tripped }).part = .tripped ∧ isReset (.startTimerExpiry 1) = false :=
  ⟨⟨_, rfl⟩, by decide +kernel⟩

/-- The acceptance of `test_instrReport_accepts`. -/
theorem witness_OwnStateMoves :
    (∃ t, exec (.instrReport 1200 (report 4 .instrReport [2, 0, 0])) { running with exchanges := [(1, offered)] } = .next t ∧
      recAt t.sections 1 = some { own := .clear, far := .blocked, commutator := .clear }) ∧
    running.bank = some box ∧ (∀ a ∈ addresses, ((box.assignedChannels a).map Prod.snd).Nodup) ∧
    recAt running.sections 1 = some { own := .blocked, far := .blocked, commutator := .blocked } :=
  ⟨⟨_, rfl, by decide +kernel⟩, by decide +kernel⟩

theorem witness_CapacitiesAreKept :
    Capacities { running with outQueue := frames 24 .bellRing 4, pending := [.frameSent 1] } ∧
    ∃ t, step { running with outQueue := frames 24 .bellRing 4, pending := [.frameSent 1] } = .next t :=
  ⟨by unfold Capacities; decide +kernel, _, rfl⟩

/-- The frame with lever 1 at NORMAL, its catch up, free. -/
def freed : State := { running with levers := [(1, lifted), (2, home)], pending := [.leverReport 1 levers] }

theorem freed_released : Released freed box 1 lifted (box.leverEntry 1).reverseList :=
  ⟨rfl, rfl, ⟨1, 0, by decide +kernel, by decide +kernel⟩, rfl, by decide +kernel, by decide +kernel⟩

theorem witness_InterlockingIsKept :
    Interlocked freed ∧ (∃ t, step freed = .next t) ∧ freed.bank = some box ∧ (1, lifted) ∈ freed.levers ∧
    lifted.position = .normal ∧ lifted.lock = .free ∧
    (1, ({ kind := 1, object := 2 } : PoolEntry)) ∈ box.covered (box.leverEntry 1).reverseList := by
  have two : ∀ p ∈ freed.levers, p = (1, lifted) ∨ p = (2, home) := fun p hp => by simpa [freed] using hp
  refine ⟨⟨fun h => (by cases h), fun h => absurd rfl h, ?_, by decide +kernel, ?_, ?_, ?_, ?_, ?_⟩, ⟨_, rfl⟩, rfl,
    by decide +kernel, rfl, rfl, by decide +kernel⟩
  · simp [freed, lifted, home, leverFits]
  · intro b hb p hp _
    obtain rfl : box = b := Option.some.inj hb
    obtain rfl | rfl := two p hp
    · exact ⟨fun _ => freed_released, fun _ => rfl⟩
    · exact ⟨fun h => (by cases h), fun h => (by cases h.1)⟩
  · intro b _ p hp hn
    obtain rfl | rfl := two p hp <;> cases hn
  · intro b _ p hp hn
    obtain rfl | rfl := two p hp <;> cases hn
  · intro b _ p hp hn
    obtain rfl | rfl := two p hp <;> cases hn
  · intro p hp hn
    obtain rfl | rfl := two p hp <;> rcases hn with hn | hn <;> cases hn

/-- A part in RUNNING whose tracks, sections, alarms and outputs are sound. -/
theorem witness_RecordsAreKeptSound :
    TracksSound freed ∧ (∀ b, freed.bank = some b → TracksChecked b) ∧ SectionsSound freed ∧ AlarmsTell freed ∧
    OutputsShow freed ∧ ∃ t, step freed = .next t := by
  refine ⟨⟨fun h => (by cases h), ?_⟩, ?_, ⟨fun h => (by cases h), ?_⟩, ⟨fun h => (by cases h), by decide +kernel, fun _ => ?_⟩,
    by unfold OutputsShow; decide +kernel, _, rfl⟩
  · intro b hb t r hr
    obtain rfl : box = b := Option.some.inj hb
    have : t = 1 ∨ t = 2 := by
      by_contra h
      simp only [freed, running, recAt, not_or] at hr h
      simp [Ne.symm h.1, Ne.symm h.2] at hr
    obtain rfl | rfl := this
    · obtain rfl := Option.some.inj hr
      exact ⟨by decide +kernel, by unfold trackSound; decide +kernel⟩
    · obtain rfl := Option.some.inj hr
      exact ⟨by decide +kernel, by unfold trackSound; decide +kernel⟩
  · intro b hb
    obtain rfl : box = b := Option.some.inj hb
    refine ⟨by decide +kernel, fun t ht => ?_⟩
    obtain ⟨h1, h2⟩ : 1 ≤ t ∧ t ≤ 24 := by
      by_contra h
      simp [Bank.defined, Bank.assignment, UnitKind.objects, h] at ht
    have : ∀ t ∈ List.range' 1 24, box.defined .tu t = true → (box.trackEntry t).d.toNat < (box.trackEntry t).p.toNat := by
      decide +kernel
    exact this t (by simp; omega) ht
  · intro b hb n r hr
    obtain rfl : box = b := Option.some.inj hb
    have : n = 1 := by
      by_contra h
      change recAt [(1, ({ own := .blocked, far := .blocked, commutator := .blocked } : SectionRec))] n = some r at hr
      simp [recAt, Ne.symm h] at hr
    subst this
    obtain rfl := Option.some.inj hr
    unfold sectionSound
    decide +kernel
  · show ∀ p ∈ [(1, ({ state := .lit, last := some .lit, current := some 905 } : LampRec))], alarmTells p.2
    simp [alarmTells]

theorem witness_TableEntriesRoundTrip :
    box.wf = true ∧ 11 ≤ RecordClass.lampTable.code ∧ RecordClass.lampTable.indexOk 16 = true ∧
    [(1 : Byte), 2, 3, 4].length = RecordClass.lampTable.entryLength ∧ RecordClass.lampTable.indexOk 15 = true :=
  ⟨test_box_is_well_formed, by decide⟩

end Sys2Proof.Tests
end

section
/-! PROOF. What a counted TRACK_SAMPLE leaves of the four steps of the computation in a track's record (R40 to R43): the order
of the three levels, the filter step, and that no later part of the arrival touches what the four steps wrote. -/

namespace Sys2Proof.Machine

/-! ### The order of the three levels (R40) -/

theorem min_max_perm (x y : Nat) : [min x y, max x y].Perm [x, y] := by
  rcases le_total x y with h | h
  · simp [h]
  · simpa [h] using List.Perm.swap x y []

/-- The smallest, the median and the largest are the three levels put in order: compare the first two, then the larger of
them with the third, then the two that are left. -/
theorem median_perm (x y z : Nat) :
    [min (min x y) z, median x y z, max (max x y) z].Perm [x, y, z] := by
  have hlow : min (min x y) z = min (min x y) (min (max x y) z) := by omega
  calc [min (min x y) z, median x y z, max (max x y) z]
    _ = [min (min x y) (min (max x y) z), max (min x y) (min (max x y) z)] ++ [max (max x y) z] := by
      rw [← hlow]; rfl
    List.Perm _ ([min x y, min (max x y) z] ++ [max (max x y) z]) := (min_max_perm _ _).append_right _
    List.Perm _ [min x y, max x y, z] := (min_max_perm _ _).cons _
    List.Perm _ [x, y, z] := (min_max_perm x y).append_right [z]

theorem median_between (x y z : Nat) :
    min (min x y) z ≤ median x y z ∧ median x y z ≤ max (max x y) z := by
  unfold median; omega

/-! ### The ratio and the filter step (R41, R42) -/

theorem ratio_le (e : TrackEntry) (x : Sample) : ratio e x ≤ 2047 := by
  unfold ratio
  split
  · exact Nat.zero_le _
  · exact min_le_left _ _

/-- A difference that is not negative gives a step from 0 up to the difference. -/
theorem filterStep_of_nonneg {d : Int} (hd : 0 ≤ d) (k : Nat) : 0 ≤ d / 2 ^ k ∧ d / 2 ^ k ≤ d :=
  ⟨Int.ediv_nonneg hd (by positivity), Int.ediv_le_self _ hd⟩

/-- A negative difference gives a negative step of at most the difference, since the rounding is toward minus infinity. -/
theorem filterStep_of_neg {d : Int} (hd : d < 0) (k : Nat) : d ≤ d / 2 ^ k ∧ d / 2 ^ k < 0 := by
  have hpos : (0 : Int) < 2 ^ k := by positivity
  refine ⟨Int.le_ediv_of_mul_le hpos ?_, Int.ediv_neg_of_neg_of_pos hd hpos⟩
  nlinarith

/-- The filter step in whole numbers: it never goes below 0, so nothing is cut off. -/
theorem filtered_cast (s q k : Nat) : (filtered s q k : Int) = s + ((q : Int) - s) / 2 ^ k := by
  rw [filtered, Int.fdiv_eq_ediv_of_nonneg _ (by positivity), Int.toNat_of_nonneg]
  rcases Int.lt_or_le ((q : Int) - s) 0 with hd | hd
  · have := (filterStep_of_neg hd k).1; omega
  · have := (filterStep_of_nonneg hd k).1; omega

/-- The filter step as R42 words it: the difference divided by 2^k and rounded toward minus infinity. -/
theorem filtered_eq_floor (s q k : Nat) :
    (filtered s q k : Int) = s + ⌊(((q : Int) - (s : Int) : Int) : ℚ) / 2 ^ k⌋ := by
  have hfloor := Rat.floor_intCast_div_natCast ((q : Int) - s) (2 ^ k)
  push_cast at hfloor ⊢
  rw [filtered_cast, hfloor]

theorem filtered_rises {s q : Nat} (h : s ≤ q) (k : Nat) : s ≤ filtered s q k ∧ filtered s q k ≤ q := by
  have hc := filtered_cast s q k
  have hb := filterStep_of_nonneg (d := (q : Int) - s) (by omega) k
  omega

theorem filtered_falls {s q : Nat} (h : q < s) (k : Nat) : q ≤ filtered s q k ∧ filtered s q k < s := by
  have hc := filtered_cast s q k
  have hb := filterStep_of_neg (d := (q : Int) - s) (by omega) k
  omega

/-! ### One track in the first pass (R39) -/

/-- A track's record reduced to what the four steps of the computation write. -/
def sampleCore (r : TrackRec) : TrackRec := { s := r.s, q := r.q, noisy := r.noisy, good := r.good }

/-- The decision on a sample leaves what the computation wrote. -/
theorem sampleDecision_core (now : Time) (e : TrackEntry) (x : Sample) (r : TrackRec) :
    sampleCore (sampleDecision now e x r).record = sampleCore r := by
  unfold sampleDecision failedBy
  repeat' split
  all_goals rfl

/-- A track that takes a sample gets the record of its decision, on what the computation made of the record it had. -/
theorem trackTakes_tracks {b : Bank} {x : Sample} {acc : State × List Nat} {t : Nat} {r : TrackRec}
    (hr : recAt acc.1.tracks t = some r) :
    (trackTakes b x acc t).1.tracks = modifyRec acc.1.tracks t fun _ =>
      (sampleDecision acc.1.now (b.trackEntry t) x (computed (b.trackEntry t) x r)).record := by
  unfold trackTakes
  simp only [hr]
  split <;> simp

theorem trackTakes_self {b : Bank} {x : Sample} {acc : State × List Nat} {t : Nat} {r : TrackRec}
    (hr : recAt acc.1.tracks t = some r) :
    recAt (trackTakes b x acc t).1.tracks t =
      some (sampleDecision acc.1.now (b.trackEntry t) x (computed (b.trackEntry t) x r)).record := by
  rw [trackTakes_tracks hr, recAt_modifyRec_self, hr, Option.map_some]

theorem trackTakes_other {b : Bank} {x : Sample} {acc : State × List Nat} {t n : Nat} (h : n ≠ t) :
    recAt (trackTakes b x acc t).1.tracks n = recAt acc.1.tracks n := by
  cases hr : recAt acc.1.tracks t with
  | some r => rw [trackTakes_tracks hr, recAt_modifyRec, if_neg h]
  | none => simp only [trackTakes, hr]

/-- The samples of a list of channels, each taken by the track that its channel serves (R39). -/
def trackTakesAll (b : Bank) (bytes : List Byte) (l : List (Nat × Nat)) (acc : State × List Nat) : State × List Nat :=
  l.foldl (fun acc p => trackTakes b (sampleAt bytes p.1) acc p.2) acc

theorem trackTakesAll_cons (b : Bank) (bytes : List Byte) (p : Nat × Nat) (l : List (Nat × Nat)) (acc : State × List Nat) :
    trackTakesAll b bytes (p :: l) acc = trackTakesAll b bytes l (trackTakes b (sampleAt bytes p.1) acc p.2) := rfl

/-- The samples of a list of channels leave a track that no channel of the list serves. -/
theorem trackTakesAll_other {b : Bank} {bytes : List Byte} {l : List (Nat × Nat)} {n : Nat} (hn : n ∉ l.map Prod.snd)
    (acc : State × List Nat) :
    recAt (trackTakesAll b bytes l acc).1.tracks n = recAt acc.1.tracks n := by
  induction l generalizing acc with
  | nil => rfl
  | cons p l ih =>
    rw [List.map_cons, List.mem_cons, not_or] at hn
    rw [trackTakesAll_cons, ih hn.2, trackTakes_other hn.1]

/-- Where the channels of a list serve distinct tracks, each of these takes its own channel's sample, once. -/
theorem trackTakesAll_self {b : Bank} {bytes : List Byte} {l : List (Nat × Nat)} {ch n : Nat} {r : TrackRec}
    (hd : (l.map Prod.snd).Nodup) (hm : (ch, n) ∈ l) (acc : State × List Nat) (hr : recAt acc.1.tracks n = some r) :
    recAt (trackTakesAll b bytes l acc).1.tracks n =
      some (sampleDecision acc.1.now (b.trackEntry n) (sampleAt bytes ch)
        (computed (b.trackEntry n) (sampleAt bytes ch) r)).record := by
  induction l generalizing acc with
  | nil => cases hm
  | cons p l ih =>
    rw [List.map_cons, List.nodup_cons] at hd
    rw [trackTakesAll_cons]
    rcases List.mem_cons.1 hm with rfl | hm
    · rw [trackTakesAll_other hd.1, trackTakes_self hr]
    · have hp : n ≠ p.2 := fun h => hd.1 (h ▸ List.mem_map_of_mem (f := Prod.snd) hm)
      have hnow : (trackTakes b (sampleAt bytes p.1) acc p.2).1.now = acc.1.now := by simp only [trackTakes_same]
      rw [ih hd.2 hm _ ((trackTakes_other hp).trans hr), hnow]

/-! ### What follows the first pass leaves the computation (R58 to R62) -/

/-- The proving judgements touch no more of a track than its flags. -/
theorem provingJudged_core (old : Recs TrackRec) (b : Bank) (s : State) :
    cores sampleCore (provingJudged old b s).tracks = cores sampleCore s.tracks := by
  simp only [provingJudged, raiseAll_same]
  exact cores_map sampleCore s.tracks
    (fun n r => { r with exitSeen := exitSeenAfter old s.tracks (b.trackEntry n) n r,
                         unexpected := r.unexpected || unexpectedEntry old s.tracks (b.trackEntry n) n r })
    fun _ _ => rfl

/-- A clearing decision touches a track's state, timer and flags. -/
theorem clearingDecision_core (neighbours : Recs TrackRec) (b : Bank) (s : State) (t : Nat) :
    cores sampleCore (clearingDecision neighbours b s t).tracks = cores sampleCore s.tracks := by
  unfold clearingDecision
  split
  · split
    · exact cores_modify sampleCore s.tracks t cleared fun _ => rfl
    · simp only [raise_same]
      exact cores_modify sampleCore s.tracks t (fun r => { r with state := .suspect, timer := none }) fun _ => rfl
  · rfl

/-- The first pass leaves what its samples wrote. -/
theorem firstPass_core (b : Bank) (a : Nat) (bytes : List Byte) (s : State) :
    cores sampleCore (firstPass b a bytes s).1.tracks =
      cores sampleCore (trackTakesAll b bytes (b.assignedChannels a) (s, [])).1.tracks := by
  simp only [firstPass, tracksHanded_same, provingJudged_core, trackTakesAll]

theorem secondPass_core (b : Bank) (wanted : List Nat) (s : State) :
    cores sampleCore (secondPass b wanted s).tracks = cores sampleCore s.tracks := by
  simp only [secondPass, tracksHanded_same]
  exact foldl_rel (fun s t => cores sampleCore t.tracks = cores sampleCore s.tracks) (fun _ => rfl)
    (fun _ _ _ h h' => h'.trans h) _ (clearingDecision_core s.tracks b) wanted s

/-! ### The whole arrival -/

/-- LE's conclusion and DG's modes between the passes, and the end of the arrival, leave what the samples wrote (R39, R53). -/
theorem samplesTaken_core (b : Bank) (a : Nat) (bytes : List Byte) (old s : State) :
    cores sampleCore (concluded old (samplesTaken b a bytes s)).tracks =
      cores sampleCore (trackTakesAll b bytes (b.assignedChannels a) (s, [])).1.tracks := by
  simp only [samplesTaken, concluded, finishWith_same, secondPass_core, modesComputed]
  rw [← concludeLevers]
  simp only [concludeLevers_same, firstPass_core]

theorem exec_trackSample (dt : Time) (f : Frame) (s : State) :
    exec (.trackSample dt f) s = .next (frameArrival s dt 9 f) := by
  rfl

/-- A counted TRACK_SAMPLE leaves each of its tracks what the four steps made of the record that the track had. -/
theorem countedSample_core {s : State} {b : Bank} {f : Frame} {u : UnitRec} {ch n : Nat} {r : TrackRec}
    (h : Counted s b .tu 9 f u) (hd : ((b.assignedChannels (srcOf f)).map Prod.snd).Nodup)
    (hm : (ch, n) ∈ b.assignedChannels (srcOf f)) (hr : recAt s.tracks n = some r) (dt : Time) :
    ∃ t r', exec (.trackSample dt f) s = .next t ∧ recAt t.tracks n = some r' ∧
      sampleCore r' = sampleCore (computed (b.trackEntry n) (sampleAt f.payload ch) r) := by
  have hcore := cores_recAt (samplesTaken_core b (srcOf f) f.payload (s.advance dt)
    (reportCounted (loopHeard (s.advance dt)) b (srcOf f))) n
  rw [trackTakesAll_self hd hm _ (by simpa using hr), Option.map_some, sampleDecision_core] at hcore
  obtain ⟨r', hr', hr'core⟩ := Option.map_eq_some_iff.1 hcore
  refine ⟨_, r', ?_, hr', hr'core⟩
  rw [exec_trackSample, counted_arrival h rfl (.inl (by decide)), reportTaken]

/-- Settles O20: the arrival leaves what the four steps wrote, and each step is what R40 to R43 say. -/
theorem sampleComputation : Obligations.SampleComputation := by
  intro dt f s b u ch n r hcounted hd hm hr hs e x
  obtain ⟨t, r', hexec, hr', hcore⟩ := countedSample_core hcounted hd hm hr dt
  obtain ⟨hS, hq, hnoisy, hgood⟩ : r'.s = filtered r.s (ratio e x) e.k.toNat ∧ r'.q = ratio e x ∧
      r'.noisy = (if sampleNoisy e x then min 8 (r.noisy + 1) else 0) ∧
      r'.good = (if sampleNoisy e x || feedFailure e x then 0 else min 4 (r.good + 1)) := by
    simpa [sampleCore, computed] using hcore
  obtain ⟨hlow, hhigh⟩ := median_between x.v1 x.v2 x.v3
  have hqmax := ratio_le e x
  have hrises := fun h : r.s ≤ ratio e x => filtered_rises h e.k.toNat
  have hfalls := fun h : ratio e x < r.s => filtered_falls h e.k.toNat
  refine ⟨t, r', _, _, _, hexec, hr', median_perm x.v1 x.v2 x.v3, hlow, hhigh, ?_⟩
  rw [hS, hq]
  refine ⟨?noisyRun, ?ratio, filtered_eq_floor _ _ _, ?goodRun, hqmax, ?bound, hrises, hfalls⟩
  case noisyRun => simp [hnoisy, sampleNoisy, spread]
  case ratio => simp [ratio, feedFailure]
  case goodRun => simp [hgood, sampleNoisy, spread, feedFailure]
  case bound =>
    rcases le_or_gt r.s (ratio e x) with h | h
    · exact (hrises h).2.trans hqmax
    · exact (hfalls h).2.le.trans hs

end Sys2Proof.Machine
end

section
/-! PROOF. What the conditions of the locking table read (R88 to R93, R136): for each reading of the records what makes it
true, for each kind of pool entry the reading that it selects, and a list as the conditions of its range. -/

namespace Sys2Proof.Machine

/-! ### The levers' readings (R89, R90, R91) -/

theorem readsNormal_iff (l : LeverRec) :
    readsNormal l = true ↔ l.position = .normal ∧ l.violation = false ∧ l.approach = none := by
  simp [readsNormal, and_assoc]

theorem readsReverse_iff (l : LeverRec) :
    readsReverse l = true ↔ l.position = .reverse ∧ l.violation = false ∧ l.strokeLoss = false := by
  simp [readsReverse, and_assoc]

/-- NORMAL_IF for either end that an entry can name: with no violation on either lever the position of `x` decides, so that at the
named end LEVER_NORMAL is asked of `m`, at the other end nothing, and elsewhere the condition fails. -/
theorem readsNormalIf_iff (m x : LeverRec) {pos : Byte} (hpos : pos = 1 ∨ pos = 2) :
    readsNormalIf m x pos = true ↔ m.violation = false ∧ x.violation = false ∧
      ((x.position = (if pos = 1 then .normal else .reverse) ∧ readsNormal m = true) ∨
        x.position = if pos = 1 then .reverse else .normal) := by
  by_cases hv : m.violation = false ∧ x.violation = false
  · obtain ⟨hm, hx⟩ := hv
    rcases hpos with rfl | rfl <;> cases hp : x.position <;> simp [readsNormalIf, hm, hx, hp]
  · have hstands : (m.violation || x.violation) = true := by simpa [or_iff_not_imp_left] using hv
    rw [← and_assoc]
    simp [readsNormalIf, hstands, hv]

/-! ### The readings of tracks, lamps and sections (R92, R93, R136): each fails without a record -/

theorem trackClear_iff (s : State) (t : Nat) :
    trackClear s t = true ↔ ∃ r, recAt s.tracks t = some r ∧ r.state = .clear := by
  cases h : recAt s.tracks t <;> simp [trackClear, h]

theorem lampProven_iff (s : State) (p : Nat) :
    lampProven s p = true ↔ ∃ r, recAt s.lamps p = some r ∧ r.state = .lit := by
  cases h : recAt s.lamps p <;> simp [lampProven, h]

theorem direction_ne_inbound_iff (d : Direction) : d ≠ .inbound ↔ d = .outbound ∨ d = .single := by
  cases d <;> simp

theorem direction_ne_outbound_iff (d : Direction) : d ≠ .outbound ↔ d = .inbound ∨ d = .single := by
  cases d <;> simp

theorem sectionClearTest_iff (dir : Direction) (part : PartState) (link : Link) (obstructed : Bool) (r : SectionRec) :
    sectionClearTest dir part link obstructed r = true ↔ (dir = .outbound ∨ dir = .single) ∧ part = .running ∧ link = .up ∧
      r.far = .clear ∧ r.consumed = false ∧ obstructed = false ∧ (dir = .single → r.own = .blocked) := by
  rw [← direction_ne_inbound_iff]
  simp [sectionClearTest, and_assoc, imp_iff_not_or]

theorem sectionClear_iff (s : State) (b : Bank) (n : Nat) :
    sectionClear s b n = true ↔ ∃ r, recAt s.sections n = some r ∧
      sectionClearTest (b.sectionEntry n).dir s.part (s.line (b.sectionEntry n).lineOf).link
        (s.obstruction (b.sectionEntry n).lineOf) r = true := by
  cases h : recAt s.sections n <;> simp [sectionClear, h]

theorem sectionBlocked_iff (s : State) (b : Bank) (n : Nat) :
    sectionBlocked s b n = true ↔ ∃ r, recAt s.sections n = some r ∧
      ((b.sectionEntry n).dir = .inbound ∨ (b.sectionEntry n).dir = .single) ∧ r.own = .blocked := by
  rw [← direction_ne_outbound_iff]
  cases h : recAt s.sections n <;> simp [sectionBlocked, h]

/-! ### The reading that each kind of entry selects (R87) -/

section Kinds

variable {s : State} {b : Bank} {e : PoolEntry} {m x : LeverRec}

theorem conditionHolds_leverNormal (hk : e.kind = 1) (hm : recAt s.levers e.object.toNat = some m) :
    conditionHolds s b e = readsNormal m := by
  simp [conditionHolds, hk, hm]

theorem conditionHolds_leverReverse (hk : e.kind = 2) (hm : recAt s.levers e.object.toNat = some m) :
    conditionHolds s b e = readsReverse m := by
  simp [conditionHolds, hk, hm]

theorem conditionHolds_normalIf (hk : e.kind = 3) (hm : recAt s.levers e.object.toNat = some m)
    (hx : recAt s.levers e.second.toNat = some x) : conditionHolds s b e = readsNormalIf m x e.position := by
  simp [conditionHolds, hk, hm, hx]

theorem conditionHolds_trackClear (hk : e.kind = 4) : conditionHolds s b e = trackClear s e.object.toNat := by
  simp [conditionHolds, hk]

theorem conditionHolds_sectionClear (hk : e.kind = 5) : conditionHolds s b e = sectionClear s b e.object.toNat := by
  simp [conditionHolds, hk]

theorem conditionHolds_sectionBlocked (hk : e.kind = 6) : conditionHolds s b e = sectionBlocked s b e.object.toNat := by
  simp [conditionHolds, hk]

theorem conditionHolds_lampProven (hk : e.kind = 7) : conditionHolds s b e = lampProven s e.object.toNat := by
  simp [conditionHolds, hk]

end Kinds

/-! ### Lists (R88) -/

/-- A list reads every index from its start up to its start plus its count, and no other; with count 0 it holds. -/
theorem listHolds_iff (s : State) (b : Bank) (r : ListRange) :
    listHolds s b r = true ↔ ∀ i, r.start.toNat ≤ i → i < r.start.toNat + r.count.toNat →
      conditionHolds s b (b.pool.getD i default) = true := by
  simp only [listHolds, Bank.covered, List.all_map, List.all_eq_true, List.mem_range'_1, and_imp, Function.comp_apply]

/-- Settles O25: each kind of entry selects one reading, and each reading is what R89 to R93 and R136 say. -/
theorem conditionsRead : Obligations.ConditionsRead := by
  refine ⟨fun s b e m hm => ⟨?normal, ?reverse, ?normalIf⟩,
    fun s b e => ⟨?trackClear, ?sectionClear, ?sectionBlocked, ?lampProven, listHolds_iff s b⟩⟩
  case normal =>
    intro hk
    rw [conditionHolds_leverNormal hk hm, readsNormal_iff]
  case reverse =>
    intro hk
    rw [conditionHolds_leverReverse hk hm, readsReverse_iff]
  case normalIf =>
    intro hk hpos x hx
    rw [conditionHolds_normalIf hk hm hx, readsNormalIf_iff m x hpos, readsNormal_iff]
  case trackClear =>
    intro hk
    rw [conditionHolds_trackClear hk, trackClear_iff]
  case sectionClear =>
    intro hk
    simp only [conditionHolds_sectionClear hk, sectionClear_iff, sectionClearTest_iff]
  case sectionBlocked =>
    intro hk
    rw [conditionHolds_sectionBlocked hk, sectionBlocked_iff]
  case lampProven =>
    intro hk
    rw [conditionHolds_lampProven hk, lampProven_iff]

end Sys2Proof.Machine
end

section
/-! PROOF. Raised events as a list: `Raised s t new` follows the event queue through an arrival, event by event, and gives
`EventsJoined` (R178, R179). -/

namespace Sys2Proof.Machine

/-! ### The queue after a list of events -/

/-- An event of the list, as it stands in the queue. -/
def eventOf (now : Time) (x : EventKind × Nat × Nat) : Event :=
  { kind := x.1, object := x.2.1, detail := x.2.2, time := now, gap := false }

/-- The youngest entries of a queue, as many as it holds (R178). -/
def youngest (q : List Event) : List Event := q.drop (q.length - 64)

theorem youngest_append_of_youngest (q : List Event) (e : Event) : youngest (youngest q ++ [e]) = youngest (q ++ [e]) := by
  have hlen : ∀ k : List Event, (k ++ [e]).length = k.length + 1 := fun k => by simp
  unfold youngest
  rw [← List.drop_append_of_le_length (Nat.sub_le _ _), List.drop_drop, List.length_drop, hlen]
  exact congrArg (fun n => List.drop n (q ++ [e])) (by omega)

theorem youngest_append_ne_nil (q : List Event) (e : Event) : youngest (q ++ [e]) ≠ [] := by
  rw [youngest, Ne, List.drop_eq_nil_iff, List.length_append, List.length_singleton]
  omega

theorem map_ungapped_markGap (q : List Event) : (markGap q).map ungapped = q.map ungapped := by
  cases q <;> rfl

/-- Joining is the same with room and without: the youngest entries stay, and the gap flag is not looked at (R178). -/
theorem map_ungapped_joined (q : List Event) (e : Event) :
    (joined q e).map ungapped = youngest (q.map ungapped ++ [ungapped e]) := by
  have hlen : (q.map ungapped ++ [ungapped e]).length = q.length + 1 := by simp
  unfold joined youngest
  rw [hlen, Config.eventMax]
  by_cases hroom : q.length < 64
  · rw [if_pos hroom, Nat.sub_eq_zero_of_le hroom, List.drop_zero, List.map_append, List.map_singleton]
  · rw [if_neg hroom, map_ungapped_markGap, List.map_append, List.map_drop, List.map_singleton,
      List.drop_append_of_le_length (by rw [List.length_map]; omega)]

theorem queueWith_nil (q : List Event) (now : Time) : queueWith q now [] = q.map ungapped := rfl

theorem queueWith_of_ne_nil (q : List Event) (now : Time) {new : List (EventKind × Nat × Nat)} (h : new ≠ []) :
    queueWith q now new = youngest (q.map ungapped ++ new.map (eventOf now)) := if_neg h

/-- One more event after a list of events joins what the list has left. -/
theorem queueWith_concat (q : List Event) (now : Time) (new : List (EventKind × Nat × Nat)) (x : EventKind × Nat × Nat) :
    queueWith q now (new ++ [x]) = youngest (queueWith q now new ++ [eventOf now x]) := by
  rw [queueWith_of_ne_nil q now (by simp), List.map_append, List.map_singleton, ← List.append_assoc]
  by_cases h : new = []
  · simp [h, queueWith_nil]
  · rw [queueWith_of_ne_nil q now h, youngest_append_of_youngest]

theorem queueWith_ne_nil (q : List Event) (now : Time) {new : List (EventKind × Nat × Nat)} (h : new ≠ []) :
    queueWith q now new ≠ [] := by
  rw [← List.dropLast_append_getLast h, queueWith_concat]
  exact youngest_append_ne_nil _ _

/-! ### One event raised -/

theorem placeNotice_events (s : State) (a : Nat) :
    (placeNotice s a).events = s.events ∨
    24 ≤ s.outQueue.length ∧ (placeNotice s a).events = (joinEvent s .frameDropped a FrameKind.eventNotice.code).events := by
  unfold placeNotice
  split
  case isTrue => exact .inl (queueJoined_events _ _)
  case isFalse hfull => exact .inr ⟨by simpa [Config.outQueueMax] using hfull, rfl⟩

theorem map_ungapped_joinEvent (s : State) (k : EventKind) (o d : Nat) :
    (joinEvent s k o d).events.map ungapped = youngest (s.events.map ungapped ++ [eventOf s.now (k, o, d)]) :=
  map_ungapped_joined _ _

/-- A raised event joins the queue; where the queue was empty and the outbound queue full, the FRAME_DROPPED of its notice
may join behind it (R178, R179). -/
theorem raise_events (s : State) (k : EventKind) (o d : Nat) :
    (raise s k o d).events.map ungapped = youngest (s.events.map ungapped ++ [eventOf s.now (k, o, d)]) ∨
    s.events = [] ∧ 24 ≤ s.outQueue.length ∧ ∃ a, (raise s k o d).events.map ungapped =
      queueWith [] s.now [(k, o, d), (.frameDropped, a, FrameKind.eventNotice.code)] := by
  rw [← map_ungapped_joinEvent]
  unfold raise
  dsimp only
  split
  case isFalse => exact .inl rfl
  case isTrue hempty =>
    have hnil : s.events = [] := List.isEmpty_iff.1 hempty
    split
    case h_2 => exact .inl rfl
    case h_1 a _ =>
      rcases placeNotice_events (joinEvent s k o d) a with h | ⟨hfull, h⟩
      · exact .inl (congrArg _ h)
      · refine .inr ⟨hnil, hfull, a, ?_⟩
        rw [h, map_ungapped_joinEvent, map_ungapped_joinEvent, hnil,
          show ∀ x y : EventKind × Nat × Nat, [x, y] = ([] ++ [x]) ++ [y] from fun _ _ => rfl, queueWith_concat,
          queueWith_concat, queueWith_nil]
        rfl

/-! ### Events through an arrival -/

/-- Between `s` and `t` the events `new` joined the queue; while there are none, neither queue has moved, so that the first
finds them as they stood in `s` (R178, R179). -/
structure Raised (s t : State) (new : List (EventKind × Nat × Nat)) : Prop where
  joined : EventsJoined s t new
  untold : new = [] → t.events = s.events ∧ t.outQueue = s.outQueue

theorem Raised.of_same {s t : State} (he : t.events = s.events) (hq : t.outQueue = s.outQueue) : Raised s t [] :=
  ⟨.inl (by rw [he, queueWith_nil]), fun _ => ⟨he, hq⟩⟩

/-- What changes neither queue nor the time keeps the events that joined. -/
theorem Raised.congr {s t t' : State} {new : List (EventKind × Nat × Nat)} (h : Raised s t new)
    (he : t'.events = t.events) (hq : t'.outQueue = t.outQueue) (hnow : t'.now = t.now) : Raised s t' new := by
  refine ⟨?_, fun hn => ?_⟩
  · simpa only [EventsJoined, he, hnow] using h.joined
  · rw [he, hq]; exact h.untold hn

/-- After the first event the queue is not empty. -/
theorem Raised.events_ne_nil {s t : State} {new : List (EventKind × Nat × Nat)} (h : Raised s t new) (hn : new ≠ []) :
    t.events ≠ [] := by
  rw [Ne, ← List.map_eq_nil_iff (f := ungapped)]
  rcases h.joined with hq | ⟨_, _, first, rest, a, _, hq⟩
  · rw [hq]; exact queueWith_ne_nil _ _ hn
  · rw [hq]; exact queueWith_ne_nil _ _ (by simp)

/-- A further event joins the list. Only the first can find the queue empty, so only its notice can be dropped. -/
theorem Raised.raise {s t : State} {new : List (EventKind × Nat × Nat)} (h : Raised s t new) (x : EventKind × Nat × Nat) :
    Raised s (raise t x.1 x.2.1 x.2.2) (new ++ [x]) := by
  refine ⟨?_, fun hnil => absurd hnil (by simp)⟩
  have hnow : (Machine.raise t x.1 x.2.1 x.2.2).now = t.now := by simp only [raise_same]
  unfold EventsJoined
  rw [hnow]
  rcases raise_events t x.1 x.2.1 x.2.2 with hq | ⟨hempty, hfull, a, hq⟩
  · rw [hq]
    rcases h.joined with hj | ⟨hs, hout, first, rest, a, rfl, hj⟩
    · exact .inl (by rw [hj, queueWith_concat])
    · refine .inr ⟨hs, hout, first, rest ++ [x], a, rfl, ?_⟩
      rw [hj, ← queueWith_concat]
      rfl
  · have hnew : new = [] := by
      by_contra hne
      exact h.events_ne_nil hne hempty
    obtain ⟨he, ho⟩ := h.untold hnew
    subst hnew
    exact .inr ⟨he ▸ hempty, ho ▸ hfull, x, [], a, rfl, hq⟩

theorem Raised.raiseAll {s t : State} {new : List (EventKind × Nat × Nat)} (h : Raised s t new)
    (es : List (EventKind × Nat × Nat)) : Raised s (raiseAll t es) (new ++ es) := by
  induction es generalizing t new with
  | nil => simpa [Machine.raiseAll] using h
  | cons x es ih =>
    rw [← List.singleton_append, ← List.append_assoc]
    exact ih (h.raise x)

/-- The event of a valid frame's arrival: LOOP_RESTORED, where the loop was BROKEN (R16). -/
def loopEvents (s : State) : List (EventKind × Nat × Nat) := if s.loop = .broken then [(.loopRestored, 0, 0)] else []

theorem loopHeard_raised (s : State) : Raised s (loopHeard s) (loopEvents s) := by
  unfold loopHeard loopEvents watchRestarted
  cases hloop : s.loop
  case up => exact .of_same rfl rfl
  case broken =>
    have hstart : Raised s { s with watch := s.after Config.watchTime, loop := .up } [] := .of_same rfl rfl
    exact hstart.raise (.loopRestored, 0, 0)

end Sys2Proof.Machine
end

section
/-! PROOF. What a counted LAMP_REPORT does to one lamp, its record and its events (R148, R150), and, over the channels of the
report, that each lamp takes its own channel's current once and no other lamp is touched. -/

namespace Sys2Proof.Machine

/-! ### The alarm table (R150) -/

theorem alarmsJudged_iff (p : PartState) : alarmsJudged p = true ↔ p = .running ∨ p = .tripped := by
  simp [alarmsJudged]

theorem alarmStep_alarm (a : Alarm) (old new : LampState) :
    (alarmStep a old new).1 = match a with
      | .quiet => if old = .lit ∧ new ≠ .lit then .alarm else .quiet
      | .alarm => if old ≠ .lit ∧ new = .lit then .recovered else .alarm
      | .accepted => if old ≠ .lit ∧ new = .lit then .quiet else .accepted
      | .recovered => if old = .lit ∧ new ≠ .lit then .alarm else .recovered := by
  unfold alarmStep
  by_cases ho : old = .lit <;> by_cases hn : new = .lit <;> cases a <;> simp [ho, hn]

theorem alarmStep_tells_fault (a : Alarm) (old new : LampState) :
    (alarmStep a old new).2 = some .lampFault ↔ (old = .lit ∧ new ≠ .lit) ∧ (a = .quiet ∨ a = .recovered) := by
  unfold alarmStep
  by_cases ho : old = .lit <;> by_cases hn : new = .lit <;> cases a <;> simp [ho, hn]

theorem alarmStep_tells_recovered (a : Alarm) (old new : LampState) :
    (alarmStep a old new).2 = some .lampRecovered ↔ (old ≠ .lit ∧ new = .lit) ∧ (a = .alarm ∨ a = .accepted) := by
  unfold alarmStep
  by_cases ho : old = .lit <;> by_cases hn : new = .lit <;> cases a <;> simp [ho, hn]

/-! ### One lamp -/

/-- The classes by limits: below the open limit OUT, up to the short limit LIT, above it SHORT (R148). -/
theorem lampClass_eq (e : LampEntry) (current : Nat) :
    lampClass e current = if current < e.openLimit.toNat then .out
      else if current ≤ e.shortLimit.toNat then .lit else .short := by
  simp only [lampClass, ← Nat.not_le, ite_not]

/-- What a change of a lamp's state makes of its alarm, in a part state: the alarm, and the event (R150). -/
def alarmJudged (part : PartState) (r : LampRec) (new : LampState) : Alarm × Option EventKind :=
  if alarmsJudged part then alarmStep r.alarm r.state new else (r.alarm, none)

/-- A lamp's record after a counted report, its alarm included (R148, R150). -/
def lampTaken (part : PartState) (e : LampEntry) (current : Nat) (r : LampRec) : LampRec :=
  { lampReported e current r with alarm := (alarmJudged part r (lampReported e current r).state).1 }

/-- The event of an alarm, as a list of none or one: LAMP_FAULT with the lamp's state, any other with the alarm reached
(R150). -/
def alarmEvents (p : Nat) (new : LampRec) (k : Option EventKind) : List (EventKind × Nat × Nat) :=
  k.toList.map fun e => (e, p, if e = .lampFault then new.state.code else new.alarm.code)

theorem raiseAlarm_eq (s : State) (p : Nat) (new : LampRec) (k : Option EventKind) :
    raiseAlarm s p new.state new.alarm k = raiseAll s (alarmEvents p new k) := by
  cases k with
  | none => rfl
  | some e => cases e <;> rfl

theorem mem_alarmEvents {p n d : Nat} {new : LampRec} {e : EventKind} {k : Option EventKind} :
    (e, n, d) ∈ alarmEvents p new k ↔
      k = some e ∧ n = p ∧ d = if e = .lampFault then new.state.code else new.alarm.code := by
  cases k with
  | none => simp [alarmEvents]
  | some x =>
    simp only [alarmEvents, Option.toList_some, List.map_singleton, List.mem_singleton, Prod.mk.injEq, Option.some.injEq]
    constructor <;> (rintro ⟨rfl, rfl, rfl⟩; exact ⟨rfl, rfl, rfl⟩)

/-- The events of one lamp's report (R150). -/
def lampEvents (part : PartState) (e : LampEntry) (current : Nat) (r : LampRec) (p : Nat) : List (EventKind × Nat × Nat) :=
  alarmEvents p (lampTaken part e current r) (alarmJudged part r (lampTaken part e current r).state).2

theorem lampTakes_eq {s : State} {p : Nat} {r : LampRec} (hr : recAt s.lamps p = some r) (b : Bank) (current : Nat) :
    lampTakes s b p current =
      raiseAll (modifyLamp s p fun _ => lampTaken s.part (b.lampEntry p) current r)
        (lampEvents s.part (b.lampEntry p) current r p) := by
  rw [lampEvents, ← raiseAlarm_eq]
  simp only [lampTakes, changeLamp, hr]
  rfl

theorem lampTakes_none {s : State} {p : Nat} (hr : recAt s.lamps p = none) (b : Bank) (current : Nat) :
    lampTakes s b p current = s := by
  simp only [lampTakes, hr]

/-- A lamp's record after a counted report of a current for the lamp `p`. -/
theorem lampTakes_recAt (s : State) (b : Bank) (p current n : Nat) :
    recAt (lampTakes s b p current).lamps n =
      if n = p then (recAt s.lamps n).map (lampTaken s.part (b.lampEntry p) current) else recAt s.lamps n := by
  cases hr : recAt s.lamps p with
  | none =>
    rw [lampTakes_none hr]
    split
    case isTrue hn => rw [hn, hr, Option.map_none]
    case isFalse => rfl
  | some r =>
    simp only [lampTakes_eq hr, raiseAll_same, modifyLamp_lamps, recAt_modifyRec]
    split
    case isTrue hn => rw [hn, hr, Option.map_some, Option.map_some]
    case isFalse => rfl

/-- LAMP_FAULT says exactly that the fault condition appears while the alarm is QUIET or RECOVERED (R150). -/
theorem lampFault_mem_lampEvents {part : PartState} (hp : part = .running ∨ part = .tripped) (e : LampEntry)
    (current : Nat) (r : LampRec) (n d : Nat) :
    (EventKind.lampFault, n, d) ∈ lampEvents part e current r n ↔
      (r.state = .lit ∧ (lampTaken part e current r).state ≠ .lit) ∧ (r.alarm = .quiet ∨ r.alarm = .recovered) ∧
        d = (lampTaken part e current r).state.code := by
  rw [lampEvents, mem_alarmEvents, alarmJudged, if_pos ((alarmsJudged_iff part).2 hp), alarmStep_tells_fault]
  simp [and_assoc]

/-- LAMP_RECOVERED says exactly that the fault condition clears while the alarm is ALARM or ACCEPTED (R150). -/
theorem lampRecovered_mem_lampEvents {part : PartState} (hp : part = .running ∨ part = .tripped) (e : LampEntry)
    (current : Nat) (r : LampRec) (n d : Nat) :
    (EventKind.lampRecovered, n, d) ∈ lampEvents part e current r n ↔
      (r.state ≠ .lit ∧ (lampTaken part e current r).state = .lit) ∧ (r.alarm = .alarm ∨ r.alarm = .accepted) ∧
        d = (lampTaken part e current r).alarm.code := by
  rw [lampEvents, mem_alarmEvents, alarmJudged, if_pos ((alarmsJudged_iff part).2 hp), alarmStep_tells_recovered]
  simp [and_assoc]

/-- While the alarms are judged, a lamp's alarm follows the table of R150. -/
theorem lampTaken_alarm_judged {part : PartState} (hp : part = .running ∨ part = .tripped) (e : LampEntry) (current : Nat)
    (r : LampRec) : (lampTaken part e current r).alarm = (alarmStep r.alarm r.state (lampTaken part e current r).state).1 :=
  congrArg Prod.fst (if_pos ((alarmsJudged_iff part).2 hp))

/-- Outside RUNNING and TRIPPED a report leaves the alarm (R150). -/
theorem lampTaken_alarm_held {part : PartState} (hp : alarmsJudged part = false) (e : LampEntry) (current : Nat)
    (r : LampRec) : (lampTaken part e current r).alarm = r.alarm := by
  simp [lampTaken, alarmJudged, hp]

/-! ### The lamps of a report -/

/-- The currents of a list of channels, each taken by the lamp that its channel serves (R148). -/
def lampTakesAll (b : Bank) (bytes : List Byte) (l : List (Nat × Nat)) (s : State) : State :=
  l.foldl (fun s p => lampTakes s b p.2 (packed12 bytes p.1)) s

theorem lampsTaken_eq (b : Bank) (a : Nat) (bytes : List Byte) (s : State) :
    lampsTaken b a bytes s = lampTakesAll b bytes (b.assignedChannels a) s := rfl

theorem lampTakesAll_cons (b : Bank) (bytes : List Byte) (p : Nat × Nat) (l : List (Nat × Nat)) (s : State) :
    lampTakesAll b bytes (p :: l) s = lampTakesAll b bytes l (lampTakes s b p.2 (packed12 bytes p.1)) := rfl

/-- The currents of a list of channels leave a lamp that no channel of the list serves. -/
theorem lampTakesAll_other {b : Bank} {bytes : List Byte} {l : List (Nat × Nat)} {n : Nat} (hn : n ∉ l.map Prod.snd)
    (s : State) : recAt (lampTakesAll b bytes l s).lamps n = recAt s.lamps n := by
  induction l generalizing s with
  | nil => rfl
  | cons p l ih =>
    rw [List.map_cons, List.mem_cons, not_or] at hn
    rw [lampTakesAll_cons, ih hn.2, lampTakes_recAt, if_neg hn.1]

/-- Where the channels of a list serve distinct lamps, each of these takes its own channel's current, once. -/
theorem lampTakesAll_self {b : Bank} {bytes : List Byte} {l : List (Nat × Nat)} {ch n : Nat}
    (hd : (l.map Prod.snd).Nodup) (hm : (ch, n) ∈ l) (s : State) :
    recAt (lampTakesAll b bytes l s).lamps n =
      (recAt s.lamps n).map (lampTaken s.part (b.lampEntry n) (packed12 bytes ch)) := by
  induction l generalizing s with
  | nil => cases hm
  | cons p l ih =>
    rw [List.map_cons, List.nodup_cons] at hd
    rw [lampTakesAll_cons]
    rcases List.mem_cons.1 hm with rfl | hm
    · rw [lampTakesAll_other hd.1, lampTakes_recAt, if_pos rfl]
    · have hp : n ≠ p.2 := fun h => hd.1 (h ▸ List.mem_map_of_mem (f := Prod.snd) hm)
      have hpart : (lampTakes s b p.2 (packed12 bytes p.1)).part = s.part := by simp only [lampTakes_same]
      rw [ih hd.2 hm, lampTakes_recAt, if_neg hp, hpart]

/-- The events of one channel's current: those of its lamp, where it has a record. -/
def channelEvents (s : State) (b : Bank) (bytes : List Byte) (p : Nat × Nat) : List (EventKind × Nat × Nat) :=
  match recAt s.lamps p.2 with
  | some r => lampEvents s.part (b.lampEntry p.2) (packed12 bytes p.1) r p.2
  | none => []

theorem channelEvents_of_rec {s : State} {n : Nat} {r : LampRec} (hr : recAt s.lamps n = some r) (b : Bank)
    (bytes : List Byte) (ch : Nat) :
    channelEvents s b bytes (ch, n) = lampEvents s.part (b.lampEntry n) (packed12 bytes ch) r n := by
  simp only [channelEvents, hr]

/-- The events of a channel name its own lamp. -/
theorem channelEvents_object {s : State} {b : Bank} {bytes : List Byte} {p : Nat × Nat} {k : EventKind} {n d : Nat}
    (h : (k, n, d) ∈ channelEvents s b bytes p) : n = p.2 := by
  cases hr : recAt s.lamps p.2 with
  | none => simp [channelEvents, hr] at h
  | some r =>
    rw [channelEvents_of_rec hr, lampEvents, mem_alarmEvents] at h
    exact h.2.1

theorem lampTakes_raised {old s : State} {new : List (EventKind × Nat × Nat)} (h : Raised old s new) (b : Bank)
    (bytes : List Byte) (p : Nat × Nat) :
    Raised old (lampTakes s b p.2 (packed12 bytes p.1)) (new ++ channelEvents s b bytes p) := by
  cases hr : recAt s.lamps p.2 with
  | none => simpa [lampTakes_none hr, channelEvents, hr] using h
  | some r =>
    rw [lampTakes_eq hr, channelEvents_of_rec hr]
    exact (h.congr (by simp) (by simp) (by simp)).raiseAll _

/-- The events of a report are those of its channels, each on the record its lamp had before the report. -/
theorem lampTakesAll_raised {b : Bank} {bytes : List Byte} {l : List (Nat × Nat)} (hd : (l.map Prod.snd).Nodup)
    {old s : State} {new : List (EventKind × Nat × Nat)} (h : Raised old s new) :
    Raised old (lampTakesAll b bytes l s) (new ++ l.flatMap (channelEvents s b bytes)) := by
  induction l generalizing s new with
  | nil => simpa [lampTakesAll] using h
  | cons p l ih =>
    rw [List.map_cons, List.nodup_cons] at hd
    have hlater : l.flatMap (channelEvents (lampTakes s b p.2 (packed12 bytes p.1)) b bytes) =
        l.flatMap (channelEvents s b bytes) := by
      refine List.flatMap_congr fun q hq => ?_
      have hqp : q.2 ≠ p.2 := fun h => hd.1 (h ▸ List.mem_map_of_mem (f := Prod.snd) hq)
      simp only [channelEvents, lampTakes_recAt, if_neg hqp, lampTakes_same]
    rw [lampTakesAll_cons, List.flatMap_cons, ← List.append_assoc, ← hlater]
    exact ih hd.2 (lampTakes_raised h b bytes p)

/-- Where the channels serve distinct lamps, the events that name a lamp are those of its own channel. -/
theorem mem_flatMap_channelEvents {s : State} {b : Bank} {bytes : List Byte} {l : List (Nat × Nat)} {ch n : Nat}
    {r : LampRec} (hd : (l.map Prod.snd).Nodup) (hm : (ch, n) ∈ l) (hr : recAt s.lamps n = some r) (k : EventKind)
    (d : Nat) :
    (k, n, d) ∈ l.flatMap (channelEvents s b bytes) ↔
      (k, n, d) ∈ lampEvents s.part (b.lampEntry n) (packed12 bytes ch) r n := by
  rw [← channelEvents_of_rec hr, List.mem_flatMap]
  constructor
  · rintro ⟨p, hp, he⟩
    rwa [← List.inj_on_of_nodup_map hd hp hm (channelEvents_object he).symm]
  · exact fun he => ⟨_, hm, he⟩

/-- A report changes the lamps, and what its events change. -/
theorem lampTakesAll_form (b : Bank) (bytes : List Byte) (l : List (Nat × Nat)) (s : State) :
    ∃ ps, Told { s with lamps := ps } (lampTakesAll b bytes l s) := by
  refine foldl_rel (fun s t => ∃ ps, Told { s with lamps := ps } t) (fun s => ⟨s.lamps, .refl s⟩) ?trans _ ?step l s
  case trans =>
    rintro s t r ⟨_, _, _, _, _, _, rfl⟩ ⟨ps, _, _, _, _, _, rfl⟩
    exact ⟨ps, _, _, _, _, _, rfl⟩
  case step =>
    intro s p
    cases hr : recAt s.lamps p.2 with
    | none => exact ⟨s.lamps, by rw [lampTakes_none hr]; exact .refl s⟩
    | some r => exact ⟨_, by rw [lampTakes_eq hr]; exact raiseAll_form _ _⟩

/-! ### The whole arrival -/

theorem exec_lampReport (dt : Time) (f : Frame) (s : State) :
    exec (.lampReport dt f) s = .next (frameArrival s dt 10 f) := by
  rfl

/-- The state in which a counted report is taken: the loop has heard it, and its unit's report timer runs afresh (R15, R27). -/
def countedState (s : State) (b : Bank) (f : Frame) (dt : Time) : State :=
  reportCounted (loopHeard (s.advance dt)) b (srcOf f)

theorem countedState_eq (s : State) (b : Bank) (f : Frame) (dt : Time) :
    countedState s b f dt = { loopHeard (s.advance dt) with
      units := modifyRec s.units (srcOf f) fun v =>
        { v with report := some ((s.now + dt).plus ((b.rosterAt (srcOf f)).timeout.toNat * 10)) } } := by
  simp [countedState, reportCounted, modifyUnit, State.after, reportTimeout]

theorem countedState_raised (s : State) (b : Bank) (f : Frame) (dt : Time) :
    Raised (s.advance dt) (countedState s b f dt) (loopEvents (s.advance dt)) :=
  (loopHeard_raised (s.advance dt)).congr rfl rfl rfl

theorem countedState_lamps (s : State) (b : Bank) (f : Frame) (dt : Time) : (countedState s b f dt).lamps = s.lamps := by
  simp [countedState]

theorem countedState_part (s : State) (b : Bank) (f : Frame) (dt : Time) : (countedState s b f dt).part = s.part := by
  simp [countedState]

/-- The lamps that a counted LAMP_REPORT leaves, before the end of its arrival. -/
def reportedLamps (s : State) (b : Bank) (f : Frame) (dt : Time) : State :=
  lampTakesAll b f.payload (b.assignedChannels (srcOf f)) (countedState s b f dt)

theorem exec_countedLamps {s : State} {b : Bank} {f : Frame} {u : UnitRec} (h : Counted s b .lu 10 f u) (dt : Time) :
    exec (.lampReport dt f) s = .next (finish (s.advance dt) (reportedLamps s b f dt)) := by
  rw [exec_lampReport, counted_arrival h rfl (.inl (by decide)), reportTaken, lampsTaken_eq]
  rfl

theorem reportedLamps_part (s : State) (b : Bank) (f : Frame) (dt : Time) : (reportedLamps s b f dt).part = s.part := by
  rw [reportedLamps, ← lampsTaken_eq]
  simp only [lampsTaken_same, countedState_part]

/-- LOOP_RESTORED apart, the events of the arrival's own changes are those of the lamps. -/
theorem mem_loopEvents_append {s : State} {k : EventKind} (hk : k ≠ .loopRestored) (n d : Nat)
    (es : List (EventKind × Nat × Nat)) : (k, n, d) ∈ loopEvents s ++ es ↔ (k, n, d) ∈ es := by
  unfold loopEvents
  split <;> simp [hk]

/-- A lamp of the report after the arrival: its record but for the alarm, and the alarm too unless STARTING may have ended. -/
theorem reportedLamps_recAt {s : State} {b : Bank} {f : Frame} {ch n : Nat} {r : LampRec} {dt : Time} {t : State}
    (hd : ((b.assignedChannels (srcOf f)).map Prod.snd).Nodup) (hm : (ch, n) ∈ b.assignedChannels (srcOf f))
    (hr : recAt s.lamps n = some r) (ht : Concluded (reportedLamps s b f dt) t) :
    let taken := lampTaken s.part (b.lampEntry n) (packed12 f.payload ch) r
    ∃ r', recAt t.lamps n = some r' ∧ r'.state = taken.state ∧ r'.last = taken.last ∧ r'.current = taken.current ∧
      (s.part ≠ .starting → r' = taken) := by
  intro taken
  have hx : recAt (reportedLamps s b f dt).lamps n = some taken := by
    rw [reportedLamps, lampTakesAll_self hd hm, countedState_lamps, countedState_part, hr, Option.map_some]
  obtain ⟨r', hr', hstate, hlast, hcurrent⟩ := ht.lamp hx
  refine ⟨r', hr', hstate, hlast, hcurrent, fun hp => ?_⟩
  rw [(ht.steady (by rwa [reportedLamps_part])).2.2, hx] at hr'
  exact (Option.some.inj hr').symm

/-- Settles O27: each lamp of the report takes its own current by the two-report rule, its alarm and its events follow the
table of R150, and the end of the arrival leaves them. -/
theorem lampReportIsClassed : Obligations.LampReportIsClassed := by
  intro dt f s b u hcounted hd
  have hconc : Concluded (reportedLamps s b f dt) (finish (s.advance dt) (reportedLamps s b f dt)) := finish_concluded _ _
  refine ⟨reportedLamps s b f dt, _, _, exec_countedLamps hcounted dt,
    (lampTakesAll_raised hd (countedState_raised s b f dt)).joined, rfl, hconc, ?served, ?others, ?rest⟩
  case served =>
    intro ch n r hm hr current e cls
    have hcls : lampClass e current = cls := lampClass_eq e current
    obtain ⟨r', hr', hstate, hlast, hcurrent, htaken⟩ := reportedLamps_recAt hd hm hr hconc
    have htells := mem_flatMap_channelEvents (b := b) (bytes := f.payload) hd hm
      ((congrArg (recAt · n) (countedState_lamps s b f dt)).trans hr)
    rw [countedState_part] at htells
    refine ⟨r', hr', hcls ▸ hlast, hcurrent, hcls ▸ hstate, fun hp => ?held, fun hp => ?judged⟩
    case held =>
      rw [htaken (by simp [hp]), lampTaken_alarm_held (by simp [alarmsJudged, hp])]
    case judged =>
      obtain rfl := htaken (by rcases hp with hp | hp <;> simp [hp])
      refine ⟨fun d => ?_, fun d => ?_, (lampTaken_alarm_judged hp _ _ _).trans (alarmStep_alarm _ _ _)⟩
      · rw [mem_loopEvents_append (by decide), htells, lampFault_mem_lampEvents hp]
      · rw [mem_loopEvents_append (by decide), htells, lampRecovered_mem_lampEvents hp]
  case others =>
    intro n r hn hr
    have hx : recAt (reportedLamps s b f dt).lamps n = some r := by
      rw [reportedLamps, lampTakesAll_other hn, countedState_lamps, hr]
    obtain ⟨r', hr', hstate, hlast, hcurrent⟩ := hconc.lamp hx
    exact ⟨r', hr', by rw [← hstate, ← hlast, ← hcurrent]⟩
  case rest =>
    obtain ⟨ps, v, q, n, y, p, hx⟩ := lampTakesAll_form b f.payload (b.assignedChannels (srcOf f)) (countedState s b f dt)
    refine ⟨ps, v, q, n, y, p, ?_⟩
    rw [reportedLamps, hx, countedState_eq]

end Sys2Proof.Machine
end

section
/-! PROOF. What a command comes to: a reset, nothing while the part is held in reset, or an arrival's effect on the state in
which its time has passed. The queue of commands, the resets and the idle timers follow from the list of effects. -/

namespace Sys2Proof.Machine

/-! ### The effects of arrivals -/

/-- The state `t` is what an arrival that is no reset makes of `s`, in which its time has passed. -/
inductive Arrives (s : State) : State → Prop
  | frame (key : Option Bool) (kind : Byte) (f : Frame) : Arrives s (frameArrives (s.sampled key) kind f)
  | idlePattern : Arrives s (watchRestarted s)
  | watchTimer : Arrives s (watchExpires s)
  | returnTimer (q : Byte) : Arrives s (returnExpires q s)
  | refreshTimer (a : Nat) : Arrives s (refreshExpires a s)
  | frameSent : Arrives s (frameLeaves s)
  | hold : Arrives s (holdExpires s)
  | probeWindow (a : Nat) : Arrives s (probeExpires a s)
  | reprobe (a : Nat) : Arrives s (reprobeExpires a s)
  | report (a : Nat) : Arrives s (reportExpires a s)
  | pickUp (n : Nat) : Arrives s (pickUpExpires n s)
  | approach (n : Nat) : Arrives s (approachExpires n s)
  | character (l : Line) (markBefore : Bool) (x : LineSamples) : Arrives s (lineReads l markBefore x s)
  | message (l : Line) (m : LineMsg) : Arrives s (finish s (messageReceived s l m))
  | gap (l : Line) : Arrives s (gapExpires l s)
  | linkTimer (l : Line) : Arrives s (linkExpires l s)
  | statusTimer (l : Line) : Arrives s (statusExpires l s)
  | messageSent (l : Line) : Arrives s (messageLeaves l s)
  | breakEnd (l : Line) : Arrives s (breakEnds l s)
  | idleEnd (l : Line) : Arrives s (idleEnds l s)
  | endTimer (n : Nat) (x : Side) : Arrives s (codeEnds n x s)
  | repetition (n : Nat) : Arrives s (repetitionExpires n s)
  | startTimer : Arrives s (startExpires s)
  | comparison : Arrives s (if comparisonDue s then finish s (startupCompared s) else s)
  | storeEnd (equal : Bool) : Arrives s (storeEnds equal s)

/-- An arrival's effect takes place unless the part is held in reset (R175). -/
theorem arrival_arrives (s : State) (dt : Time) (e : State → State) (he : ∀ x, Arrives x (e x)) :
    (s.inReset = true ∧ arrival s dt e = s) ∨ (s.inReset = false ∧ ∃ dt', Arrives (s.advance dt') (arrival s dt e)) := by
  cases h : s.inReset with
  | true => exact .inl ⟨rfl, arrival_held h dt e⟩
  | false => exact .inr ⟨rfl, dt, arrival_awake h dt e ▸ he _⟩

theorem Arrives.unsampled (s : State) (kind : Byte) (f : Frame) : Arrives s (frameArrives s kind f) :=
  have h : s.sampled none = s := rfl
  h ▸ .frame none kind f

theorem frameArrival_arrives (s : State) (dt : Time) (kind : Byte) (f : Frame) :
    (s.inReset = true ∧ frameArrival s dt kind f = s) ∨
    (s.inReset = false ∧ ∃ dt', Arrives (s.advance dt') (frameArrival s dt kind f)) :=
  arrival_arrives s dt (fun t => frameArrives t kind f) fun x => .unsampled x kind f

theorem requestArrival_arrives (s : State) (dt : Time) (key : Option Bool) (code : Byte) (r : RequestFrame) :
    (s.inReset = true ∧ requestArrival s dt key code r = s) ∨
    (s.inReset = false ∧ ∃ dt', Arrives (s.advance dt') (requestArrival s dt key code r)) :=
  arrival_arrives s dt (fun t => frameArrives (t.sampled key) 14 (requestFrame code r)) fun _ => .frame key 14 _

/-- A command that is no reset completes: with nothing while the part is held in reset, else with an arrival's effect. -/
theorem exec_arrives (c : Instr) (s : State) (hc : isReset c = false) :
    ∃ t, exec c s = .next t ∧ ((s.inReset = true ∧ t = s) ∨ (s.inReset = false ∧ ∃ dt, Arrives (s.advance dt) t)) := by
  cases c with
  | powerReset | resetPinAsserted | resetPinReleased | restartReset => cases hc
  | ret | leverReport | trackSample | lampReport | instrReport | diagReport | ident | badRequest | discardedValidFrame =>
    exact ⟨_, rfl, frameArrival_arrives ..⟩
  | readRecord | loadTable | copyBank | checkBank | switchBank | restoreTrack | clearViolation | blockRelease | ackAlarms
  | setGroupIntensity | reprobeUnit | readEvents | restart =>
    exact ⟨_, rfl, requestArrival_arrives ..⟩
  | idlePatternArrival dt => exact ⟨_, rfl, arrival_arrives s dt _ fun _ => .idlePattern⟩
  | loopWatchTimerExpiry dt => exact ⟨_, rfl, arrival_arrives s dt _ fun _ => .watchTimer⟩
  | returnTimerExpiry dt q => exact ⟨_, rfl, arrival_arrives s dt _ fun _ => .returnTimer q⟩
  | refreshTimerExpiry dt a => exact ⟨_, rfl, arrival_arrives s dt _ fun _ => .refreshTimer a⟩
  | frameSent dt => exact ⟨_, rfl, arrival_arrives s dt _ fun _ => .frameSent⟩
  | transmitHoldExpiry dt => exact ⟨_, rfl, arrival_arrives s dt _ fun _ => .hold⟩
  | probeWindowExpiry dt a => exact ⟨_, rfl, arrival_arrives s dt _ fun _ => .probeWindow a⟩
  | reProbeTimerExpiry dt a => exact ⟨_, rfl, arrival_arrives s dt _ fun _ => .reprobe a⟩
  | reportTimerExpiry dt a => exact ⟨_, rfl, arrival_arrives s dt _ fun _ => .report a⟩
  | pickUpTimerExpiry dt n => exact ⟨_, rfl, arrival_arrives s dt _ fun _ => .pickUp n⟩
  | approachTimerExpiry dt n => exact ⟨_, rfl, arrival_arrives s dt _ fun _ => .approach n⟩
  | lineCharacter dt l markBefore x => exact ⟨_, rfl, arrival_arrives s dt _ fun _ => .character l markBefore x⟩
  | strokeMessage dt l ch => exact ⟨_, rfl, arrival_arrives s dt _ fun _ => .message l _⟩
  | instrMessage dt l ch x => exact ⟨_, rfl, arrival_arrives s dt _ fun _ => .message l _⟩
  | statusMessage dt l x y => exact ⟨_, rfl, arrival_arrives s dt _ fun _ => .message l _⟩
  | gapTimerExpiry dt l => exact ⟨_, rfl, arrival_arrives s dt _ fun _ => .gap l⟩
  | linkTimerExpiry dt l => exact ⟨_, rfl, arrival_arrives s dt _ fun _ => .linkTimer l⟩
  | statusTimerExpiry dt l => exact ⟨_, rfl, arrival_arrives s dt _ fun _ => .statusTimer l⟩
  | lineMessageSent dt l => exact ⟨_, rfl, arrival_arrives s dt _ fun _ => .messageSent l⟩
  | sendingBreakEnd dt l => exact ⟨_, rfl, arrival_arrives s dt _ fun _ => .breakEnd l⟩
  | sendingIdleEnd dt l => exact ⟨_, rfl, arrival_arrives s dt _ fun _ => .idleEnd l⟩
  | endTimerExpiry dt n x => exact ⟨_, rfl, arrival_arrives s dt _ fun _ => .endTimer n x⟩
  | repetitionTimerExpiry dt n => exact ⟨_, rfl, arrival_arrives s dt _ fun _ => .repetition n⟩
  | startTimerExpiry dt => exact ⟨_, rfl, arrival_arrives s dt _ fun _ => .startTimer⟩
  | startupCrcCheck dt => exact ⟨_, rfl, arrival_arrives s dt _ fun _ => .comparison⟩
  | storeOperationEnd dt equal => exact ⟨_, rfl, arrival_arrives s dt _ fun _ => .storeEnd equal⟩

/-- A reset completes: with the state after a reset, or with nothing where it is not due (R172, R175). -/
theorem exec_reset (c : Instr) (s : State) (hc : isReset c = true) :
    ∃ t, exec c s = .next t ∧ (t = s ∨ ∃ k held, t = resetTo k held s) := by
  cases c with
  | powerReset | resetPinAsserted => exact ⟨_, rfl, .inr ⟨_, _, rfl⟩⟩
  | resetPinReleased | restartReset => refine ⟨_, rfl, ?_⟩; split; exacts [.inr ⟨_, _, rfl⟩, .inl rfl]
  | _ => cases hc

/-- What every step keeps: a property of states that each reset and each arrival keeps holds after every command. -/
theorem exec_keeps {P : State → Prop} (hreset : ∀ k held s, P s → P (resetTo k held s))
    (hadvance : ∀ s dt, P s → P (s.advance dt)) (harrives : ∀ s t, P s → Arrives s t → P t)
    {c : Instr} {s t : State} (h : exec c s = .next t) (hs : P s) : P t := by
  cases hc : isReset c with
  | true =>
    obtain ⟨t', ht', rfl | ⟨k, held, rfl⟩⟩ := exec_reset c s hc
    · cases h.symm.trans ht'; exact hs
    · cases h.symm.trans ht'; exact hreset k held s hs
  | false =>
    obtain ⟨t', ht', ⟨-, rfl⟩ | ⟨-, dt, ha⟩⟩ := exec_arrives c s hc
    · cases h.symm.trans ht'; exact hs
    · cases h.symm.trans ht'; exact harrives _ _ (hadvance s dt hs) ha

/-- What every command keeps, every step keeps, the queue of the waiting commands being no matter. -/
theorem step_keeps {P : State → Prop} (hpending : ∀ (s : State) q, P s → P { s with pending := q })
    (hexec : ∀ c s t, exec c s = .next t → P s → P t) {s t : State} (h : step s = .next t) (hs : P s) : P t := by
  unfold step at h
  split at h
  · cases h; exact hs
  · exact hexec _ _ _ h (hpending s _ hs)

/-! ### The queue of commands -/

/-- Settles O1. -/
theorem stepRunsFrontCommand : Obligations.StepRunsFrontCommand :=
  ⟨fun c rest s h => by unfold step; rw [h], fun s h => by unfold step; rw [h]⟩

end Sys2Proof.Machine
end

section
/-! PROOF. Changes of the state that no record of a block shows: the queues, the timers of the loop, the probe windows. What
raises an event, places a frame of class 4 or lets an arbiter apply is such a change, and keeps every queue within its capacity
(R8, R12, R113, R178). -/

namespace Sys2Proof.Machine

/-! ### Hushed changes -/

/-- `t` is `s` but for queues, timers of the loop and its units, and the marks of the maintenance handler: every record that
another block reads is kept, a unit's state and a line's link among them. -/
structure Hushed (s t : State) : Prop where
  rest : t = { s with
    now := t.now, key := t.key, outQueue := t.outQueue, seq := t.seq, sending := t.sending, txHold := t.txHold,
    pendingReturns := t.pendingReturns, lossMarks := t.lossMarks, refresh := t.refresh, loop := t.loop, watch := t.watch,
    units := t.units, lineA := t.lineA, lineB := t.lineB, shadow := t.shadow, check := t.check, restartDue := t.restartDue,
    lastRequester := t.lastRequester, events := t.events }
  units : cores UnitRec.state t.units = cores UnitRec.state s.units
  lines : ∀ l, (t.line l).link = (s.line l).link
  capacities : Capacities s → Capacities t

theorem Hushed.refl (s : State) : Hushed s s := ⟨rfl, rfl, fun _ => rfl, id⟩

theorem Hushed.trans {s t r : State} (h : Hushed s t) (h' : Hushed t r) : Hushed s r where
  rest := by rw [h'.rest, h.rest]
  units := h'.units.trans h.units
  lines := fun l => (h'.lines l).trans (h.lines l)
  capacities := h'.capacities ∘ h.capacities

/-- What a hushed change keeps, field by field. -/
theorem Hushed.same {s t : State} (h : Hushed s t) :
    t.pending = s.pending ∧ t.inReset = s.inReset ∧ t.tracks = s.tracks ∧ t.levers = s.levers ∧ t.incoming = s.incoming ∧
    t.here = s.here ∧ t.exchanges = s.exchanges ∧ t.obstructionA = s.obstructionA ∧ t.obstructionB = s.obstructionB ∧
    t.sections = s.sections ∧ t.lamps = s.lamps ∧ t.outputs = s.outputs ∧ t.groupLive = s.groupLive ∧ t.stored = s.stored ∧
    t.active = s.active ∧ t.storeOp = s.storeOp ∧ t.switchHeld = s.switchHeld ∧ t.part = s.part ∧ t.resetKind = s.resetKind ∧
    t.startTimer = s.startTimer ∧ t.trip = s.trip ∧ t.freeCount = s.freeCount := by
  rw [h.rest]; and_intros <;> rfl

theorem Hushed.foldl {α : Type} {f : State → α → State} (hf : ∀ s x, Hushed s (f s x)) (l : List α) (s : State) :
    Hushed s (l.foldl f s) :=
  foldl_rel Hushed .refl (fun _ _ _ => .trans) f hf l s

/-- A change of fields that neither hold a queue nor a record. -/
theorem Hushed.of_fields (s : State) (now : Time) (key : Bool) (seq : Byte) (sending : Option Sending) (hold : Option Time)
    (marks : List Nat) (refresh : Recs Time) (loop : LoopState) (watch : Time) (shadow : Bank) (check : CheckState)
    (due : Bool) (requester : Option Nat) :
    Hushed s { s with now := now, key := key, seq := seq, sending := sending, txHold := hold, lossMarks := marks,
                      refresh := refresh, loop := loop, watch := watch, shadow := shadow, check := check, restartDue := due,
                      lastRequester := requester } :=
  ⟨rfl, rfl, fun l => by cases l <;> rfl, id⟩

theorem Hushed.advance (s : State) (dt : Time) : Hushed s (s.advance dt) := ⟨rfl, rfl, fun l => by cases l <;> rfl, id⟩

theorem Hushed.warp (s : State) (t : Time) : Hushed s (s.warp t) := by
  unfold State.warp
  split
  · exact ⟨rfl, rfl, fun l => by cases l <;> rfl, id⟩
  · exact .refl s

/-- The pending-return list may change while it keeps its length. -/
theorem Hushed.pendingReturns (s : State) {p : List PendingReturn} (hp : p.length ≤ s.pendingReturns.length) :
    Hushed s { s with pendingReturns := p } :=
  ⟨rfl, rfl, fun l => by cases l <;> rfl, fun ⟨hq, hr, h⟩ => ⟨hq, hp.trans hr, h⟩⟩

/-- A unit's record may change but for its state. -/
theorem Hushed.modifyUnit (s : State) (a : Nat) {f : UnitRec → UnitRec} (hf : ∀ u, (f u).state = u.state) :
    Hushed s (modifyUnit s a f) :=
  ⟨rfl, cores_modify _ _ _ _ hf, fun l => by cases l <;> rfl, id⟩

/-- A line's record may change but for its link, its queue growing no longer than it may. -/
theorem Hushed.modifyLine (s : State) (l : Line) {f : LineRec → LineRec} (hlink : (f (s.line l)).link = (s.line l).link)
    (hq : (s.line l).queue.length ≤ 16 → (f (s.line l)).queue.length ≤ 16) : Hushed s (modifyLine s l f) := by
  cases l
  · exact ⟨rfl, rfl, fun m => by cases m <;> [exact hlink; rfl], fun ⟨h1, h2, h3, h4, h5⟩ => ⟨h1, h2, h3, hq h4, h5⟩⟩
  · exact ⟨rfl, rfl, fun m => by cases m <;> [rfl; exact hlink], fun ⟨h1, h2, h3, h4, h5⟩ => ⟨h1, h2, h3, h4, hq h5⟩⟩

/-! ### Events and frames of class 4 -/

theorem Told.hushed {s t : State} (h : Told s t) (hw : Within s → Within t) : Hushed s t := by
  obtain ⟨e, q, n, x, p, rfl⟩ := h
  refine ⟨rfl, rfl, fun l => by cases l <;> rfl, fun ⟨hq, hp, he, hl⟩ => ?_⟩
  obtain ⟨he', hq', hp'⟩ := hw ⟨he, hq, hp⟩
  exact ⟨hq', hp', he', hl⟩

theorem raise_hushed (s : State) (k : EventKind) (o d : Nat) : Hushed s (raise s k o d) :=
  (raise_form s k o d).hushed (raise_within s k o d)

theorem raiseAll_hushed (s : State) (es : List (EventKind × Nat × Nat)) : Hushed s (raiseAll s es) :=
  .foldl (fun s _ => raise_hushed s _ _ _) es s

/-! ### The arbiters -/

theorem startWindow_state (e : Time) (u : UnitRec) : (startWindow e u).state = u.state := by
  unfold startWindow; split <;> rfl

theorem restartWindow_state (e : Time) (u : UnitRec) : (restartWindow e u).state = u.state := by
  unfold restartWindow; split <;> rfl

/-- The taking of a frame keeps the units' states: of a probed one the window starts (R22). -/
theorem takeFrame_unitStates (s : State) (f : OutFrame) (rest : List OutFrame) :
    cores UnitRec.state (takeFrame s f rest).units = cores UnitRec.state s.units := by
  have hrefresh : ∀ x k a, (restartRefresh x k a).units = x.units := fun x k a => by
    obtain ⟨r, hr⟩ := restartRefresh_form x k a
    rw [hr]
  unfold takeFrame
  dsimp only
  rw [hrefresh]
  split
  · exact cores_modify _ _ _ _ (startWindow_state _)
  · rfl

theorem arbiter_unitStates (s : State) : cores UnitRec.state (arbiter s).units = cores UnitRec.state s.units := by
  unfold arbiter
  split
  · split
    · exact takeFrame_unitStates s _ _
    · rfl
  · rfl

theorem arbiter_hushed (s : State) : Hushed s (arbiter s) := by
  have hunits := arbiter_unitStates s
  have hlengths := arbiter_lengths s
  obtain ⟨q, n, x, p, u, r, h⟩ := arbiter_form s
  rw [h] at hunits hlengths ⊢
  exact ⟨rfl, hunits, fun l => by cases l <;> rfl, fun ⟨hq, hp, hl⟩ => ⟨(hlengths hq hp).1, (hlengths hq hp).2, hl⟩⟩

/-- An outbound queue of no more than 24 frames may take the place of the present one. -/
theorem Hushed.outQueue (s : State) {q : List OutFrame} (hq : s.outQueue.length ≤ 24 → q.length ≤ 24) :
    Hushed s { s with outQueue := q } :=
  ⟨rfl, rfl, fun l => by cases l <;> rfl, fun ⟨h, h'⟩ => ⟨hq h, h'⟩⟩

theorem queueJoined_hushed (s : State) {q : List OutFrame} (hq : s.outQueue.length ≤ 24 → q.length ≤ 24) :
    Hushed s (queueJoined s q) := by
  unfold queueJoined
  dsimp only
  split
  · exact (Hushed.outQueue s hq).trans (arbiter_hushed _)
  · exact .outQueue s hq

theorem entriesLeave_hushed (s : State) {kept : List PendingReturn} (hk : kept.length ≤ s.pendingReturns.length) :
    Hushed s (entriesLeave s kept) := by
  unfold entriesLeave
  dsimp only
  split
  · exact .pendingReturns s hk
  · exact (Hushed.pendingReturns s hk).trans (arbiter_hushed _)

theorem eraseP_find_length {α : Type} {p : α → Bool} {q : List α} {m : α} (h : q.find? p = some m) :
    (q.eraseP p).length + 1 = q.length := by
  have hm : q.any p = true := List.any_eq_true.2 ⟨m, List.mem_of_find?_eq_some h, List.find?_some h⟩
  have hpos : 0 < q.length := List.length_pos_of_mem (List.mem_of_find?_eq_some h)
  have := List.length_eraseP (p := p) (l := q)
  rw [if_pos hm] at this
  omega

theorem takeMessage_length {q rest : List LineMsg} {m : LineMsg} (h : takeMessage q = some (m, rest)) :
    rest.length + 1 = q.length := by
  have hfirst : ∀ p : LineMsg → Bool, (q.find? p).map (fun m => (m, q.eraseP p)) = some (m, rest) →
      rest.length + 1 = q.length := by
    intro p hp
    obtain ⟨x, hx, hxm⟩ := Option.map_eq_some_iff.1 hp
    cases hxm
    exact eraseP_find_length hx
  unfold takeMessage at h
  dsimp only at h
  split at h
  case h_1 hs => exact hfirst _ (hs.trans h)
  case h_2 =>
    split at h
    case h_1 hs => exact hfirst _ (hs.trans h)
    case h_2 => exact hfirst _ h

theorem lineArbiter_length (r : LineRec) : r.arbiter.queue.length ≤ r.queue.length := by
  unfold LineRec.arbiter
  split
  · split
    case h_1 hm => exact Nat.le_of_succ_le (takeMessage_length hm).le
    case h_2 => exact le_rfl
  · exact le_rfl

theorem lineArbiter_hushed (s : State) (l : Line) : Hushed s (modifyLine s l LineRec.arbiter) :=
  .modifyLine s l (by simp) fun h => (lineArbiter_length _).trans h

theorem arbiters_hushed (s : State) : Hushed s (arbiters s) :=
  (arbiter_hushed s).trans ((lineArbiter_hushed (arbiter s) .a).trans (lineArbiter_hushed _ .b))

/-! ### Placing -/

theorem takeYoungestStroke_length {q kept : List LineMsg} {c : Nat} (h : takeYoungestStroke q = some (c, kept)) :
    kept.length + 1 = q.length := by
  induction q generalizing kept with
  | nil => cases h
  | cons m rest ih =>
    unfold takeYoungestStroke at h
    split at h
    case h_1 hr => cases h; simpa using ih hr
    case h_2 =>
      split at h
      · cases h; rfl
      · cases h

theorem lineJoin_length (link : Link) (q : List LineMsg) (m : LineMsg) (h : q.length ≤ 16) :
    (lineJoin link q m).1.length ≤ 16 := by
  have hjoin : q.length < 16 → (q ++ [m]).length ≤ 16 := fun hroom => by simp; omega
  unfold lineJoin
  split
  case h_1 =>
    split
    case isTrue hroom =>
      simp only [Bool.and_eq_true, decide_eq_true_eq] at hroom
      exact hjoin hroom.2
    case isFalse => exact h
  case h_2 =>
    split
    · simpa using h
    · split
      case isTrue hroom => exact hjoin hroom
      case isFalse =>
        split
        case h_1 hs =>
          have := takeYoungestStroke_length hs
          simp; omega
        case h_2 => exact h

theorem placeLine_hushed (s : State) (l : Line) (m : LineMsg) : Hushed s (placeLine s l m) := by
  have hq : Hushed s (modifyLine s l fun x => { x with queue := (lineJoin (s.line l).link (s.line l).queue m).1 }) :=
    .modifyLine s l rfl (lineJoin_length _ _ m)
  unfold placeLine
  dsimp only
  split
  · exact hq.trans (raise_hushed _ _ _ _)
  · exact hq

/-- Placing keeps every queue within its capacity, whatever it drops. -/
theorem windowEnd_capacities {g : State → OutFrame → State} (hg : ∀ s f, Capacities s → Capacities (g s f)) (s : State)
    (a : Nat) (h : Capacities s) : Capacities (windowEnd g s a) := by
  unfold windowEnd
  split
  · split
    · split
      · exact hg _ _ h
      · exact (raise_hushed _ _ _ _).capacities h
    · exact h
    · exact h
  · exact h

theorem placeFuel_capacities (n : Nat) (s : State) (f : OutFrame) (h : Capacities s) : Capacities (placeFuel n s f) := by
  induction n generalizing s f with
  | zero =>
    have hq := (queueJoined_hushed s (q := (queueJoin s.outQueue f).1) fun h => queueJoin_length _ f h).capacities h
    unfold placeFuel
    dsimp only
    split
    · exact hq
    · split <;> exact (raise_hushed _ _ _ _).capacities hq
  | succ k ih =>
    have hq := (queueJoined_hushed s (q := (queueJoin s.outQueue f).1) fun h => queueJoin_length _ f h).capacities h
    unfold placeFuel
    dsimp only
    split
    · exact hq
    · split
      · exact windowEnd_capacities (fun s f => ih s f) _ _ ((raise_hushed _ _ _ _).capacities hq)
      · exact (raise_hushed _ _ _ _).capacities hq

theorem place_capacities (s : State) (f : OutFrame) (h : Capacities s) : Capacities (place s f) :=
  placeFuel_capacities 3 s f h

/-- A frame of class 3 or 4 that is no probe, dropped or not, ends no probe window (R9). -/
theorem place_hushed (s : State) {f : OutFrame} (hc : 3 ≤ f.kind.cls) (hk : f.kind ≠ .identProbe) : Hushed s (place s f) := by
  have hq := queueJoined_hushed s (q := (queueJoin s.outQueue f).1) fun h => queueJoin_length _ f h
  have hdrop : ∀ x, (queueJoin s.outQueue f).2 = some x → x = f := by
    intro x hx
    unfold queueJoin at hx
    dsimp only at hx
    rw [if_pos hc] at hx
    split at hx
    · cases hx
    · split at hx
      · cases hx
      · exact (Option.some.inj hx).symm
  have hdue : ∀ d, Hushed (queueJoined s (queueJoin s.outQueue f).1)
      { queueJoined s (queueJoin s.outQueue f).1 with restartDue := d } := fun d => .of_fields _ _ _ _ _ _ _ _ _ _ _ _ d _
  unfold place placeFuel
  dsimp only
  split
  · exact hq
  case h_2 x hx =>
    rw [hdrop x hx, if_neg hk]
    exact (hq.trans (hdue _)).trans (raise_hushed _ _ _ _)

theorem place_reply_hushed (s : State) (src : Nat) (tag : Byte) (code status third : Nat) (results : List Byte) (restart : Bool) :
    Hushed s (place s { replyFrame src tag code status third results with restart := restart }) :=
  place_hushed s (by simp [replyFrame, FrameKind.cls]) (by simp [replyFrame])

theorem placeAll_hushed (s : State) {fs : List OutFrame} (h : ∀ f ∈ fs, 3 ≤ f.kind.cls ∧ f.kind ≠ .identProbe) :
    Hushed s (placeAll s fs) := by
  induction fs generalizing s with
  | nil => exact .refl s
  | cons f fs ih =>
    have hf := h f List.mem_cons_self
    exact (place_hushed s hf.1 hf.2).trans (ih _ fun g hg => h g (List.mem_cons_of_mem f hg))

end Sys2Proof.Machine
end

section
/-! PROOF. Every arrival that is no reset is a hushed change, or ends with `finishWith` after a chain of changes of the blocks'
records and at most one move of the part state. What each of these keeps, every step keeps. -/

namespace Sys2Proof.Machine

/-! ### The changes that arrivals are made of -/

/-- One change of the blocks' records in an arrival, the part state kept. -/
inductive Alters : State → State → Prop
  | hushed {s t : State} (h : Hushed s t) : Alters s t
  | placed (s : State) (f : OutFrame) : Alters s (place s f)
  | windowEnds (s : State) (a : Nat) : Alters s (windowEnd place s a)
  | probing (s : State) (a : Nat) : Alters s (enterProbing s a)
  | unit (s : State) (a : Nat) (f : UnitRec → UnitRec) : Alters s (modifyUnit s a f)
  | line (s : State) (l : Line) (f : LineRec → LineRec)
      (hq : (s.line l).queue.length ≤ 16 → (f (s.line l)).queue.length ≤ 16) : Alters s (modifyLine s l f)
  | bell (s : State) (i h : Recs Recogniser) (oa ob : Bool) :
      Alters s { s with incoming := i, here := h, obstructionA := oa, obstructionB := ob }
  | exchange (s : State) (n : Nat) (f : Exchange → Exchange) : Alters s (modifyExchange s n f)
  | groups (s : State) (g : List Nat) : Alters s { s with groupLive := g }
  | store (s : State) (img : BankImage) (op : Option BankImage) (held : Bool) (n : Nat) :
      Alters s { s with stored := img, storeOp := op, switchHeld := held, freeCount := n }
  | objectsFall (s : State) (b : Bank) (a : Nat) (hb : s.bank = some b) : Alters s (unitObjectsLost b a s)
  | farArrives (s : State) (b : Bank) (n : Nat) (x : Instrument) (hb : s.bank = some b) : Alters s (farArrives s b n x)
  | farLost (s : State) (b : Bank) (l : Line) : Alters s (farLost s b l)
  | commutator (s : State) (b : Bank) (n : Nat) (x : Instrument) (hb : s.bank = some b) : Alters s (takeCommutator s b n x)
  | released (s : State) (n : Nat) (r : SectionRec) (hr : recAt s.sections n = some r) (ho : r.own = .onLine) :
      Alters s (modifySection s n fun x => { x with progress := .proven })
  | lamp (s : State) (p : Nat) (new : LampRec) : Alters s (changeLamp s p new)
  | acknowledged (s : State) : Alters s (acknowledge s)
  | reported (s : State) (b : Bank) (a : Nat) (bytes : List Byte) : Alters s (leversWritten (leverOutcomes s b a bytes) s)
  | lever (s : State) (n : Nat) (f : LeverRec → LeverRec)
      (hf : ∀ l, f l = { l with violation := (f l).violation, approach := (f l).approach }) : Alters s (modifyLever s n f)
  | sampled (s : State) (b : Bank) (a : Nat) (bytes : List Byte) (hb : s.bank = some b) (ha : a ∈ addresses)
      (hk : b.kindAt a = .tu) :
      Alters s (secondPass b (firstPass b a bytes s).2
        (modesComputed b ((leverReadings [] (firstPass b a bytes s).1).getLastD (firstPass b a bytes s).1)))
  | pickedUp (s : State) (b : Bank) (n : Nat) (r : TrackRec) (hb : s.bank = some b) (hr : recAt s.tracks n = some r)
      (ht : r.timer.isSome = true) : Alters s (tracksHanded s.tracks b (clearingDecision s.tracks b s n))
  | restoredTrack (s : State) (b : Bank) (n : Nat) (r : TrackRec) (active : Bool) (hb : s.bank = some b)
      (hr : recAt s.tracks n = some r) (hs : r.state = .suspect) :
      Alters s (tracksHanded s.tracks b
        (provingJudged s.tracks b (modifyTrack s n fun _ => restored active (b.trackEntry n) r)))

/-- One move of the part state in an arrival. -/
inductive Moves : State → State → Prop
  | trip (s : State) (c : TripCause) (o : Nat) (x y : Option Byte) : Moves s (tripCause s c o x y)
  | switching (s : State) (h : switchRefused s = none) : Moves s (switchTaken s)
  | running (s : State) (h : s.part = .starting) : Moves s (startingEnds s)
  | compared (s : State) (h : comparisonDue s = true) : Moves s (startupCompared s)
  | completed (s : State) (img : BankImage) (h : s.part = .switching) : Moves s (switchCompleted img s)

/-- A chain of changes. -/
abbrev Leads : State → State → Prop := Relation.ReflTransGen Alters

/-- A chain of changes, and at most one move of the part state at its end. -/
def Ends (s t : State) : Prop := Leads s t ∨ ∃ x y, Leads s x ∧ Moves x y ∧ Hushed y t

theorem Leads.hushed {s t : State} (h : Hushed s t) : Leads s t := .single (.hushed h)

theorem Leads.ends {s t : State} (h : Leads s t) : Ends s t := .inl h

theorem Leads.moves {s x t : State} (h : Leads s x) (h' : Moves x t) : Ends s t := .inr ⟨x, t, h, h', .refl t⟩

theorem Ends.after {s x t : State} (h : Leads s x) (h' : Ends x t) : Ends s t := by
  rcases h' with h' | ⟨y, z, hy, hz, ht⟩
  · exact .inl (h.trans h')
  · exact .inr ⟨y, z, h.trans hy, hz, ht⟩

theorem Ends.hushed {s x t : State} (h : Ends s x) (h' : Hushed x t) : Ends s t := by
  rcases h with h | ⟨y, z, hy, hz, hx⟩
  · exact .inl (h.trans (Leads.hushed h'))
  · exact .inr ⟨y, z, hy, hz, hx.trans h'⟩

/-- The last of LE's readings is its conclusion. -/
theorem concluded_reading (ended : List (Nat × Position)) (s : State) :
    (leverReadings ended s).getLastD s = concludeLevers ended s := rfl

/-- No change of the blocks' records changes the bank in use, the part state or the queue of commands. -/
theorem Alters.same {s t : State} (h : Alters s t) :
    t.active = s.active ∧ t.part = s.part ∧ t.trip = s.trip ∧ t.pending = s.pending := by
  cases h with
  | hushed h => simp only [h.same, and_self]
  | sampled => simp only [secondPass_same, modesComputed, concluded_reading, concludeLevers_same, firstPass_same, and_self]
  | _ => simp

theorem Leads.same {s t : State} (h : Leads s t) :
    t.active = s.active ∧ t.part = s.part ∧ t.trip = s.trip ∧ t.pending = s.pending := by
  induction h with
  | refl => exact ⟨rfl, rfl, rfl, rfl⟩
  | tail _ h ih =>
    obtain ⟨ha, hp, ht, hq⟩ := h.same
    obtain ⟨ha', hp', ht', hq'⟩ := ih
    exact ⟨ha.trans ha', hp.trans hp', ht.trans ht', hq.trans hq'⟩

theorem Leads.bank {s t : State} (h : Leads s t) : t.bank = s.bank := State.bank_of s t h.same.1

/-- A chain over a list, each of its links a chain while the bank in use stays. -/
theorem Leads.foldl {α : Type} {f : State → α → State} {b : Bank} (hf : ∀ s x, s.bank = some b → Leads s (f s x))
    (l : List α) {s : State} (hb : s.bank = some b) : Leads s (l.foldl f s) := by
  induction l generalizing s with
  | nil => exact .refl
  | cons x l ih =>
    have hx := hf s x hb
    exact hx.trans (ih (hx.bank.trans hb))

/-! ### The blocks' operations as chains -/

theorem modifyRecogniser_leads (s : State) (x : Side) (n : Nat) (f : Recogniser → Recogniser) :
    Leads s (modifyRecogniser s x n f) := by
  cases x
  · exact .single (.bell s _ s.here s.obstructionA s.obstructionB)
  · exact .single (.bell s s.incoming _ s.obstructionA s.obstructionB)

theorem setObstruction_leads (s : State) (l : Line) (v : Bool) : Leads s (setObstruction s l v) := by
  cases l
  · exact .single (.bell s s.incoming s.here v s.obstructionB)
  · exact .single (.bell s s.incoming s.here s.obstructionA v)

theorem raise_leads {s t : State} (h : Leads s t) (k : EventKind) (o d : Nat) : Leads s (raise t k o d) :=
  h.tail (.hushed (raise_hushed t k o d))

theorem raiseAll_leads {s t : State} (h : Leads s t) (es : List (EventKind × Nat × Nat)) : Leads s (raiseAll t es) :=
  h.tail (.hushed (raiseAll_hushed t es))

theorem unitSilenced_leads {s : State} {b : Bank} (hb : s.bank = some b) (a : Nat) : Leads s (unitSilenced s b a) := by
  unfold unitSilenced
  split
  · have h := raise_leads (.single (.unit s a fun u => { u with state := .silent, report := none })) .unitState a
      (unitChange .active .silent)
    exact h.tail (.objectsFall _ b a (h.bank.trans hb))
  · exact .refl

theorem unitBroken_leads {s : State} {b : Bank} (hb : s.bank = some b) (a : Nat) : Leads s (unitBroken b s a) := by
  unfold unitBroken
  split
  · split
    · have h : Leads s (modifyUnit s a fun v => { v with state := .silent, report := none }) := .single (.unit ..)
      exact h.tail (.objectsFall _ b a (h.bank.trans hb))
    · exact .single (.unit ..)
    · exact .refl
  · exact .refl

theorem watchRestarted_hushed (s : State) : Hushed s (watchRestarted s) :=
  .of_fields s s.now s.key s.seq s.sending s.txHold s.lossMarks s.refresh s.loop _ s.shadow s.check s.restartDue s.lastRequester

theorem loopBroken_leads (s : State) : Leads s (loopBroken s) := by
  have h : Leads s (raise { watchRestarted s with loop := .broken } .loopBroken 0 0) :=
    raise_leads (.hushed (.of_fields s s.now s.key s.seq s.sending s.txHold s.lossMarks s.refresh .broken _ s.shadow s.check
      s.restartDue s.lastRequester)) _ _ _
  unfold loopBroken
  dsimp only
  split
  case h_1 b hb => exact h.trans (Leads.foldl (fun s a hb => unitBroken_leads hb a) _ (h.bank.trans hb))
  case h_2 => exact h

theorem unitProbed_leads {s : State} {b : Bank} (hb : s.bank = some b) (a : Nat) : Leads s (unitProbed s b a) := by
  have h : Leads s (enterProbing s a) := .single (.probing s a)
  unfold unitProbed
  split
  · exact h.tail (.objectsFall _ b a (h.bank.trans hb))
  · exact h

theorem identArrives_leads (s : State) (b : Bank) (a : Nat) (bytes : List Byte) : Leads s (identArrives s b a bytes) := by
  unfold identArrives
  split
  · split
    · exact raise_leads (.single (.unit ..)) _ _ _
    · exact .refl
  · exact .refl

/-! #### The lines and the bells -/

theorem discardCounted_hushed (s : State) (l : Line) : Hushed s (discardCounted s l) := by
  have h : ∀ n x, Hushed s (modifyLine s l fun r => { r with discardRun := n, noisyReported := r.noisyReported || x }) :=
    fun n x => .modifyLine s l rfl id
  unfold discardCounted
  dsimp only
  split
  · exact (h _ _).trans (raise_hushed _ _ _ _)
  · exact h _ _

theorem characterTaken_hushed (s : State) (l : Line) (c : Character) : Hushed s (characterTaken s l c) := by
  unfold characterTaken
  dsimp only
  split
  · exact (discardCounted_hushed s l).trans (.modifyLine _ l rfl id)
  · exact .modifyLine s l rfl id

theorem linkHeard_leads (s : State) (l : Line) : Leads s (linkHeard s l) := by
  have h : Leads s (modifyLine s l fun r => { r with discardRun := 0, noisyReported := false }) := .single (.line s l _ id)
  unfold linkHeard
  dsimp only
  split
  · exact h.tail (.line _ l _ id)
  · exact h.tail (.line _ l _ id)
  · split
    · exact raise_leads (h.tail (.line _ l _ id)) _ _ _
    · exact h.tail (.line _ l _ id)

theorem strokeTaken_leads (s : State) (b : Bank) (x : Side) (n : Nat) (d : Bool) : Leads s (strokeTaken s b x n d) :=
  modifyRecogniser_leads s x n _

theorem incomingStroke_leads (s : State) (b : Bank) (l : Line) (ch : Nat) : Leads s (incomingStroke s b l ch) := by
  unfold incomingStroke ringBell
  split
  · split
    · exact (Relation.ReflTransGen.single (Alters.placed s _)).trans (strokeTaken_leads _ b _ _ _)
    · exact strokeTaken_leads s b _ _ _
  · exact raise_leads .refl _ _ _

theorem localStroke_leads (s : State) (b : Bank) (n : Nat) : Leads s (localStroke s b n) :=
  (Leads.hushed (placeLine_hushed s _ _)).trans (strokeTaken_leads _ b _ _ _)

theorem farOnChannel_leads {s : State} {b : Bank} (hb : s.bank = some b) (l : Line) (ch : Nat) (x : Instrument) :
    Leads s (farOnChannel s b l ch x) := by
  unfold farOnChannel
  split
  · split
    · exact .single (.farArrives s b _ x hb)
    · exact .refl
  · exact .refl

theorem messageHanded_leads (s : State) (l : Line) (m : LineMsg) : Leads s (messageHanded s l m) := by
  have h := linkHeard_leads s l
  unfold messageHanded
  dsimp only
  split
  · next b hb =>
    have hb' := h.bank.trans hb
    split
    · exact h.trans (incomingStroke_leads _ b l _)
    · exact h.trans (farOnChannel_leads hb' l _ _)
    · next x _ =>
      have h0 := farOnChannel_leads hb' l 0 x
      exact (h.trans h0).trans (farOnChannel_leads (h0.bank.trans hb') l 1 _)
  · exact h

theorem characterReceived_leads (s : State) (l : Line) (c : Character) : Leads s (characterReceived s l c) := by
  have h : Leads s (characterTaken s l c) := .hushed (characterTaken_hushed s l c)
  unfold characterReceived
  dsimp only
  split
  · exact h.trans (messageHanded_leads _ l _)
  · exact h

theorem messageReceived_leads (s : State) (l : Line) (m : LineMsg) : Leads s (messageReceived s l m) := by
  unfold messageReceived
  split
  · have h : Leads s (modifyLine s l fun r => { r with markHold := false }) := .single (.line s l _ id)
    exact h.trans (foldl_rel Leads (fun _ => .refl) (fun _ _ _ => .trans) _ (fun s c => characterReceived_leads s l c) _ _)
  · exact .refl

theorem linkLost_leads (s : State) (b : Option Bank) (l : Line) : Leads s (linkLost s b l) := by
  have h : Leads s (modifyLine s l fun r => { r with
      link := .down, linkTimer := none, firstHeard := none, queue := r.queue.filter fun m => !m.isStroke }) :=
    .single (.line s l _ fun h => (List.length_filter_le _ _).trans h)
  unfold linkLost
  dsimp only
  have htold := raiseAll_leads (raise_leads h .linkDown l.code 0)
    ((strokesOf (s.line l).queue).map fun c => (.strokeDropped, l.code, c))
  split
  · exact (htold.tail (.farLost _ _ l)).tail (.bell _ _ _ _ _)
  · exact htold

theorem removalAcknowledged_leads (s : State) (b : Bank) (n : Nat) (x : Exchange) :
    Leads s (removalAcknowledged s b n x) := by
  unfold removalAcknowledged
  split
  · exact raise_leads (setObstruction_leads s _ _) _ _ _
  · exact .refl

theorem exchangeJudged_leads (s : State) (b : Bank) (n : Nat) (o : Origin) (g : List Nat) :
    Leads s (exchangeJudged s b n o g) := by
  unfold exchangeJudged
  split
  · split
    · split
      · exact (Relation.ReflTransGen.single (Alters.exchange s n _)).trans (removalAcknowledged_leads _ b n _)
      · exact (raise_leads .refl _ _ _).tail (.exchange _ n _)
    · dsimp only
      split
      · exact (raise_leads .refl _ _ _).tail (.exchange _ n _)
      · exact .single (.exchange s n _)
  · exact .refl

theorem obstructionJudged_leads (s : State) (b : Bank) (n : Nat) (x : Side) (g : List Nat) :
    Leads s (obstructionJudged s b n x g) := by
  unfold obstructionJudged
  split
  · dsimp only
    split
    · exact .refl
    · exact raise_leads (setObstruction_leads s _ _) _ _ _
  · exact .refl

theorem codeCompleted_leads (s : State) (b : Bank) (x : Side) (n : Nat) (r : Recogniser) :
    Leads s (codeCompleted s b x n r) := by
  have h := modifyRecogniser_leads s x n fun _ => {}
  unfold codeCompleted
  dsimp only
  split
  · exact raise_leads h _ _ _
  · refine Relation.ReflTransGen.trans ?_ (obstructionJudged_leads _ b n x _)
    refine Relation.ReflTransGen.trans ?_ (exchangeJudged_leads _ b n _ _)
    split
    · exact raise_leads (raise_leads h _ _ _) _ _ _
    · exact raise_leads h _ _ _

/-! #### Reports -/

theorem lampTakes_leads (s : State) (b : Bank) (p c : Nat) : Leads s (lampTakes s b p c) := by
  unfold lampTakes
  split
  · exact .single (.lamp s p _)
  · exact .refl

theorem lampsTaken_leads (b : Bank) (a : Nat) (bytes : List Byte) (s : State) : Leads s (lampsTaken b a bytes s) :=
  foldl_rel Leads (fun _ => .refl) (fun _ _ _ => .trans) _ (fun s _ => lampTakes_leads s b _ _) _ s

theorem instrumentsTaken_leads {s : State} {b : Bank} (hb : s.bank = some b) (a : Nat) (bytes : List Byte) :
    Leads s (instrumentsTaken b a bytes s) := by
  have hturned : Leads s ((b.assignedChannels a).foldl
      (fun s p => takeCommutator s b p.2 (reportedCommutator bytes p.1)) s) :=
    .foldl (fun s p hb => .single (.commutator s b _ _ hb)) _ hb
  have htapped : ∀ x : State, Leads x ((b.assignedChannels a).foldl
      (fun s p => if tapperMark bytes p.1 then localStroke s b p.2 else s) x) := by
    refine foldl_rel Leads (fun _ => .refl) (fun _ _ _ => .trans) _ (fun s p => ?_) _
    split
    · exact localStroke_leads s b _
    · exact .refl
  unfold instrumentsTaken
  dsimp only
  split
  · exact (hturned.trans (htapped _)).tail (.acknowledged _)
  · exact hturned.trans (htapped _)

theorem faultsTaken_leads (b : Bank) (a : Nat) (bytes : List Byte) (s : State) : Leads s (faultsTaken b a bytes s) := by
  refine foldl_rel Leads (fun _ => .refl) (fun _ _ _ => .trans) _ (fun s p => ?_) _ s
  unfold faultTaken
  split
  · dsimp only
    split
    · exact .refl
    · exact raise_leads (.single (.unit ..)) _ _ _
  · exact .refl

/-! ### What a frame comes to -/

/-- What an arrival's treatment leaves: a hushed change where no end is called for, else a chain and at most one move. -/
def Treated.follows (s : State) : Treated → Prop
  | .quiet t => Hushed s t
  | .changed t _ _ => Ends s t

theorem Treated.follows_ends {s : State} {x : Treated} (h : x.follows s) : (probingToo x).follows s := by
  cases x with
  | quiet t => exact .inl (.hushed h)
  | changed t e p => exact h

theorem Treated.follows_after {s t : State} {x : Treated} (h : Hushed s t) (hx : x.follows t) : x.follows s := by
  cases x with
  | quiet y => exact h.trans hx
  | changed y e p => exact Ends.after (Leads.hushed h) hx

theorem matchedEntry_length {q : Byte} {l older younger : List PendingReturn} {p : PendingReturn}
    (h : matchedEntry q l = some (older, p, younger)) : younger.length ≤ l.length := by
  induction l generalizing older with
  | nil => cases h
  | cons x l ih =>
    unfold matchedEntry at h
    split at h
    · cases h; simp
    · obtain ⟨⟨o, r, y⟩, hm, hxy⟩ := Option.map_eq_some_iff.1 h
      cases hxy
      exact (ih hm).trans (by simp)

theorem entryLost_hushed (s : State) (p : PendingReturn) : Hushed s (entryLost s p) := by
  unfold entryLost
  split
  · exact .refl s
  · exact (Hushed.of_fields s s.now s.key s.seq s.sending s.txHold _ s.refresh s.loop s.watch s.shadow s.check s.restartDue
      s.lastRequester).trans (raise_hushed _ _ _ _)

theorem returnArrives_follows (s : State) (f : Frame) : (returnArrives s f).follows s := by
  unfold returnArrives
  split
  case h_2 => exact .refl s
  case h_1 older p younger hm =>
    have h : Hushed s (older.foldl entryLost (entriesLeave s younger)) :=
      (entriesLeave_hushed s (matchedEntry_length hm)).trans (.foldl entryLost_hushed older _)
    have hmarks : ∀ t m, Hushed t { t with lossMarks := m } := fun t m =>
      .of_fields t t.now t.key t.seq t.sending t.txHold m t.refresh t.loop t.watch t.shadow t.check t.restartDue t.lastRequester
    refine Treated.follows_after h ?_
    unfold returnJudged
    split
    · dsimp only
      split
      · exact (Leads.hushed (hmarks _ _)).moves (.trip ..)
      · exact hmarks _ _
    · split
      · exact .refl _
      · split
        · next hb => exact (unitSilenced_leads hb _).ends
        · exact .refl _

theorem srcOf_mem_addresses {f : Frame} (h : srcOf f ≠ 0) : srcOf f ∈ addresses := by
  have : srcOf f < 32 := Nat.mod_lt _ (by decide)
  unfold addresses
  rw [List.mem_range'_1]
  omega

theorem leversTaken_follows (b : Bank) (a : Nat) (bytes : List Byte) (s : State) : (leversTaken b a bytes s).follows s := by
  have h := raiseAll_leads (.single (.reported s b a bytes)) (leverEvents (leverOutcomes s b a bytes))
  unfold leversTaken
  dsimp only
  split
  · exact h.moves (.trip ..)
  · split
    · next hc =>
      refine h.moves (.completed _ _ ?_)
      rw [h.same.2.1]
      unfold heldCompletes at hc
      simp only [Bool.and_eq_true, decide_eq_true_eq, leversWritten_same] at hc
      exact hc.1.1
    · exact h.ends

theorem reportTaken_follows {s : State} {b : Bank} (hb : s.bank = some b) {a : Nat} (ha : a ∈ addresses)
    (bytes : List Byte) : (reportTaken b a (b.kindAt a) bytes s).follows s := by
  unfold reportTaken
  split
  · exact leversTaken_follows b a bytes s
  · next hk => exact .inl (.single (.sampled s b a bytes hb ha hk))
  · exact .inl (lampsTaken_leads b a bytes s)
  · exact .inl (instrumentsTaken_leads hb a bytes)
  · exact .inl (faultsTaken_leads b a bytes s)
  · exact .refl s
  · exact .refl s

theorem reportArrives_follows {s : State} {b : Bank} (hb : s.bank = some b) {a : Nat} (ha : a ∈ addresses)
    (bytes : List Byte) : (reportArrives s b a bytes).follows s := by
  unfold reportArrives
  split
  · split
    · have hcounted : Alters s (reportCounted s b a) := .unit s a _
      have hbank : (reportCounted s b a).bank = some b := (State.bank_of _ _ (by simp)).trans hb
      have h := reportTaken_follows hbank ha bytes
      cases hx : reportTaken b a (b.kindAt a) bytes (reportCounted s b a) with
      | quiet t =>
        rw [hx] at h
        have hsame : Hushed s (reportCounted s b a) := .modifyUnit s a fun _ => rfl
        exact hsame.trans h
      | changed t e p =>
        rw [hx] at h
        exact Ends.after (.single hcounted) h
    · exact .inl (.single (.probing s a))
    · exact .refl s
  · exact .refl s

/-! ### What a request comes to -/

theorem requestedBy_hushed (s : State) (src : Nat) : Hushed s (s.requestedBy src) :=
  .of_fields s s.now s.key s.seq s.sending s.txHold s.lossMarks s.refresh s.loop s.watch s.shadow s.check s.restartDue _

/-- What a request's tests and effect leave. -/
def Verdict.follows (s : State) : Verdict → Prop
  | .done t _ | .framed t _ => Hushed s t
  | .acted t _ => Ends s t
  | .refused _ | .restarting => True

theorem shadow_hushed (s : State) (b : Bank) (c : CheckState) : Hushed s { s with shadow := b, check := c } :=
  .of_fields s s.now s.key s.seq s.sending s.txHold s.lossMarks s.refresh s.loop s.watch b c s.restartDue s.lastRequester

theorem restoreTrack_follows (s : State) (t : Nat) : (restoreTrack s t).follows s := by
  unfold restoreTrack
  split
  · split
    · next hb hr hs => exact .inl (raise_leads (.single (.restoredTrack s _ t _ _ hb hr hs)) _ _ _)
    · trivial
  · trivial

theorem clearViolation_follows (s : State) (n : Nat) : (clearViolation s n).follows s := by
  unfold clearViolation
  split
  · trivial
  · split
    · split
      · trivial
      · split
        · exact .inl (raise_leads (.single (.lever s n _ fun _ => rfl)) _ _ _)
        · exact .inl .refl
    · trivial

theorem blockRelease_follows (s : State) (n : Nat) : (blockRelease s n).follows s := by
  unfold blockRelease
  split
  · trivial
  · split
    · split
      · trivial
      · next hr ho =>
        split
        · exact .inl .refl
        · exact .inl (raise_leads (.single (.released s n _ hr (not_not.1 ho))) _ _ _)
    · trivial

theorem setGroup_follows (s : State) (g v : Nat) : (setGroup s g v).follows s := by
  unfold setGroup
  split
  · dsimp only
    split
    · exact .inl .refl
    · exact .inl (.single (.groups s _))
  · trivial

theorem reprobeUnit_follows (s : State) (a : Nat) : (reprobeUnit s a).follows s := by
  unfold reprobeUnit
  split
  · next hb =>
    split
    · trivial
    · exact .inl (unitProbed_leads hb a)
  · trivial

theorem loadTable_follows (s : State) (c : RecordClass) (i : Nat) (bs : List Byte) : (loadTable s c i bs).follows s := by
  unfold loadTable
  split
  · exact shadow_hushed s _ _
  · trivial

theorem copyBank_follows (s : State) : (copyBank s).follows s := by
  unfold copyBank
  split
  · exact shadow_hushed s _ _
  · trivial

/-- Entries may leave the event queue (R179). -/
theorem events_drop_hushed (s : State) (n : Nat) : Hushed s { s with events := s.events.drop n } :=
  ⟨rfl, rfl, fun l => by cases l <;> rfl, fun ⟨hq, hp, he, hl⟩ => ⟨hq, hp, (List.length_drop.trans_le (Nat.sub_le _ _)).trans he, hl⟩⟩

theorem requestTaken_follows (s : State) (r : Request) : (requestTaken s r).follows s := by
  cases r with
  | readRecord => exact .refl s
  | loadTable => exact loadTable_follows s _ _ _
  | loadEdition => exact shadow_hushed s _ _
  | copyBank => exact copyBank_follows s
  | checkBank => exact shadow_hushed s _ _
  | switchBank =>
    unfold requestTaken
    dsimp only
    split
    · trivial
    · next h => exact Leads.moves .refl (.switching s h)
  | restoreTrack => exact restoreTrack_follows s _
  | clearViolation => exact clearViolation_follows s _
  | blockRelease => exact blockRelease_follows s _
  | ackAlarms => exact .inl (.single (.acknowledged s))
  | setGroup => exact setGroup_follows s _ _
  | reprobe => exact reprobeUnit_follows s _
  | readEvents => exact events_drop_hushed s _
  | restart =>
    unfold requestTaken
    dsimp only
    split <;> trivial

theorem requestHandled_follows (s : State) (src : Nat) (tag : Byte) (code : Nat) (params : List Byte) :
    (requestHandled s src tag code params).follows s := by
  have hreply := fun t c x y r => place_reply_hushed t src tag c x y r false
  unfold requestHandled
  split
  · exact hreply s _ _ _ _
  · split
    · exact hreply s _ _ _ _
    · next r _ _ =>
      have h := requestTaken_follows s r
      dsimp only
      split
      · next ht => rw [ht] at h; exact h.trans (hreply _ _ _ _ _)
      · next ht => rw [ht] at h; exact h.hushed (hreply _ _ _ _ _)
      · exact hreply s _ _ _ _
      · next ht =>
        rw [ht] at h
        refine h.trans (placeAll_hushed _ fun g hg => ?_)
        obtain ⟨x, -, rfl⟩ := List.mem_map.1 hg
        simp [replyFrame, FrameKind.cls]
      · exact place_reply_hushed s src tag _ _ _ _ true

theorem maintArrives_follows (s : State) (src : Nat) (payload : List Byte) : (maintArrives s src payload).follows s := by
  have hhandled := fun t => Treated.follows_after (requestedBy_hushed t src)
    (requestHandled_follows (t.requestedBy src) src (byteAt payload 0) (byteAt payload 1).toNat (payload.drop 2))
  unfold maintArrives
  dsimp only
  split
  · exact hhandled s
  · split
    · split
      · split
        · exact raise_hushed s _ _ _
        · split
          · have h := Treated.follows_ends (hhandled (enterProbing s src))
            cases hx : requestHandled ((enterProbing s src).requestedBy src) src (byteAt payload 0)
                (byteAt payload 1).toNat (payload.drop 2) <;> rw [hx] at h <;> exact Ends.after (.single (.probing s src)) h
          · exact hhandled s
      · exact hhandled s
    · exact raise_hushed s _ _ _

/-! ### What an arrival comes to -/

theorem frameTreated_follows (s : State) (kind : Byte) (f : Frame) : (frameTreated s kind f).follows s := by
  unfold frameTreated
  split
  · exact returnArrives_follows s f
  · next hsrc =>
    split
    · exact .refl s
    · split
      · split
        · exact maintArrives_follows s _ _
        · exact .refl s
      · next hb =>
        split
        · exact .refl s
        · split
          · exact .inl (identArrives_leads s _ _ _)
          · split
            · exact maintArrives_follows s _ _
            · split
              · exact reportArrives_follows hb (srcOf_mem_addresses hsrc) _
              · exact .refl s

theorem loopHeard_hushed (s : State) : Hushed s (loopHeard s) := by
  unfold loopHeard
  dsimp only
  split
  · exact (Hushed.of_fields s s.now s.key s.seq s.sending s.txHold s.lossMarks s.refresh .up _ s.shadow s.check s.restartDue
      s.lastRequester).trans (raise_hushed _ _ _ _)
  · exact watchRestarted_hushed s

theorem changedPurged_hushed (old : Option Bank) (new : Bank) (s : State) : Hushed s (changedPurged old new s) := by
  have hq : Hushed s { s with outQueue := s.outQueue.filter fun f => !entryChanged old new f.dest } :=
    .outQueue s fun h => (List.length_filter_le _ _).trans h
  have hfields := fun (t : State) m r d => Hushed.of_fields t t.now t.key t.seq t.sending t.txHold m r t.loop t.watch t.shadow
    t.check d t.lastRequester
  exact (hq.trans (hfields _ _ _ _)).trans (entriesLeave_hushed _ (List.length_filter_le _ _))

theorem purgedFor_hushed (s : State) (kind : Byte) (f : Frame) : Hushed s (purgedFor s kind f) := by
  unfold purgedFor
  split
  · exact changedPurged_hushed _ _ s
  · exact .refl s

theorem sampled_hushed (s : State) (key : Option Bool) : Hushed s (s.sampled key) :=
  .of_fields s s.now _ s.seq s.sending s.txHold s.lossMarks s.refresh s.loop s.watch s.shadow s.check s.restartDue s.lastRequester

/-- What an arrival comes to: a hushed change, or the end of an arrival after a chain and at most one move of the part state. -/
def Follows (s t : State) : Prop := Hushed s t ∨ ∃ x ended pass old, Ends s x ∧ t = finishWith ended pass old x

theorem Follows.finish {s x : State} (old : State) (h : Ends s x) : Follows s (finish old x) := .inr ⟨x, _, _, _, h, rfl⟩

theorem concluded_follows {s : State} (old : State) {x : Treated} (h : x.follows s) : Follows s (concluded old x) := by
  cases x with
  | quiet t => exact .inl (Hushed.trans h (arbiters_hushed t))
  | changed t ended pass => exact .inr ⟨t, ended, pass, old, h, rfl⟩

theorem frameArrives_follows (s : State) (kind : Byte) (f : Frame) : Follows s (frameArrives s kind f) := by
  unfold frameArrives
  split
  · have h := (purgedFor_hushed s kind f).trans (loopHeard_hushed _)
    exact concluded_follows s (Treated.follows_after h (frameTreated_follows _ kind f))
  · exact .inl (.refl s)

theorem storeEnded_ends (img : BankImage) (s : State) : Ends s (storeEnded img s) := by
  have h : ∀ held, Leads s { s with stored := img, storeOp := none, switchHeld := held } := fun held =>
    .single (.store s img none held s.freeCount)
  unfold storeEnded
  dsimp only
  split
  · next hp =>
    split
    · exact (raise_leads (h true) _ _ _).ends
    · have h' := (h s.switchHeld).tail (.hushed (changedPurged_hushed s.bank img.bank _))
      exact Leads.moves h' (.completed _ img ((Leads.same h').2.1.trans hp))
  · exact (raise_leads (h s.switchHeld) _ _ _).ends
  · exact (h s.switchHeld).ends

/-- Every arrival that is no reset is a hushed change or comes to the end of an arrival. -/
theorem Arrives.follows {s t : State} (h : Arrives s t) : Follows s t := by
  have hwarp := fun t => Leads.hushed (Hushed.warp s t)
  cases h with
  | frame key kind f =>
    rcases frameArrives_follows (s.sampled key) kind f with h | ⟨x, e, p, o, hx, ht⟩
    · exact .inl ((sampled_hushed s key).trans h)
    · exact .inr ⟨x, e, p, o, hx.after (.hushed (sampled_hushed s key)), ht⟩
  | idlePattern => exact .inl (watchRestarted_hushed s)
  | watchTimer =>
    unfold watchExpires
    dsimp only
    split
    · exact .finish _ (Leads.ends ((hwarp _).trans (loopBroken_leads _)))
    · exact .inl ((Hushed.warp s _).trans (watchRestarted_hushed _))
  | returnTimer q =>
    unfold returnExpires
    split
    · next hp =>
      split
      · refine .inl (((Hushed.warp s _).trans (entriesLeave_hushed _ ?_)).trans ((entryLost_hushed _ _).trans (arbiters_hushed _)))
        exact List.length_eraseP_le ..
      · exact .inl (.refl s)
    · exact .inl (.refl s)
  | refreshTimer a =>
    unfold refreshExpires
    split
    · next x b hx hb =>
      dsimp only
      split
      · next f hf =>
        have hrun : Hushed (s.warp x) { s.warp x with
            refresh := modifyRec (s.warp x).refresh a fun _ => (s.warp x).after f.kind.period } :=
          .of_fields _ _ _ _ _ _ _ _ _ _ _ _ _ _
        exact .finish _ (Leads.ends (((hwarp x).tail (.hushed hrun)).tail (.placed _ f)))
      · exact .inl (.refl s)
    · exact .inl (.refl s)
  | frameSent =>
    unfold frameLeaves
    split
    · next x _ =>
      dsimp only
      have h := (Hushed.pendingReturns s (p := s.pendingReturns.map fun p =>
          if p.seq = x.seq then { p with timer := some (s.after Config.returnTime) } else p) (by simp)).trans
        (Hushed.of_fields _ s.now s.key s.seq none s.txHold s.lossMarks s.refresh s.loop s.watch s.shadow s.check
          (s.restartDue || x.restart) s.lastRequester)
      split
      · exact .inl ((h.trans (.modifyUnit _ _ (restartWindow_state _))).trans (arbiters_hushed _))
      · exact .inl (h.trans (arbiters_hushed _))
    · exact .inl (.refl s)
  | hold =>
    unfold holdExpires
    split
    · exact .inl (((Hushed.warp s _).trans (.of_fields _ _ _ _ _ none _ _ _ _ _ _ _ _)).trans (arbiters_hushed _))
    · exact .inl (.refl s)
  | probeWindow a =>
    unfold probeExpires
    split
    · exact .finish _ (Leads.ends ((hwarp _).tail (.windowEnds _ a)))
    · exact .inl (.refl s)
  | reprobe a =>
    unfold reprobeExpires
    split
    · exact .finish _ (Leads.ends (((hwarp _).tail (.unit _ a _)).tail (.placed _ _)))
    · exact .inl (.refl s)
  | report a =>
    unfold reportExpires
    split
    · next hb => exact .finish _ (Leads.ends ((hwarp _).trans (unitSilenced_leads ((hwarp _).bank.trans hb) a)))
    · exact .inl (.refl s)
  | pickUp n =>
    unfold pickUpExpires
    split
    · next x b ht hb =>
      obtain ⟨r, hr, hx⟩ := Option.bind_eq_some_iff.1 ht
      have hrun : r.timer.isSome = true := by rw [hx]; rfl
      exact .finish _ (Leads.ends ((hwarp x).tail (.pickedUp _ b n r ((hwarp x).bank.trans hb) (by simpa using hr) hrun)))
    · exact .inl (.refl s)
  | approach n =>
    unfold approachExpires
    split
    · exact .finish _ (Leads.ends ((hwarp _).tail (.lever _ n (fun l => { l with approach := none }) fun _ => rfl)))
    · exact .inl (.refl s)
  | character l markBefore x =>
    unfold lineReads
    split
    · split
      · next c _ =>
        have h : Hushed s (modifyLine s l fun r => { r with markHold := c.framing || c.brk }) := .modifyLine s l rfl id
        dsimp only
        split
        · exact .finish _ (Leads.ends ((Leads.hushed h).trans (characterReceived_leads _ l c)))
        · exact .inl (h.trans ((characterTaken_hushed _ l c).trans (arbiters_hushed _)))
      · exact .inl (.modifyLine s l rfl id)
    · exact .inl (.refl s)
  | message l m => exact .finish _ (messageReceived_leads s l m).ends
  | gap l =>
    unfold gapExpires
    split
    · exact .inl (((Hushed.warp s _).trans ((discardCounted_hushed _ l).trans (.modifyLine _ l rfl id))).trans
        (arbiters_hushed _))
    · exact .inl (.refl s)
  | linkTimer l =>
    unfold linkExpires
    split
    · exact .finish _ (Leads.ends ((hwarp _).trans (linkLost_leads _ s.bank l)))
    · exact .inl (.refl s)
  | statusTimer l =>
    unfold statusExpires
    split
    · exact .inl (((Hushed.warp s _).trans (.modifyLine _ l rfl id)).trans ((placeLine_hushed _ l _).trans
        (arbiters_hushed _)))
    · exact .inl (.refl s)
  | messageSent l =>
    unfold messageLeaves
    split
    · exact .inl ((Hushed.modifyLine s l rfl id).trans (arbiters_hushed _))
    · exact .inl (.refl s)
  | breakEnd l =>
    refine .inl (.modifyLine s l ?_ ?_) <;> split <;> first | rfl | exact id
  | idleEnd l =>
    unfold idleEnds
    split
    · exact .inl ((Hushed.modifyLine s l rfl id).trans (arbiters_hushed _))
    · exact .inl (.refl s)
  | endTimer n x =>
    unfold codeEnds
    split
    · split
      · exact .finish _ (Leads.ends ((hwarp _).trans (codeCompleted_leads _ _ x n _)))
      · exact .inl (.refl s)
    · exact .inl (.refl s)
  | repetition n =>
    unfold repetitionExpires
    split
    · exact .finish _ (Leads.ends ((hwarp _).tail (.exchange _ n _)))
    · exact .inl (.refl s)
  | startTimer =>
    unfold startExpires
    split
    · split
      · next hp => exact .finish _ (Leads.moves (hwarp _) (.running _ (by simpa using hp)))
      · exact .inl (.refl s)
    · exact .inl (.refl s)
  | comparison =>
    split
    · next h => exact .finish _ (Leads.moves .refl (.compared s h))
    · exact .inl (.refl s)
  | storeEnd equal =>
    unfold storeEnds
    split
    · refine .finish _ ?_
      split
      · exact storeEnded_ends _ s
      · exact (Leads.moves (.single (.store s _ none s.switchHeld _)) (.trip ..))
    · exact .inl (.refl s)

end Sys2Proof.Machine
end

section
/-! PROOF. What every command does: it completes, it changes the part state by the routes of R174 alone, and it keeps every queue
within its capacity. -/

namespace Sys2Proof.Machine

/-! ### The queue of commands -/

theorem Moves.same {s t : State} (h : Moves s t) :
    t.pending = s.pending ∧ t.inReset = s.inReset ∧ t.resetKind = s.resetKind := by
  cases h with
  | trip | running | completed => simp
  | switching => unfold switchTaken; split <;> exact ⟨rfl, rfl, rfl⟩
  | compared => unfold startupCompared; split <;> simp

theorem Ends.pending {s t : State} (h : Ends s t) : t.pending = s.pending := by
  rcases h with h | ⟨x, y, hx, hy, ht⟩
  · exact h.same.2.2.2
  · exact ht.same.1.trans (hy.same.1.trans hx.same.2.2.2)

theorem Follows.pending {s t : State} (h : Follows s t) : t.pending = s.pending := by
  rcases h with h | ⟨x, e, p, o, hx, rfl⟩
  · exact h.same.1
  · simpa using hx.pending

/-- Settles O2. -/
theorem everyCommandCompletes : Obligations.EveryCommandCompletes := by
  unfold Obligations.EveryCommandCompletes
  intro c s
  cases hc : isReset c with
  | true =>
    obtain ⟨t, ht, rfl | ⟨k, held, rfl⟩⟩ := exec_reset c s hc
    · exact ⟨_, ht, rfl⟩
    · exact ⟨_, ht, rfl⟩
  | false =>
    obtain ⟨t, ht, ⟨-, rfl⟩ | ⟨-, dt, ha⟩⟩ := exec_arrives c s hc
    · exact ⟨_, ht, rfl⟩
    · exact ⟨_, ht, ha.follows.pending⟩

/-! ### Resets -/

theorem storageAfterReset_eq (s : State) : storageAfterReset s =
    (if s.storeOp.isSome then Config.storageUnknown s.freeCount else s.stored,
     if s.storeOp.isSome then s.freeCount + 1 else s.freeCount) := by
  unfold storageAfterReset
  split <;> simp [*]

theorem tripAfterReset_eq (k : ResetKind) (t : Option TripRec) : tripAfterReset k t = if k = .power then none else t := by
  cases k <;> rfl

/-- Settles O3. -/
theorem resetsClearTheBlocks : Obligations.ResetsClearTheBlocks := by
  unfold Obligations.ResetsClearTheBlocks
  refine ⟨fun c s hs hc => ?_, fun s => ?_⟩
  · obtain ⟨t, ht, ⟨-, rfl⟩ | ⟨h, -⟩⟩ := exec_arrives c s hc
    · exact ht
    · exact absurd (hs.symm.trans h) (by decide)
  · intro after
    have hafter : ∀ k held, resetTo k held s = after k held := by
      intro k held
      unfold resetTo
      rw [storageAfterReset_eq, tripAfterReset_eq]
      rfl
    refine ⟨congrArg _ (hafter _ _), congrArg _ (hafter _ _), fun h => ?_, fun h => ?_, fun h => ?_, fun h => ?_⟩
    · rw [← hafter]
      exact congrArg _ (if_pos h)
    · exact congrArg _ (if_neg (Bool.eq_false_iff.1 h))
    · rw [← hafter]
      exact congrArg _ (if_pos h)
    · exact congrArg _ (if_neg (Bool.eq_false_iff.1 h))

/-! ### The part state -/

/-- The part state moves by a route of R174 that does not lead to STARTING, or stays, the trip record kept but at TRIPPED. -/
def Routed (s t : State) : Prop :=
  (t.part = s.part ∧ t.trip = s.trip) ∨
  (partMoves s.part t.part = true ∧ t.part ≠ .starting ∧ (t.trip = s.trip ∨ t.part = .tripped))

theorem partMoves_from {x y : PartState} (h : partMoves x y = true) : x ≠ .tripped := by
  rintro rfl
  cases h

theorem Moves.routed {s t : State} (h : Moves s t) : Routed s t := by
  cases h with
  | trip c o x y =>
    unfold tripCause
    split
    · exact .inl (by simp)
    · exact .inl ⟨rfl, rfl⟩
    · next h₁ h₂ =>
      have hpart : (tripped s c o x y).part = .tripped := by simp [tripped]
      refine .inr ⟨?_, by simp [hpart], .inr hpart⟩
      rw [hpart]
      cases hp : s.part with
      | tripped => exact absurd hp h₁
      | unconfigured => exact absurd hp h₂
      | starting | running | switching => rfl
  | switching h =>
    unfold switchTaken
    split
    · refine .inr ⟨?_, by simp, .inl rfl⟩
      unfold switchRefused at h
      split at h
      · cases h
      · next hp =>
        simp only [not_and_or, not_not] at hp
        rcases hp with hp | hp <;> rw [hp] <;> rfl
    · exact .inl ⟨rfl, rfl⟩
  | running h => exact .inr ⟨by simp [h, partMoves], by simp, .inl (by simp)⟩
  | compared h =>
    unfold comparisonDue at h
    simp only [Bool.and_eq_true, decide_eq_true_eq] at h
    unfold startupCompared
    split
    · exact .inl (by simp)
    · exact .inr ⟨by simp [h.1, partMoves], by simp, .inl (by simp)⟩
  | completed img h => exact .inr ⟨by simp [h, partMoves], by simp, .inl (by simp)⟩

theorem Ends.routed {s t : State} (h : Ends s t) : Routed s t := by
  rcases h with h | ⟨x, y, hx, hy, ht⟩
  · exact .inl ⟨h.same.2.1, h.same.2.2.1⟩
  · have hmove := hy.routed
    unfold Routed at hmove ⊢
    obtain ⟨-, hp, htr, -⟩ := hx.same
    rw [hp, htr] at hmove
    simpa only [ht.same] using hmove

/-- An arrival moves the part state by the routes of R174; TRIPPED it does not leave. -/
theorem Follows.routed {s t : State} (h : Follows s t) :
    (t.part = s.part ∨ partMoves s.part t.part = true) ∧ (t.trip = s.trip ∨ (s.part ≠ .tripped ∧ t.part = .tripped)) := by
  rcases h with h | ⟨x, e, p, o, hx, rfl⟩
  · exact ⟨.inl (by simp only [h.same]), .inl (by simp only [h.same])⟩
  · have htrip : (finishWith e p o x).trip = x.trip := by simp
    rw [htrip]
    rcases (finishWith_concluded e p o x).part with ⟨hp, -⟩ | ⟨hp, ht, -⟩
    · rw [hp]
      rcases hx.routed with ⟨h1, h2⟩ | ⟨h1, -, h3⟩
      · exact ⟨.inl h1, .inl h2⟩
      · exact ⟨.inr h1, h3.imp_right fun h3 => ⟨partMoves_from h1, h3⟩⟩
    · rw [ht]
      rcases hx.routed with ⟨h1, h2⟩ | ⟨-, h2, -⟩
      · refine ⟨.inr ?_, .inl h2⟩
        rw [← h1, hp]
        rfl
      · exact absurd hp h2

/-- Settles O54. -/
theorem partStateRoutes : Obligations.PartStateRoutes := by
  unfold Obligations.PartStateRoutes
  intro c s t h
  cases hc : isReset c with
  | true =>
    obtain ⟨t', ht', rfl | ⟨k, held, rfl⟩⟩ := exec_reset c s hc
    · cases h.symm.trans ht'
      exact ⟨.inl rfl, .inl rfl, fun _ h => nomatch h⟩
    · cases h.symm.trans ht'
      refine ⟨.inr (.inr ⟨rfl, rfl⟩), ?_, fun _ h => nomatch h⟩
      cases k with
      | power => exact .inr (.inr ⟨rfl, rfl⟩)
      | pin | restart => exact .inl rfl
  | false =>
    have hkept : (t.part = s.part ∨ partMoves s.part t.part = true) ∧
        (t.trip = s.trip ∨ (s.part ≠ .tripped ∧ t.part = .tripped)) := by
      obtain ⟨t', ht', ⟨-, rfl⟩ | ⟨-, dt, ha⟩⟩ := exec_arrives c s hc
      · cases h.symm.trans ht'
        exact ⟨.inl rfl, .inl rfl⟩
      · cases h.symm.trans ht'
        exact ha.follows.routed
    obtain ⟨hpart, htrip⟩ := hkept
    refine ⟨hpart.imp_right .inl, htrip.imp_right .inl, fun hs _ => ?_⟩
    rcases hpart with hp | hp
    · exact hp.trans hs
    · exact absurd hs (partMoves_from hp)

end Sys2Proof.Machine
end

section
/-! PROOF. Every step keeps every queue within its capacity (R8, R12, R113, R178). -/

namespace Sys2Proof.Machine

/-! ### The capacities, operation by operation -/

/-- What is within the capacities in `s` is so in `t`. -/
abbrev Bounded (s t : State) : Prop := Capacities s → Capacities t

theorem Hushed.bounded {s t : State} (h : Hushed s t) : Bounded s t := h.capacities

theorem raise_bounded (s : State) (k : EventKind) (o d : Nat) : Bounded s (raise s k o d) := (raise_hushed s k o d).capacities

theorem raiseAll_bounded (s : State) (es : List (EventKind × Nat × Nat)) : Bounded s (raiseAll s es) :=
  (raiseAll_hushed s es).capacities

theorem Bounded.foldl {α : Type} {f : State → α → State} (hf : ∀ s x, Bounded s (f s x)) (l : List α) (s : State) :
    Bounded s (l.foldl f s) :=
  foldl_rel Bounded (fun _ => id) (fun _ _ _ h h' => h' ∘ h) f hf l s

/-- Whatever leaves the queues as they are is within the capacities. -/
theorem Bounded.same {s t : State} (hq : t.outQueue = s.outQueue := by simp)
    (hp : t.pendingReturns = s.pendingReturns := by simp) (he : t.events = s.events := by simp)
    (ha : t.lineA = s.lineA := by simp) (hb : t.lineB = s.lineB := by simp) : Bounded s t := by
  unfold Bounded Capacities
  rw [hq, hp, he, ha, hb]
  exact id

theorem raiseAlarm_hushed (s : State) (p : Nat) (st : LampState) (a : Alarm) (k : Option EventKind) :
    Hushed s (raiseAlarm s p st a k) := by
  unfold raiseAlarm
  split
  · exact raise_hushed _ _ _ _
  · exact raise_hushed _ _ _ _
  · exact .refl s

theorem changeLamp_bounded (s : State) (p : Nat) (new : LampRec) : Bounded s (changeLamp s p new) := by
  intro h
  unfold changeLamp
  split
  · exact (raiseAlarm_hushed _ _ _ _ _).capacities h
  · exact h

theorem lampLost_bounded (s : State) (p : Nat) : Bounded s (lampLost s p) := by
  unfold lampLost
  split
  · exact changeLamp_bounded s p _
  · exact id

theorem alarmsAgree_bounded (s : State) : Bounded s (alarmsAgree s) :=
  Bounded.foldl (fun s p h => (raiseAlarm_hushed (modifyLamp s p.1 _) _ _ _ _).capacities h) _ s

theorem objectsLost_bounded (b : Bank) (k : UnitKind) (ns : List Nat) (s : State) : Bounded s (objectsLost b k ns s) := by
  unfold objectsLost
  split
  · exact .same
  · exact Bounded.foldl (fun s n => by unfold leverLost; exact .same) ns s
  · exact Bounded.foldl lampLost_bounded ns s
  · exact Bounded.foldl (fun s n => by unfold commutatorLost; exact .same) ns s
  · exact id
  · exact id
  · exact id

theorem farArrives_bounded (s : State) (b : Bank) (n : Nat) (x : Instrument) : Bounded s (farArrives s b n x) := by
  intro h
  unfold farArrives
  split
  · split
    · exact h
    · dsimp only
      split
      · split
        · exact raise_bounded _ _ _ _ h
        · exact raise_bounded _ _ _ _ h
      · exact h
  · exact h

theorem takeCommutator_bounded (s : State) (b : Bank) (n : Nat) (x : Instrument) : Bounded s (takeCommutator s b n x) := by
  intro h
  unfold takeCommutator
  split
  · split
    · exact h
    · dsimp only
      split
      · exact h
      · split
        · exact h
        · split
          · exact raise_bounded _ _ _ _ h
          · split
            · exact h
            · exact h
  · exact h

theorem acknowledge_bounded (s : State) : Bounded s (acknowledge s) := by
  unfold acknowledge
  split <;> exact id

theorem enterProbing_bounded (s : State) (a : Nat) : Bounded s (enterProbing s a) := by
  intro h
  unfold enterProbing
  split
  · refine place_capacities _ _ ?_
    split
    · exact h
    · exact raise_bounded _ _ _ _ h
  · exact h

theorem trackTakes_bounded (b : Bank) (x : Sample) (acc : State × List Nat) (t : Nat) :
    Bounded acc.1 (trackTakes b x acc t).1 := by
  intro h
  unfold trackTakes
  split
  · dsimp only
    split
    · exact raise_bounded _ _ _ _ h
    · exact h
  · exact h

theorem provingJudged_bounded (old : Recs TrackRec) (b : Bank) (s : State) : Bounded s (provingJudged old b s) :=
  fun h => raiseAll_bounded _ _ h

theorem clearingDecision_bounded (nb : Recs TrackRec) (b : Bank) (s : State) (t : Nat) :
    Bounded s (clearingDecision nb b s t) := by
  intro h
  unfold clearingDecision
  split
  · split
    · exact h
    · exact raise_bounded _ _ _ _ h
  · exact h

theorem firstPass_bounded (b : Bank) (a : Nat) (bytes : List Byte) (s : State) : Bounded s (firstPass b a bytes s).1 := by
  have htaken : ∀ (l : List (Nat × Nat)) (acc : State × List Nat), Capacities acc.1 →
      Capacities (l.foldl (fun acc p => trackTakes b (sampleAt bytes p.1) acc p.2) acc).1 := by
    intro l
    induction l with
    | nil => exact fun _ h => h
    | cons p l ih => exact fun acc h => ih _ (trackTakes_bounded b _ acc p.2 h)
  have hhanded : ∀ x, Bounded x (tracksHanded s.tracks b x) := fun x => .same
  exact fun h => hhanded _ (provingJudged_bounded _ _ _ (htaken _ (s, []) h))

theorem secondPass_bounded (b : Bank) (w : List Nat) (s : State) : Bounded s (secondPass b w s) :=
  have hhanded : ∀ x, Bounded x (tracksHanded s.tracks b x) := fun x => .same
  fun h => hhanded _ (Bounded.foldl (clearingDecision_bounded s.tracks b) w s h)

theorem strokeTest_bounded (b : Bank) (ended : List (Nat × Position)) (s : State) (n : Nat) :
    Bounded s (strokeTest b ended s n) := by
  intro h
  unfold strokeTest
  split
  · split
    · split
      · exact raise_bounded _ _ _ _ h
      · exact h
    · exact h
  · exact h

theorem leverRounds_bounded (b : Bank) (ended : List (Nat × Position)) (k : Nat) (s : State) (h : Capacities s) :
    ∀ y ∈ leverRounds b ended k s, Capacities y := by
  induction k generalizing s with
  | zero => exact fun y hy => List.mem_singleton.1 hy ▸ h
  | succ k ih =>
    intro y hy
    unfold leverRounds at hy
    dsimp only at hy
    split at hy
    · exact List.mem_singleton.1 hy ▸ h
    · rcases List.mem_cons.1 hy with rfl | hy
      · exact h
      · exact ih (strokeTests b ended (decideAll b s)) (Bounded.foldl (strokeTest_bounded b ended) _ (decideAll b s) h) y hy

theorem concludeLevers_bounded (ended : List (Nat × Position)) (s : State) : Bounded s (concludeLevers ended s) := by
  have hall : Capacities s → ∀ y ∈ leverReadings ended s, Capacities y := by
    intro h
    unfold leverReadings
    split
    · exact leverRounds_bounded _ ended _ _ h
    · exact fun y hy => List.mem_singleton.1 hy ▸ h
  exact fun h => hall h _ (getLastD_mem (leverReadings_read ended s).1 s)

/-! ### The changes and the moves of an arrival -/

theorem Alters.bounded {s t : State} (h : Alters s t) : Bounded s t := by
  cases h with
  | hushed h => exact h.capacities
  | placed f => exact place_capacities s f
  | windowEnds a => exact windowEnd_capacities place_capacities s a
  | probing a => exact enterProbing_bounded s a
  | line l f hq =>
    rintro ⟨h1, h2, h3, h4, h5⟩
    cases l
    · exact ⟨h1, h2, h3, hq h4, h5⟩
    · exact ⟨h1, h2, h3, h4, hq h5⟩
  | objectsFall b a => exact objectsLost_bounded b _ _ s
  | farArrives b n x => exact farArrives_bounded s b n x
  | commutator b n x => exact takeCommutator_bounded s b n x
  | lamp p new => exact changeLamp_bounded s p new
  | acknowledged => exact acknowledge_bounded s
  | sampled b a bytes =>
    have hmodes : ∀ x, Bounded x (modesComputed b x) := fun x => id
    exact fun h => secondPass_bounded b _ _ (hmodes _ (concludeLevers_bounded [] _ (firstPass_bounded b a bytes s h)))
  | pickedUp b n =>
    have hhanded : ∀ x, Bounded x (tracksHanded s.tracks b x) := fun x => .same
    exact fun h => hhanded _ (clearingDecision_bounded s.tracks b s n h)
  | restoredTrack b n r active =>
    have hhanded : ∀ x, Bounded x (tracksHanded s.tracks b x) := fun x => .same
    have hwritten : Bounded s (modifyTrack s n fun _ => restored active (b.trackEntry n) r) := .same
    exact fun h => hhanded _ (provingJudged_bounded s.tracks b _ (hwritten h))
  | unit | bell | exchange | groups | store | farLost | released | reported | lever => exact .same

theorem Leads.bounded {s t : State} (h : Leads s t) : Bounded s t := by
  induction h with
  | refl => exact id
  | tail _ h ih => exact h.bounded ∘ ih

theorem heldTripped_bounded (s : State) : Bounded s (heldTripped s) := by
  intro h
  unfold heldTripped bankStored
  split
  · exact raise_bounded _ _ _ _ h
  · exact h

theorem tripCause_bounded (s : State) (c : TripCause) (o : Nat) (x y : Option Byte) : Bounded s (tripCause s c o x y) := by
  intro h
  unfold tripCause
  split
  · exact raise_bounded _ _ _ _ h
  · exact h
  · have hentered := raise_bounded
      { s with part := .tripped, trip := some (tripRecord s c o x y), startTimer := none } .trip o c.code h
    have hsections : ∀ z, Bounded z (sectionsAtTrip z) := by
      intro z
      unfold sectionsAtTrip
      split <;> exact id
    have halarms : ∀ z, Bounded z (alarmsAtTrip s.part z) := by
      intro z
      unfold alarmsAtTrip
      split
      · exact id
      · exact alarmsAgree_bounded z
    exact heldTripped_bounded _ (halarms _ (hsections _ hentered))

theorem startingEnds_bounded (s : State) : Bounded s (startingEnds s) :=
  fun h => raise_bounded _ _ _ _ (alarmsAgree_bounded { s with part := .running, startTimer := none } h)

theorem lineStarted_bounded (s : State) (b : Bank) (l : Line) : Bounded s (lineStarted s b l) := by
  intro h
  have hline : ∀ (x : State) (f : LineRec → LineRec), (∀ r, (f r).queue.length ≤ 16) → Bounded x (modifyLine x l f) :=
    fun x f hf => (Alters.line x l f fun _ => hf _).bounded
  have hemptied := hline _ (fun r => { r with queue := [] }) (fun _ => Nat.zero_le _)
    (raiseAll_bounded s ((strokesOf (s.line l).queue).map fun c => (.strokeDropped, l.code, c)) h)
  unfold lineStarted
  dsimp only
  refine hline _ _ (fun _ => (by decide : 1 ≤ 16)) ?_
  split
  · exact (linkLost_leads _ (some b) l).bounded hemptied
  · exact hemptied

theorem linesAdopted_bounded (old : Option Bank) (new : Bank) (s : State) : Bounded s (linesAdopted old new s) := by
  have hstart : ∀ (c : Bool) (x : State) (l : Line), Bounded x (if c then lineStarted x new l else x) := by
    intro c x l
    split
    · exact lineStarted_bounded x new l
    · exact id
  exact fun h => hstart _ _ .b (hstart _ _ .a h)

theorem bankAdopted_bounded (img : BankImage) (s : State) : Bounded s (bankAdopted img s) := by
  intro h
  have hlamps : ∀ old new l x, Bounded x (lampsAdopted old new l x) := fun old new l x h =>
    Bounded.foldl lampLost_bounded l { x with lamps := _ } h
  have hprobes : ∀ old new x, Bounded x (probesPlaced old new x) := fun old new x => Bounded.foldl place_capacities _ x
  have hrecords : ∀ old new t l c x, Bounded x (sectionsAdopted old new c (leversAdopted old new l (tracksAdopted old new t
      (unitsAdopted old new (refreshStarted old new { x with active := some img }))))) := fun old new t l c x => .same
  have hhanded : ∀ ts b x, Bounded x (tracksHanded ts b (groupsAdopted s.bank b x)) := fun ts b x => .same
  exact linesAdopted_bounded _ _ _ (hprobes _ _ _ (hhanded _ _ _ (hlamps _ _ _ _ (hrecords _ _ _ _ _ _ h))))

theorem Moves.bounded {s t : State} (h : Moves s t) : Bounded s t := by
  cases h with
  | trip c o x y => exact tripCause_bounded s c o x y
  | switching => unfold switchTaken; split <;> exact id
  | running => exact startingEnds_bounded s
  | compared =>
    intro h
    unfold startupCompared
    split
    · have htimed : ∀ x t, Bounded x { x with startTimer := t } := fun x t => id
      exact htimed _ _ (bankAdopted_bounded _ _ h)
    · exact raise_bounded _ _ _ _ h
  | completed img =>
    have hrunning : ∀ x, Bounded x { x with part := .running } := fun x => id
    have hchecked : Bounded s { s with check := .unchecked, switchHeld := false } := id
    exact fun h => raise_bounded _ _ _ _ (alarmsAgree_bounded _ (hrunning _ (bankAdopted_bounded img _ (hchecked h))))

theorem Ends.bounded {s t : State} (h : Ends s t) : Bounded s t := by
  rcases h with h | ⟨x, y, hx, hy, ht⟩
  · exact h.bounded
  · exact fun h => ht.capacities (hy.bounded (hx.bounded h))

/-! ### The end of an arrival -/

theorem instrPlaced_bounded (old : State) (b : Bank) (s : State) : Bounded s (instrPlaced old b s) := by
  refine Bounded.foldl (fun s p => ?_) _ s
  split
  · split
    · exact id
    · exact (placeLine_hushed _ _ _).capacities
  · exact id

theorem commandsPlaced_bounded (start : State) (stage : List State) (b : Bank) (k : UnitKind) (s : State) :
    Bounded s (commandsPlaced start stage b k s) := by
  refine Bounded.foldl (fun s a => ?_) _ s
  unfold commandPlaced
  split
  · split
    · exact place_capacities s _
    · exact id
  · exact id

theorem settle_bounded (start : State) (stage : List State) (s : State) : Bounded s (settle start stage s) := by
  intro h
  unfold settle
  split
  · exact commandsPlaced_bounded _ _ _ _ _ (commandsPlaced_bounded _ _ _ _ _ (commandsPlaced_bounded _ _ _ _ _
      (instrPlaced_bounded _ _ _ h)))
  · exact h

theorem settlePass_bounded (pass : List State) (s : State) : Bounded s (settlePass pass s) := by
  intro h
  unfold settlePass
  split
  · exact commandsPlaced_bounded _ _ _ _ _ (commandsPlaced_bounded _ _ _ _ _ h)
  · exact h

theorem startingChecked_bounded (s : State) : Bounded s (startingChecked s) := by
  unfold startingChecked
  split
  · exact startingEnds_bounded s
  · exact id

theorem readingsWith_bounded (ended : List (Nat × Position)) (s d : State) :
    Bounded s ((readingsWith ended s).getLastD d) := by
  intro h
  have hfirst := concludeLevers_bounded ended s h
  rw [readingsWith_last]
  split
  · exact hfirst
  · exact concludeLevers_bounded [] _ (startingChecked_bounded _ hfirst)

theorem startingEnded_bounded (s : State) : Bounded s (startingEnded s) := by
  intro h
  unfold startingEnded
  dsimp only
  split
  · exact h
  · exact settle_bounded _ _ _ (concludeLevers_bounded [] _ (startingChecked_bounded s h))

theorem finishWith_bounded (ended : List (Nat × Position)) (pass : List State) (old s : State) :
    Bounded s (finishWith ended pass old s) :=
  fun h => (arbiters_hushed _).capacities (startingEnded_bounded _ (settle_bounded _ _ _ (settlePass_bounded _ _
    (readingsWith_bounded ended s s h))))

theorem Follows.bounded {s t : State} (h : Follows s t) : Bounded s t := by
  rcases h with h | ⟨x, e, p, o, hx, rfl⟩
  · exact h.capacities
  · exact fun h => finishWith_bounded e p o x (hx.bounded h)

/-- Settles O56. -/
theorem capacitiesAreKept : Obligations.CapacitiesAreKept := by
  unfold Obligations.CapacitiesAreKept
  intro s t hs h
  refine step_keeps (P := Capacities) (fun s q h => h) (fun c s t h hs => ?_) h hs
  refine exec_keeps ?_ (fun s dt h => h) (fun s t hs ha => ha.follows.bounded hs) h hs
  intro k held s _
  exact ⟨Nat.zero_le _, Nat.zero_le _, Nat.zero_le _, Nat.zero_le _, Nat.zero_le _⟩

end Sys2Proof.Machine
end

section
/-! PROOF. The state after power-on: no record, no bank, and every lock of no lever. -/

namespace Sys2Proof.Machine

theorem reset_interlocked : Interlocked State.reset where
  banked _ := rfl
  held _ _ hp := nomatch hp
  fits _ hp := nomatch hp
  numbered := List.nodup_nil
  atNormal _ hb := nomatch hb
  atReverse _ hb := nomatch hb
  strokeN _ hb := nomatch hb
  strokeR _ hb := nomatch hb
  told _ hp := nomatch hp

theorem reset_capacities : Capacities State.reset :=
  ⟨Nat.zero_le _, Nat.zero_le _, Nat.zero_le _, Nat.zero_le _, Nat.zero_le _⟩

/-- Settles O59. -/
theorem resetStateIsSound : Obligations.ResetStateIsSound := by
  unfold Obligations.ResetStateIsSound
  exact ⟨reset_capacities, reset_interlocked, ⟨fun _ => rfl, fun _ hb => nomatch hb⟩, ⟨fun _ => rfl, fun _ hb => nomatch hb⟩,
    ⟨fun _ => rfl, List.nodup_nil, fun _ _ hp => nomatch hp⟩, rfl, rfl, rfl, rfl, rfl, rfl, rfl, rfl, rfl, rfl, rfl, rfl, rfl,
    rfl, rfl, rfl, rfl, rfl, rfl, rfl, rfl⟩

end Sys2Proof.Machine
end

section
/-! PROOF. LE's conclusion of an arrival interlocks the frame: whatever the arrival has left of a sane frame, the last reading
leaves every lever at an end FREE exactly while its release test holds, and every lost FREE stroke with its flag set. -/

namespace Sys2Proof.Machine

/-! ### Records whose numbers differ -/

theorem recAt_eq_some_of_mem {α : Type} {r : Recs α} (hr : (r.map Prod.fst).Nodup) {n : Nat} {x : α} (h : (n, x) ∈ r) :
    recAt r n = some x := by
  induction r with
  | nil => cases h
  | cons p r ih =>
    obtain ⟨m, y⟩ := p
    rw [List.map_cons, List.nodup_cons] at hr
    rw [recAt_cons]
    rcases List.mem_cons.1 h with h | h
    · cases h
      exact if_pos rfl
    · have hne : m ≠ n := by
        rintro rfl
        exact hr.1 (List.mem_map.2 ⟨_, h, rfl⟩)
      rw [if_neg hne]
      exact ih hr.2 h

theorem mapRec_numbers {α β : Type} (r : Recs α) (g : Nat → α → β) :
    (r.map fun p => (p.1, g p.1 p.2)).map Prod.fst = r.map Prod.fst := by
  rw [List.map_map]
  rfl

/-! ### A sane frame -/

/-- A lever's release state fits where it stands, and a stroke that has raised its loss has the flag set (R70, R79). -/
def leverSane (l : LeverRec) : Prop :=
  leverFits l ∧ (l.release = .strokeN ∨ l.release = .strokeR → l.lossTold = true → l.strokeLoss = true)

/-- What holds of the levers while an arrival is under way, before LE has concluded. -/
structure FrameSane (s : State) : Prop where
  banked : s.active = none → s.levers = []
  numbered : (s.levers.map Prod.fst).Nodup
  sane : ∀ p ∈ s.levers, leverSane p.2

theorem Interlocked.sane {s : State} (h : Interlocked s) : FrameSane s :=
  ⟨h.banked, h.numbered, fun p hp => ⟨h.fits p hp, h.told p hp⟩⟩

theorem FrameSane.same {s t : State} (h : FrameSane s) (ha : t.active = s.active := by simp)
    (hl : t.levers = s.levers := by simp) : FrameSane t :=
  ⟨fun ht => hl.trans (h.banked (ha.symm.trans ht)), hl ▸ h.numbered, hl ▸ h.sane⟩

/-- Each lever's record may be changed by what keeps it sane. -/
theorem FrameSane.mapLevers {s t : State} (h : FrameSane s) {g : Nat → LeverRec → LeverRec}
    (hl : t.levers = s.levers.map fun p => (p.1, g p.1 p.2)) (hg : ∀ n l, leverSane l → leverSane (g n l))
    (ha : t.active = s.active := by simp) : FrameSane t where
  banked ht := by rw [hl, h.banked (ha.symm.trans ht)]; rfl
  numbered := by rw [hl, mapRec_numbers]; exact h.numbered
  sane p hp := by
    rw [hl] at hp
    obtain ⟨q, hq, rfl⟩ := List.mem_map.1 hp
    exact hg q.1 q.2 (h.sane q hq)

/-- One lever's record may be changed by what leaves it sane. -/
theorem FrameSane.modifyLever {s : State} (h : FrameSane s) (n : Nat) {f : LeverRec → LeverRec}
    (hf : ∀ l, (n, l) ∈ s.levers → leverSane (f l)) : FrameSane (modifyLever s n f) where
  banked ha := by rw [modifyLever_levers, h.banked (by simpa using ha)]; rfl
  numbered := by rw [modifyLever_levers, modifyRec_numbers]; exact h.numbered
  sane := by
    rw [modifyLever_levers]
    exact modifyRec_all (P := fun _ l => leverSane l) h.sane fun l hl _ => hf l hl

theorem lockedUnless_sane (c : Bool) {l : LeverRec} (h : leverSane l) : leverSane (lockedUnless c l) := by
  unfold lockedUnless
  split
  · exact h
  · exact h

theorem decided_sane (s : State) (b : Bank) (n : Nat) {l : LeverRec} (h : leverSane l) : leverSane (decided s b n l) := by
  obtain ⟨hfits, htold⟩ := h
  unfold leverFits at hfits
  unfold decided
  cases hr : l.release <;> simp only [hr] at hfits htold <;> simp only [endOf]
  case nLocked | nFree | rLocked | rFree => split <;> exact ⟨by simpa [leverFits] using hfits, by simp⟩
  case strokeN | strokeR => exact ⟨by simpa [leverFits, hr] using hfits, by simpa [hr] using htold⟩
  case unknown => exact ⟨by simpa [leverFits, hr] using hfits, by simp⟩

theorem decideAll_sane {b : Bank} {s : State} (h : FrameSane s) : FrameSane (decideAll b s) :=
  h.mapLevers (g := decided s b) rfl (fun n _ hl => decided_sane s b n hl) rfl

theorem strokeTest_sane {b : Bank} {ended : List (Nat × Position)} {s : State} (n : Nat) (h : FrameSane s) :
    FrameSane (strokeTest b ended s n) := by
  have hset : FrameSane (modifyLever s n fun x => { x with strokeLoss := true, lossTold := true }) :=
    h.modifyLever n fun l hl => ⟨(h.sane _ hl).1, fun _ _ => rfl⟩
  unfold strokeTest
  split
  · split
    · split
      · exact hset.same
      · exact h
    · exact h
  · exact h

theorem strokeTests_sane {b : Bank} {ended : List (Nat × Position)} {s : State} (h : FrameSane s) :
    FrameSane (strokeTests b ended s) := by
  unfold strokeTests
  generalize s.levers.map Prod.fst = ns
  induction ns generalizing s with
  | nil => exact h
  | cons n ns ih => exact ih (strokeTest_sane n h)

/-! ### Locks while the part does not run -/

/-- While the part is not RUNNING every lock is LOCKED (R73). -/
def LocksHeld (s : State) : Prop := s.part ≠ .running → ∀ p ∈ s.levers, p.2.lock = .locked

theorem LocksHeld.same {s t : State} (h : LocksHeld s) (hp : t.part = s.part := by simp)
    (hl : t.levers = s.levers := by simp) : LocksHeld t := by
  unfold LocksHeld
  rw [hp, hl]
  exact h

theorem releaseTest_running {s : State} {b : Bank} {n : Nat} {l : LeverRec} {r : ListRange}
    (h : releaseTest s b n l r = true) : s.part = .running := by
  unfold releaseTest at h
  simp only [Bool.and_eq_true, decide_eq_true_eq] at h
  obtain ⟨⟨⟨⟨⟨-, hp⟩, -⟩, -⟩, -⟩, -⟩ := h
  exact hp

theorem decided_locked {s : State} {b : Bank} {n : Nat} {l : LeverRec} (hp : s.part ≠ .running) (h : l.lock = .locked) :
    (decided s b n l).lock = .locked := by
  have hclosed : ∀ r, releaseTest s b n l r = false := fun r => Bool.eq_false_iff.2 fun hr => hp (releaseTest_running hr)
  unfold decided
  dsimp only
  split
  · rw [hclosed]; rfl
  · rw [hclosed]; rfl
  · split
    · rfl
    · exact h

theorem decideAll_locksHeld {b : Bank} {s : State} (h : LocksHeld s) : LocksHeld (decideAll b s) := by
  intro hp p hpmem
  obtain ⟨q, hq, rfl⟩ := List.mem_map.1 hpmem
  exact decided_locked hp (h hp q hq)

theorem strokeTest_locksHeld {b : Bank} {ended : List (Nat × Position)} {s : State} (n : Nat) (h : LocksHeld s) :
    LocksHeld (strokeTest b ended s n) := by
  have hset : LocksHeld (modifyLever s n fun x => { x with strokeLoss := true, lossTold := true }) := by
    intro hp
    rw [modifyLever_levers]
    exact modifyRec_all (P := fun _ (l : LeverRec) => l.lock = .locked) (h hp) fun _ _ hl => hl
  unfold strokeTest
  split
  · split
    · split
      · exact hset.same
      · exact h
    · exact h
  · exact h

theorem strokeTests_locksHeld {b : Bank} {ended : List (Nat × Position)} {s : State} (h : LocksHeld s) :
    LocksHeld (strokeTests b ended s) := by
  unfold strokeTests
  generalize s.levers.map Prod.fst = ns
  induction ns generalizing s with
  | nil => exact h
  | cons n ns ih => exact ih (strokeTest_locksHeld n h)

/-! ### What the lists read -/

/-- What the conditions read of a lever (R89, R90, R91). -/
def leverRead (l : LeverRec) : LeverRec := { l with release := .unknown, lock := .locked, lossTold := false }

/-- The records and the states that the lists and the release tests read. -/
structure ReadsSame (s t : State) : Prop where
  levers : cores leverRead t.levers = cores leverRead s.levers
  tracks : t.tracks = s.tracks
  sections : t.sections = s.sections
  lamps : ∀ n, lampProven t n = lampProven s n
  part : t.part = s.part
  links : ∀ l, (t.line l).link = (s.line l).link
  obstructions : ∀ l, t.obstruction l = s.obstruction l
  active : ∀ a, t.unitActive a = s.unitActive a

theorem cores_recAt_cases {α β : Type} {f : α → β} {r r' : Recs α} (h : cores f r' = cores f r) (n : Nat) :
    (recAt r' n = none ∧ recAt r n = none) ∨ ∃ x y, recAt r' n = some x ∧ recAt r n = some y ∧ f x = f y := by
  have hn := cores_recAt h n
  cases hx : recAt r' n with
  | none =>
    rw [hx] at hn
    exact .inl ⟨rfl, Option.map_eq_none_iff.1 hn.symm⟩
  | some x =>
    rw [hx] at hn
    obtain ⟨y, hy, hf⟩ := Option.map_eq_some_iff.1 hn.symm
    exact .inr ⟨x, y, rfl, hy, hf.symm⟩

theorem readsNormal_congr {l m : LeverRec} (h : leverRead l = leverRead m) : readsNormal l = readsNormal m :=
  show readsNormal (leverRead l) = readsNormal (leverRead m) from congrArg _ h

theorem readsReverse_congr {l m : LeverRec} (h : leverRead l = leverRead m) : readsReverse l = readsReverse m :=
  show readsReverse (leverRead l) = readsReverse (leverRead m) from congrArg _ h

theorem readsNormalIf_congr {l m x y : LeverRec} (h : leverRead l = leverRead m) (h' : leverRead x = leverRead y) (p : Byte) :
    readsNormalIf l x p = readsNormalIf m y p :=
  show readsNormalIf (leverRead l) (leverRead x) p = readsNormalIf (leverRead m) (leverRead y) p by rw [h, h']

theorem ReadsSame.conditionHolds {s t : State} (h : ReadsSame s t) (b : Bank) (e : PoolEntry) :
    conditionHolds t b e = conditionHolds s b e := by
  have hothers : ∀ n, trackClear t n = trackClear s n ∧ sectionClear t b n = sectionClear s b n ∧
      sectionBlocked t b n = sectionBlocked s b n := fun n => by
    unfold trackClear sectionClear sectionBlocked
    rw [h.tracks, h.sections, h.part]
    simp only [h.links, h.obstructions, and_self]
  unfold Machine.conditionHolds
  simp only [hothers, h.lamps]
  rcases cores_recAt_cases h.levers e.object.toNat with ⟨ht, hs⟩ | ⟨m, m', ht, hs, hm⟩
  · simp only [ht, hs]
  · rcases cores_recAt_cases h.levers e.second.toNat with ⟨ht', hs'⟩ | ⟨x, x', ht', hs', hx⟩
    · simp only [ht, hs, ht', hs', readsNormal_congr hm, readsReverse_congr hm]
    · simp only [ht, hs, ht', hs', readsNormal_congr hm, readsReverse_congr hm, readsNormalIf_congr hm hx]

theorem ReadsSame.listHolds {s t : State} (h : ReadsSame s t) (b : Bank) (r : ListRange) : listHolds t b r = listHolds s b r := by
  unfold Machine.listHolds
  exact congrArg (fun f => (b.covered r).all f) (funext fun e => h.conditionHolds b e.2)

theorem ReadsSame.releaseTest {s t : State} (h : ReadsSame s t) (b : Bank) (n : Nat) {l m : LeverRec} (r : ListRange)
    (hc : m.catchUp = l.catchUp) (hv : m.violation = l.violation) : releaseTest t b n m r = releaseTest s b n l r := by
  unfold Machine.releaseTest
  rw [h.listHolds, h.part, hc, hv]
  simp only [h.active]

theorem ReadsSame.released {s t : State} (h : ReadsSame s t) (b : Bank) (n : Nat) (l : LeverRec) (r : ListRange) :
    Released t b n l r ↔ Released s b n l r := by
  unfold Released
  rw [h.part]
  simp only [h.active, h.conditionHolds]

/-- R72's words for the release test. -/
theorem released_iff (s : State) (b : Bank) (n : Nat) (l : LeverRec) (r : ListRange) :
    Released s b n l r ↔ releaseTest s b n l r = true := by
  unfold Released releaseTest listHolds
  simp only [Bool.and_eq_true, decide_eq_true_eq, Bool.not_eq_true', List.all_eq_true, and_assoc]
  refine and_congr_right fun _ => and_congr_right fun _ => and_congr ?_ Iff.rfl
  cases b.assignment .lfu n with
  | none => simp
  | some p => obtain ⟨a, c⟩ := p; simp

theorem decideAll_readsSame (b : Bank) (s : State) : ReadsSame s (decideAll b s) where
  levers := cores_map leverRead s.levers (decided s b) fun p _ => by
    unfold decided
    dsimp only
    repeat' split
    all_goals rfl
  tracks := rfl
  sections := rfl
  lamps _ := rfl
  part := rfl
  links l := by cases l <;> rfl
  obstructions l := by cases l <;> rfl
  active _ := rfl

/-! ### The rounds come to an end -/

/-- The levers that have not raised the loss of their stroke. -/
def untold (r : Recs LeverRec) : Nat := r.countP fun p => !p.2.lossTold

theorem decideAll_untold (b : Bank) (s : State) : untold (decideAll b s).levers = untold s.levers := by
  unfold untold decideAll
  dsimp only
  rw [List.countP_map]
  refine congrArg (fun f => s.levers.countP f) (funext fun p => ?_)
  have : (decided s b p.1 p.2).lossTold = p.2.lossTold := by
    unfold decided
    dsimp only
    repeat' split
    all_goals rfl
  simp [this]

theorem untold_modify_lt {r : Recs LeverRec} {n : Nat} {l : LeverRec} {f : LeverRec → LeverRec} (h : recAt r n = some l)
    (hl : l.lossTold = false) (hf : ∀ x, (f x).lossTold = true) : untold (modifyRec r n f) < untold r := by
  have hle : ∀ r : Recs LeverRec, untold (modifyRec r n f) ≤ untold r := by
    intro r
    unfold untold modifyRec
    rw [List.countP_map]
    refine List.countP_mono_left fun p _ hp => ?_
    simp only [Function.comp_apply] at hp
    split at hp
    · simp [hf] at hp
    · exact hp
  induction r with
  | nil => cases h
  | cons p r ih =>
    rw [recAt_cons] at h
    have hstep : untold (modifyRec (p :: r) n f) =
        untold (modifyRec r n f) + if p.1 = n then 0 else if p.2.lossTold then 0 else 1 := by
      unfold untold modifyRec
      rw [List.map_cons, List.countP_cons]
      cases hp : p.2.lossTold <;> split <;> simp [hp, hf]
    have hcount : untold (p :: r) = untold r + if p.2.lossTold then 0 else 1 := by
      unfold untold
      rw [List.countP_cons]
      cases p.2.lossTold <;> rfl
    rw [hstep, hcount]
    split at h
    · next hp =>
      have hx : p.2 = l := Option.some.inj h
      have := hle r
      simp only [hp, hx, hl, if_true, Bool.false_eq_true, if_false]
      omega
    · next hp =>
      have := ih h
      rw [if_neg hp]
      omega

/-- A test that fires leaves a lever fewer that has not raised its loss; one that does not leaves all as it is. -/
theorem strokeTest_cases (b : Bank) (ended : List (Nat × Position)) (s : State) (n : Nat) :
    strokeTest b ended s n = s ∨ untold (strokeTest b ended s n).levers < untold s.levers := by
  unfold strokeTest
  split
  · next l hl =>
    split
    · split
      · next h =>
        simp only [Bool.and_eq_true, Bool.not_eq_true'] at h
        exact .inr (by simpa using untold_modify_lt hl h.1 fun _ => rfl)
      · exact .inl rfl
    · exact .inl rfl
  · exact .inl rfl

/-- A test that does not fire: the stroke has raised its loss, or its list holds. -/
theorem strokeTest_quiet {b : Bank} {ended : List (Nat × Position)} {s : State} {n : Nat} {l : LeverRec} {stood : Position}
    (h : strokeTest b ended s n = s) (hl : recAt s.levers n = some l) (ht : testedEnd ended n l = some stood) :
    l.lossTold = true ∨ listHolds s b (listFor (b.leverEntry n) stood) = true := by
  by_contra hno
  rw [not_or, Bool.not_eq_true, Bool.not_eq_true] at hno
  have hfires : untold (strokeTest b ended s n).levers < untold s.levers := by
    unfold strokeTest
    rw [hl]
    dsimp only
    rw [ht]
    dsimp only
    rw [hno.1, hno.2]
    simpa using untold_modify_lt hl hno.1 fun _ => rfl
  rw [h] at hfires
  exact lt_irrefl _ hfires

theorem strokeTestsOver_cases (b : Bank) (ended : List (Nat × Position)) (ns : List Nat) (s : State) :
    (∀ n ∈ ns, strokeTest b ended s n = s) ∨ untold (ns.foldl (strokeTest b ended) s).levers < untold s.levers := by
  have hle : ∀ (ns : List Nat) (s : State), untold (ns.foldl (strokeTest b ended) s).levers ≤ untold s.levers := by
    intro ns
    induction ns with
    | nil => exact fun s => le_rfl
    | cons n ns ih =>
      intro s
      rcases strokeTest_cases b ended s n with h | h
      · rw [List.foldl_cons, h]
        exact ih s
      · exact (ih _).trans h.le
  induction ns generalizing s with
  | nil => exact .inl fun _ hn => nomatch hn
  | cons n ns ih =>
    rw [List.foldl_cons]
    rcases strokeTest_cases b ended s n with h | h
    · rw [h]
      exact (ih s).imp_left fun hall m hm => (List.mem_cons.1 hm).elim (fun hm => hm ▸ h) (hall m)
    · exact .inr ((hle ns _).trans_lt h)

/-- No test of a round fires. -/
def Quiet (b : Bank) (ended : List (Nat × Position)) (s : State) : Prop :=
  ∀ n ∈ s.levers.map Prod.fst, strokeTest b ended s n = s

/-- The last reading decides every lever of a state that the rounds lead to, and none of its strokes is lost untold (R96). -/
theorem leverRounds_last {P : State → Prop} {b : Bank} {ended : List (Nat × Position)} (hd : ∀ s, P s → P (decideAll b s))
    (ht : ∀ s, P s → P (strokeTests b ended s)) (k : Nat) (s d : State) (hs : P s) (hk : untold s.levers ≤ k) :
    ∃ z, P z ∧ (leverRounds b ended k s).getLastD d = decideAll b z ∧ Quiet b ended (decideAll b z) := by
  induction k generalizing s d with
  | zero =>
    refine ⟨s, hs, rfl, fun n _ => ?_⟩
    rcases strokeTest_cases b ended (decideAll b s) n with h | h
    · exact h
    · rw [decideAll_untold] at h
      omega
  | succ k ih =>
    unfold leverRounds
    dsimp only
    rcases strokeTestsOver_cases b ended ((decideAll b s).levers.map Prod.fst) (decideAll b s) with hq | hlt
    · have hsame : strokeTests b ended (decideAll b s) = decideAll b s := by
        unfold strokeTests
        generalize (decideAll b s).levers.map Prod.fst = ns at hq
        induction ns with
        | nil => rfl
        | cons n ns ihns =>
          rw [List.foldl_cons, hq n List.mem_cons_self]
          exact ihns fun m hm => hq m (List.mem_cons_of_mem n hm)
      rw [hsame, if_pos rfl]
      exact ⟨s, hs, rfl, hq⟩
    · have hne : (strokeTests b ended (decideAll b s)).levers ≠ (decideAll b s).levers := by
        intro h
        have hlt' : untold (strokeTests b ended (decideAll b s)).levers < untold (decideAll b s).levers := hlt
        rw [h] at hlt'
        exact lt_irrefl _ hlt'
      rw [if_neg hne]
      rw [decideAll_untold] at hlt
      obtain ⟨z, hz, hlast, hquiet⟩ := ih (strokeTests b ended (decideAll b s)) (decideAll b s) (ht _ (hd _ hs))
        (Nat.le_of_lt_succ (lt_of_lt_of_le hlt hk))
      refine ⟨z, hz, ?_, hquiet⟩
      rw [← hlast]
      exact List.getLastD_cons

/-! ### The conclusion interlocks -/

theorem leverSane.normal {l : LeverRec} (h : leverSane l) (hp : l.position = .normal) : endOf l.release = some .normal := by
  have hfits := h.1
  unfold leverFits at hfits
  cases hr : l.release <;> simp [hr, hp] at hfits <;> rfl

theorem leverSane.reverse {l : LeverRec} (h : leverSane l) (hp : l.position = .reverse) : endOf l.release = some .reverse := by
  have hfits := h.1
  unfold leverFits at hfits
  cases hr : l.release <;> simp [hr, hp] at hfits <;> rfl

theorem decided_fields (s : State) (b : Bank) (n : Nat) (l : LeverRec) :
    (decided s b n l).position = l.position ∧ (decided s b n l).catchUp = l.catchUp ∧
    (decided s b n l).violation = l.violation := by
  unfold decided
  dsimp only
  repeat' split
  all_goals exact ⟨rfl, rfl, rfl⟩

theorem decided_normal {s : State} {b : Bank} {n : Nat} {l : LeverRec} (h : endOf l.release = some .normal) :
    (decided s b n l).lock = .free ↔ releaseTest s b n l (b.leverEntry n).reverseList = true := by
  unfold decided
  rw [h]
  dsimp only
  split <;> simp [*]

theorem decided_reverse {s : State} {b : Bank} {n : Nat} {l : LeverRec} (h : endOf l.release = some .reverse) :
    (decided s b n l).lock = .free ↔ releaseTest s b n l (b.leverEntry n).normalList = true := by
  unfold decided
  rw [h]
  dsimp only
  split <;> simp [*]

/-- A reading that decides every lever of a sane frame and leaves no loss untold interlocks it. -/
theorem decideAll_interlocked {b : Bank} {ended : List (Nat × Position)} {z : State} (hb : z.bank = some b)
    (hsane : FrameSane z) (hheld : LocksHeld z) (hquiet : Quiet b ended (decideAll b z)) : Interlocked (decideAll b z) := by
  have hy : FrameSane (decideAll b z) := decideAll_sane hsane
  have hreads := decideAll_readsSame b z
  have hbank : ∀ b', (decideAll b z).bank = some b' → b' = b := fun b' hb' => Option.some.inj (hb'.symm.trans hb)
  have hlost : ∀ p ∈ (decideAll b z).levers, ∀ stood, testedEnd ended p.1 p.2 = some stood →
      p.2.lossTold = true ∨ listHolds (decideAll b z) b (listFor (b.leverEntry p.1) stood) = true := fun p hp stood ht =>
    strokeTest_quiet (hquiet p.1 (List.mem_map_of_mem hp)) (recAt_eq_some_of_mem hy.numbered hp) ht
  refine ⟨hy.banked, decideAll_locksHeld hheld, fun p hp => (hy.sane p hp).1, hy.numbered, ?_, ?_, ?_, ?_,
    fun p hp => (hy.sane p hp).2⟩
  · intro b' hb' p hp hpos
    cases hbank b' hb'
    obtain ⟨q, hq, rfl⟩ := List.mem_map.1 hp
    obtain ⟨hposition, hcatch, hviolation⟩ := decided_fields z b q.1 q.2
    rw [released_iff, hreads.releaseTest b q.1 _ hcatch hviolation]
    exact decided_normal ((hsane.sane q hq).normal (hposition ▸ hpos))
  · intro b' hb' p hp hpos
    cases hbank b' hb'
    obtain ⟨q, hq, rfl⟩ := List.mem_map.1 hp
    obtain ⟨hposition, hcatch, hviolation⟩ := decided_fields z b q.1 q.2
    rw [released_iff, hreads.releaseTest b q.1 _ hcatch hviolation]
    exact decided_reverse ((hsane.sane q hq).reverse (hposition ▸ hpos))
  · intro b' hb' p hp hrel hfree
    cases hbank b' hb'
    refine (hlost p hp .normal ?_).imp_left ((hy.sane p hp).2 (.inl hrel))
    simp [testedEnd, hrel, leftOf, hfree]
  · intro b' hb' p hp hrel hfree
    cases hbank b' hb'
    refine (hlost p hp .reverse ?_).imp_left ((hy.sane p hp).2 (.inr hrel))
    simp [testedEnd, hrel, leftOf, hfree]

theorem Interlocked.of_no_levers {s : State} (hb : s.bank = none) (hl : s.levers = []) : Interlocked s where
  banked _ := hl
  held _ p hp := by simp [hl] at hp
  fits p hp := by simp [hl] at hp
  numbered := by simp [hl]
  atNormal b h := nomatch hb.symm.trans h
  atReverse b h := nomatch hb.symm.trans h
  strokeN b h := nomatch hb.symm.trans h
  strokeR b h := nomatch hb.symm.trans h
  told p hp := by simp [hl] at hp

/-- LE's conclusion interlocks a sane frame (R72, R73, R79, R95, R96). -/
theorem concludeLevers_interlocked (ended : List (Nat × Position)) {s : State} (h : FrameSane s) :
    Interlocked (concludeLevers ended s) := by
  cases hb : s.bank with
  | none =>
    have ha : s.active = none := by simpa [State.bank] using hb
    rw [concludeLevers_none ended s ha]
    exact .of_no_levers hb (h.banked ha)
  | some b =>
    let x : State := { s with levers := s.levers.map fun p => (p.1, lockedUnless (s.part = .running) p.2) }
    have hx : FrameSane x := h.mapLevers (g := fun _ => lockedUnless (s.part = .running)) rfl (fun _ _ => lockedUnless_sane _) rfl
    have hheld : LocksHeld x := by
      intro hp p hq
      obtain ⟨q, -, rfl⟩ := List.mem_map.1 hq
      have hp' : s.part ≠ .running := hp
      simp [lockedUnless, hp']
    have hk : untold x.levers ≤ s.levers.length + 1 := by
      have := List.countP_le_length (p := fun p : Nat × LeverRec => !p.2.lossTold) (l := x.levers)
      simp only [x, List.length_map] at this
      exact this.trans (Nat.le_succ _)
    obtain ⟨z, ⟨hzb, hzs, hzh⟩, hlast, hquiet⟩ :=
      leverRounds_last (P := fun y => y.bank = some b ∧ FrameSane y ∧ LocksHeld y) (b := b) (ended := ended)
        (fun y ⟨hy, hys, hyh⟩ => ⟨hy, decideAll_sane hys, decideAll_locksHeld hyh⟩)
        (fun y ⟨hy, hys, hyh⟩ => by
          obtain ⟨l, ⟨e, q, n, w, p, ht⟩, -⟩ := strokeTests_read b ended y
          have hbank : (strokeTests b ended y).bank = y.bank := State.bank_of _ _ (by rw [ht])
          exact ⟨hbank.trans hy, strokeTests_sane hys, strokeTests_locksHeld hyh⟩)
        (s.levers.length + 1) x s ⟨hb, hx, hheld⟩ hk
    have hreading : concludeLevers ended s = decideAll b z := by
      unfold concludeLevers leverReadings
      rw [hb]
      exact hlast
    rw [hreading]
    exact decideAll_interlocked hzb hzs hzh hquiet

end Sys2Proof.Machine
end

section
/-! PROOF. Every step keeps the interlocking: what an arrival changes leaves the frame sane, LE's conclusion interlocks it, and
what follows the conclusion touches nothing that LE reads. -/

namespace Sys2Proof.Machine

/-! ### What the interlocking reads -/

/-- Levers, the bank and whatever the lists read being the same, the frame is interlocked alike. -/
theorem Interlocked.congr {s t : State} (h : Interlocked s) (hr : ReadsSame s t) (hl : t.levers = s.levers)
    (ha : t.active = s.active) : Interlocked t := by
  have hb : t.bank = s.bank := State.bank_of s t ha
  constructor
  · rw [hl, ha]; exact h.banked
  · rw [hl, hr.part]; exact h.held
  · rw [hl]; exact h.fits
  · rw [hl]; exact h.numbered
  · rw [hl, hb]; simpa only [hr.released] using h.atNormal
  · rw [hl, hb]; simpa only [hr.released] using h.atReverse
  · rw [hl, hb]; simpa only [hr.listHolds] using h.strokeN
  · rw [hl, hb]; simpa only [hr.listHolds] using h.strokeR
  · rw [hl]; exact h.told

theorem unitActive_of_cores {s t : State} (h : cores UnitRec.state t.units = cores UnitRec.state s.units) (a : Nat) :
    t.unitActive a = s.unitActive a := by
  unfold State.unitActive
  rcases cores_recAt_cases h a with ⟨ht, hs⟩ | ⟨u, v, ht, hs, hu⟩
  · rw [ht, hs]
  · rw [ht, hs]
    simp only [hu]

theorem Hushed.readsSame {s t : State} (h : Hushed s t) : ReadsSame s t where
  levers := by simp only [h.same]
  tracks := by simp only [h.same]
  sections := by simp only [h.same]
  lamps n := by unfold lampProven; simp only [h.same]
  part := by simp only [h.same]
  links := h.lines
  obstructions l := State.obstruction_of _ _ (by simp only [h.same]) (by simp only [h.same]) l
  active := unitActive_of_cores h.units

theorem Hushed.interlocked {s t : State} (h : Hushed s t) (hs : Interlocked s) : Interlocked t :=
  hs.congr h.readsSame (by simp only [h.same]) (by simp only [h.same])

theorem UnitStays.active {u v : UnitRec} (h : UnitStays u v) : v.state = .active ↔ u.state = .active := by
  unfold UnitStays at h
  split at h
  · next hu =>
    rcases h with ⟨n, w, -, rfl⟩ | ⟨w, e, rfl⟩
    · exact Iff.rfl
    · simp [hu]
  · obtain ⟨w, rfl⟩ := h
    exact Iff.rfl
  · rw [h]

theorem recAt_none_of_numbers {α β : Type} {r : Recs α} {r' : Recs β} (h : r'.map Prod.fst = r.map Prod.fst) {n : Nat}
    (hn : recAt r n = none) : recAt r' n = none := by
  induction r generalizing r' with
  | nil => rw [List.map_eq_nil_iff.1 h]; rfl
  | cons p r ih =>
    obtain ⟨m, x⟩ := p
    cases r' with
    | nil => cases h
    | cons q r' =>
      obtain ⟨m', y⟩ := q
      rw [List.map_cons, List.map_cons, List.cons.injEq] at h
      obtain ⟨rfl, hrest⟩ := h
      rw [recAt_cons] at hn ⊢
      split at hn
      · cases hn
      · next hm => rw [if_neg hm]; exact ih hrest hn

theorem UnitsStay.active {s t : State} (h : UnitsStay s t) (a : Nat) : t.unitActive a = s.unitActive a := by
  obtain ⟨hnumbers, hstays⟩ := h
  unfold State.unitActive
  cases hu : recAt s.units a with
  | none => rw [recAt_none_of_numbers hnumbers hu]
  | some u =>
    obtain ⟨v, hv, huv⟩ := hstays a u hu
    rw [hv]
    simp only [huv.active]

theorem LineStays.link {r x : LineRec} (h : LineStays r x) : x.link = r.link := by
  obtain ⟨q, m, rfl⟩ := h
  rfl

theorem Settled.same {s t : State} (h : Settled s t) :
    t.tracks = s.tracks ∧ t.levers = s.levers ∧ t.sections = s.sections ∧ t.lamps = s.lamps ∧ t.active = s.active ∧
    t.part = s.part ∧ t.obstructionA = s.obstructionA ∧ t.obstructionB = s.obstructionB ∧ t.exchanges = s.exchanges := by
  rw [h.rest]
  and_intros <;> rfl

theorem Settled.readsSame {s t : State} (h : Settled s t) : ReadsSame s t where
  levers := by simp only [h.same]
  tracks := by simp only [h.same]
  sections := by simp only [h.same]
  lamps n := by unfold lampProven; simp only [h.same]
  part := by simp only [h.same]
  links l := by cases l <;> [exact h.lines.1.link; exact h.lines.2.link]
  obstructions l := State.obstruction_of _ _ (by simp only [h.same]) (by simp only [h.same]) l
  active := h.units.active

theorem Settled.interlocked {s t : State} (h : Settled s t) (hs : Interlocked s) : Interlocked t :=
  hs.congr h.readsSame (by simp only [h.same]) (by simp only [h.same])

/-! ### The end of an arrival -/

theorem startingChecked_sane {s : State} (h : FrameSane s) : FrameSane (startingChecked s) := by
  rcases startingChecked_cases s with hc | ⟨-, -, hc⟩
  · rw [hc]; exact h
  · rw [hc]; exact h.same

theorem readingsWith_interlocked (ended : List (Nat × Position)) {s : State} (d : State) (h : FrameSane s) :
    Interlocked ((readingsWith ended s).getLastD d) := by
  have hfirst := concludeLevers_interlocked ended h
  rw [readingsWith_last]
  split
  · exact hfirst
  · exact concludeLevers_interlocked [] (startingChecked_sane hfirst.sane)

theorem startingEnded_interlocked {s : State} (h : Interlocked s) : Interlocked (startingEnded s) := by
  unfold startingEnded
  dsimp only
  split
  · exact h
  · exact (settle_settled _ _ _).interlocked (concludeLevers_interlocked [] (startingChecked_sane h.sane))

/-- The end of an arrival interlocks a sane frame (R72, R73, R79, R96). -/
theorem finishWith_interlocked (ended : List (Nat × Position)) (pass : List State) (old : State) {s : State}
    (h : FrameSane s) : Interlocked (finishWith ended pass old s) :=
  (arbiters_hushed _).interlocked (startingEnded_interlocked ((settle_settled _ _ _).interlocked
    ((settlePass_settled _ _).interlocked (readingsWith_interlocked ended s h))))

/-! ### What an arrival leaves of a sane frame -/

/-- A lever that takes a report is sane after it (R71, R75, R76, R77). -/
theorem leverTakes_sane (s : State) (e : LeverEntry) {l : LeverRec} (pos : Position) (c : Bool) (h : leverSane l) :
    leverSane (leverTakes s e l pos c).record := by
  obtain ⟨hfits, htold⟩ := h
  unfold leverFits at hfits
  unfold leverTakes
  split
  · exact ⟨hfits, htold⟩
  · cases pos <;> simp only
    case normal =>
      unfold arriveNormal
      cases l.release <;> simp [leverSane, leverFits]
    case reverse =>
      unfold arriveReverse
      cases l.release <;> simp [leverSane, leverFits]
    case mid =>
      unfold arriveMid
      cases hr : l.release <;> simp only [hr] at htold <;> simp [leverSane, leverFits] <;> simpa using htold
    case fault => simp [arriveFault, leverSane, leverFits]
    case unknown => exact ⟨hfits, htold⟩

theorem leversWritten_sane {s : State} (b : Bank) (a : Nat) (bytes : List Byte) (h : FrameSane s) :
    FrameSane (leversWritten (leverOutcomes s b a bytes) s) := by
  have hout : ∀ o ∈ leverOutcomes s b a bytes, leverSane o.2.record := by
    intro o ho
    obtain ⟨p, -, hp⟩ := List.mem_filterMap.1 ho
    obtain ⟨l, hl, rfl⟩ := Option.map_eq_some_iff.1 hp
    exact leverTakes_sane s _ _ _ (h.sane _ (recAt_mem hl))
  unfold leversWritten
  generalize leverOutcomes s b a bytes = os at hout
  induction os generalizing s with
  | nil => exact h
  | cons o os ih =>
    exact ih (h.modifyLever o.1 fun _ _ => hout o List.mem_cons_self) fun x hx => hout x (List.mem_cons_of_mem o hx)

theorem leverSane_lost (l : LeverRec) : leverSane { l with position := .unknown, release := .unknown, lock := .locked } :=
  ⟨⟨by simp, by simp⟩, by simp⟩

theorem leversLost_sane (ns : List Nat) {s : State} (h : FrameSane s) : FrameSane (ns.foldl leverLost s) := by
  induction ns generalizing s with
  | nil => exact h
  | cons n ns ih => exact ih (h.modifyLever n fun l _ => leverSane_lost l)

theorem tracksHanded_sane (old : Recs TrackRec) (b : Bank) {s : State} (h : FrameSane s) :
    FrameSane (tracksHanded old b s) := by
  refine h.mapLevers (g := fun n l =>
    if l.approach.isSome && (b.leverEntry n).approachTracks.any (fun t => (trackMove old s.tracks t).isSome) &&
        (b.leverEntry n).approachTracks.all (trackClear (sectionsOnTracks old b s)) then { l with approach := none } else l) ?_ ?_
  · unfold tracksHanded approachEnds
    dsimp only
    refine List.map_congr_left fun p _ => ?_
    simp only [sectionsOnTracks_same]
    split <;> rfl
  · intro n l hl
    split <;> exact hl

theorem objectsLost_sane (b : Bank) (k : UnitKind) (ns : List Nat) {s : State} (h : FrameSane s) :
    FrameSane (objectsLost b k ns s) := by
  have hlamps : ∀ (ns : List Nat) {x : State}, FrameSane x → FrameSane (ns.foldl lampLost x) := by
    intro ns
    induction ns with
    | nil => exact fun h => h
    | cons n ns ih => exact fun h => ih h.same
  have hcommutators : ∀ (ns : List Nat) {x : State}, FrameSane x → FrameSane (ns.foldl commutatorLost x) := by
    intro ns
    induction ns with
    | nil => exact fun h => h
    | cons n ns ih => exact fun h => ih h.same
  cases k with
  | tu => exact tracksHanded_sane _ b (h.same rfl rfl)
  | lfu => exact leversLost_sane ns h
  | lu => exact hlamps ns h
  | iu => exact hcommutators ns h
  | du | mt | none => exact h

theorem Alters.sane {s t : State} (h : Alters s t) (hs : FrameSane s) : FrameSane t := by
  cases h with
  | hushed h => exact hs.same (by simp only [h.same]) (by simp only [h.same])
  | objectsFall b a => exact objectsLost_sane b _ _ hs
  | reported b a bytes => exact leversWritten_sane b a bytes hs
  | lever n f hf =>
    refine hs.modifyLever n fun l hl => ?_
    rw [hf l]
    exact hs.sane _ hl
  | sampled b a bytes =>
    have hfirst : FrameSane (firstPass b a bytes s).1 := tracksHanded_sane _ b (by
      obtain ⟨r, htold⟩ := trackTakesAll_same b bytes (b.assignedChannels a) (s, [])
      obtain ⟨e, q, n, w, p, hx⟩ := htold
      refine hs.same ?_ ?_
      · simp only [provingJudged_same, hx]
      · simp only [provingJudged_same, hx])
    have hmodes : ∀ x, FrameSane x → FrameSane (modesComputed b x) := fun x hx => hx.same rfl rfl
    have hdecided : ∀ (ts : Recs TrackRec) (ns : List Nat) (x : State), FrameSane x →
        FrameSane (ns.foldl (clearingDecision ts b) x) := by
      intro ts ns
      induction ns with
      | nil => exact fun _ hx => hx
      | cons n ns ih => exact fun x hx => ih _ hx.same
    exact tracksHanded_sane _ b (hdecided _ _ _ (hmodes _ (concludeLevers_interlocked [] hfirst).sane))
  | pickedUp b n => exact tracksHanded_sane _ b hs.same
  | restoredTrack b n r active => exact tracksHanded_sane _ b hs.same
  | placed | windowEnds | probing | unit | line | bell | exchange | groups | store | farArrives | farLost | commutator
  | released | lamp | acknowledged => exact hs.same

theorem Leads.sane {s t : State} (h : Leads s t) (hs : FrameSane s) : FrameSane t := by
  induction h with
  | refl => exact hs
  | tail _ h ih => exact h.sane ih

/-! ### A bank taken into use -/

theorem objects_nodup (b : Bank) (k : UnitKind) : (b.objects k).Nodup := List.Nodup.filter _ List.nodup_range'

theorem remade_numbers {α : Type} (ns : List Nat) (p : Nat → Bool) (f : Nat → α) (r : Recs α) :
    (remade ns p f r).map Prod.fst = ns := by
  unfold remade makeRecs
  rw [List.map_map]
  exact List.map_id ns

/-- A record made at a switch is fresh, or was there before (R169). -/
theorem remade_mem {α : Type} {ns : List Nat} {p : Nat → Bool} {f : Nat → α} {r : Recs α} {q : Nat × α}
    (h : q ∈ remade ns p f r) : q.1 ∈ ns ∧ (q.2 = f q.1 ∨ (p q.1 = false ∧ recAt r q.1 = some q.2)) := by
  obtain ⟨n, hn, rfl⟩ := List.mem_map.1 h
  refine ⟨hn, ?_⟩
  dsimp only
  split
  · exact .inl rfl
  · next hp =>
    cases hr : recAt r n with
    | none => exact .inl rfl
    | some x => exact .inr ⟨by simpa using hp, rfl⟩

theorem leversAdopted_sane (old : Option Bank) (new : Bank) (lost : List Nat) {s : State} (ha : s.active.isSome = true)
    (h : ∀ p ∈ s.levers, leverSane p.2) : FrameSane (leversAdopted old new lost s) := by
  refine leversLost_sane lost ⟨fun hn => ?_, ?_, fun p hp => ?_⟩
  · have hnone : s.active = none := hn
    rw [hnone] at ha
    cases ha
  · rw [remade_numbers]
    exact objects_nodup new .lfu
  · rcases (remade_mem hp).2 with hp | ⟨-, hp⟩
    · rw [hp]
      exact ⟨⟨by simp, by simp⟩, by simp⟩
    · exact h _ (recAt_mem hp)

theorem bankAdopted_sane (img : BankImage) {s : State} (h : FrameSane s) : FrameSane (bankAdopted img s) := by
  have hlevers : ∀ (old : Option Bank) (new : Bank) (lost lost' : List Nat), FrameSane (leversAdopted old new lost
      (tracksAdopted old new lost' (unitsAdopted old new (refreshStarted old new { s with active := some img })))) :=
    fun old new lost lost' => leversAdopted_sane old new lost (by simp) h.sane
  have hplaced : ∀ (old : Option Bank) (new : Bank) (x : State), FrameSane x →
      FrameSane (linesAdopted old new (probesPlaced old new x)) := fun _ _ _ hx => hx.same
  have hlamps : ∀ (old : Option Bank) (new : Bank) (l l' : List Nat) (x : State), FrameSane x →
      FrameSane (groupsAdopted old new (lampsAdopted old new l (sectionsAdopted old new l' x))) := fun _ _ _ _ _ hx => hx.same
  exact hplaced _ _ _ (tracksHanded_sane _ _ (hlamps _ _ _ _ _ (hlevers _ _ _ _)))

theorem Moves.sane {s t : State} (h : Moves s t) (hs : FrameSane s) : FrameSane t := by
  cases h with
  | trip | running => exact hs.same
  | switching => unfold switchTaken; split <;> exact hs.same rfl rfl
  | compared =>
    unfold startupCompared
    split
    · exact (bankAdopted_sane _ hs).same rfl rfl
    · exact hs.same
  | completed img =>
    have hchecked : FrameSane { s with check := .unchecked, switchHeld := false } := hs.same rfl rfl
    exact (bankAdopted_sane img hchecked).same (by simp [switchCompleted]) (by simp [switchCompleted])

theorem Ends.sane {s t : State} (h : Ends s t) (hs : FrameSane s) : FrameSane t := by
  rcases h with h | ⟨x, y, hx, hy, ht⟩
  · exact h.sane hs
  · exact (hy.sane (hx.sane hs)).same (by simp only [ht.same]) (by simp only [ht.same])

/-- Every arrival keeps the frame interlocked. -/
theorem Follows.interlocked {s t : State} (h : Follows s t) (hs : Interlocked s) : Interlocked t := by
  rcases h with h | ⟨x, e, p, o, hx, rfl⟩
  · exact h.interlocked hs
  · exact finishWith_interlocked e p o (hx.sane hs.sane)

theorem Interlocked.pending {s : State} (h : Interlocked s) (q : List Instr) : Interlocked { s with pending := q } :=
  h.congr ⟨rfl, rfl, rfl, fun _ => rfl, rfl, fun l => by cases l <;> rfl, fun l => by cases l <;> rfl, fun _ => rfl⟩ rfl rfl

/-- Settles O57. -/
theorem interlockingIsKept : Obligations.InterlockingIsKept := by
  unfold Obligations.InterlockingIsKept
  refine ⟨fun s t hs h => ?_, fun s b n l hs hb hl hpos hfree p hp hk => ?_⟩
  · refine step_keeps (P := Interlocked) (fun s q h => h.pending q) (fun c s t h hs => ?_) h hs
    exact exec_keeps (fun k held s _ => .of_no_levers rfl rfl) (fun s dt h => (Hushed.advance s dt).interlocked h)
      (fun s t hs ha => ha.follows.interlocked hs) h hs
  · obtain ⟨-, -, -, -, -, hlist⟩ := (hs.atNormal b hb (n, l) hl hpos).1 hfree
    have hcond := hlist p hp
    cases hm : recAt s.levers p.2.object.toNat with
    | none => simp [conditionHolds, hk, hm] at hcond
    | some m =>
      rw [conditionHolds_leverNormal hk hm, readsNormal_iff] at hcond
      exact ⟨m, rfl, hcond.1, hcond.2.1⟩

end Sys2Proof.Machine
end

section
/-! PROOF. Every step keeps the records of the tracks sound, under a bank whose tracks CHECK_BANK passes. -/

namespace Sys2Proof.Machine

/-! ### Sound track records, as the operations change them -/

/-- The track records of a list are sound under a bank. -/
def TracksOk (b : Bank) (ts : Recs TrackRec) : Prop :=
  ∀ t r, recAt ts t = some r → b.defined .tu t = true ∧ trackSound (b.trackEntry t) r

theorem TracksSound.ok {s : State} {b : Bank} (h : TracksSound s) (hb : s.bank = some b) : TracksOk b s.tracks := h.2 b hb

theorem TracksSound.of_ok {s : State} {b : Bank} (hb : s.bank = some b) (h : TracksOk b s.tracks) : TracksSound s := by
  refine ⟨fun ha => ?_, fun b' hb' => ?_⟩
  · rw [State.bank, ha] at hb
    cases hb
  · cases hb.symm.trans hb'
    exact h

theorem TracksSound.same {s t : State} (h : TracksSound s) (ha : t.active = s.active := by simp)
    (ht : t.tracks = s.tracks := by simp) : TracksSound t := by
  unfold TracksSound
  rw [ha, ht, State.bank_of s t ha]
  exact h

theorem TracksOk.modify {b : Bank} {ts : Recs TrackRec} (h : TracksOk b ts) (n : Nat) {f : TrackRec → TrackRec}
    (hf : ∀ r, recAt ts n = some r → b.defined .tu n = true → trackSound (b.trackEntry n) r →
      trackSound (b.trackEntry n) (f r)) : TracksOk b (modifyRec ts n f) := by
  intro t r hr
  rw [recAt_modifyRec] at hr
  split at hr
  · next ht =>
    obtain ⟨q, hq, rfl⟩ := Option.map_eq_some_iff.1 hr
    subst ht
    exact ⟨(h _ q hq).1, hf q hq (h _ q hq).1 (h _ q hq).2⟩
  · exact h t r hr

theorem TracksOk.map {b : Bank} {ts : Recs TrackRec} (h : TracksOk b ts) {g : Nat → TrackRec → TrackRec}
    (hg : ∀ n r, trackSound (b.trackEntry n) r → trackSound (b.trackEntry n) (g n r)) :
    TracksOk b (ts.map fun p => (p.1, g p.1 p.2)) := by
  intro t r hr
  rw [recAt_mapRec] at hr
  obtain ⟨q, hq, rfl⟩ := Option.map_eq_some_iff.1 hr
  exact ⟨(h t q hq).1, hg t q (h t q hq).2⟩

/-! ### The loss of a unit, and the proving flags -/

theorem trackLostRec_sound {e : TrackEntry} {r : TrackRec} (h : trackSound e r) : trackSound e (trackLostRec r) := by
  obtain ⟨hs, hq, -, -, hclear, hpick, -, hcause⟩ := h
  unfold trackLostRec
  dsimp only
  split
  · next hr => exact ⟨hs, hq, by simp, by simp, by simp [hr], by simp [hr], by simp, hcause⟩
  · exact ⟨hs, hq, by simp, by simp, by simp, by simp, by simp, by simp⟩

theorem tracksLost_ok {b : Bank} {ts : Recs TrackRec} (h : TracksOk b ts) (lost : List Nat) :
    TracksOk b (ts.map fun p => if lost.contains p.1 then (p.1, trackLostRec p.2) else p) := by
  have hmap := h.map (g := fun n r => if lost.contains n then trackLostRec r else r) fun n r hr => by
    split
    · exact trackLostRec_sound hr
    · exact hr
  refine (congrArg (TracksOk b) (List.map_congr_left fun p _ => ?_)).mp hmap
  split <;> rfl

theorem tracksHanded_tracks (old : Recs TrackRec) (b : Bank) (s : State) : (tracksHanded old b s).tracks = s.tracks := by simp

theorem unitObjectsLost_ok {b : Bank} {s : State} (a : Nat) (h : TracksOk b s.tracks) :
    TracksOk b (unitObjectsLost b a s).tracks := by
  have hlevers : ∀ (ns : List Nat) (x : State), (ns.foldl leverLost x).tracks = x.tracks := fun ns => by
    induction ns with
    | nil => exact fun _ => rfl
    | cons n ns ih => exact fun x => (ih _).trans (by simp)
  have hlamps : ∀ (ns : List Nat) (x : State), (ns.foldl lampLost x).tracks = x.tracks := fun ns => by
    induction ns with
    | nil => exact fun _ => rfl
    | cons n ns ih => exact fun x => (ih _).trans (by simp)
  have hsections : ∀ (ns : List Nat) (x : State), (ns.foldl commutatorLost x).tracks = x.tracks := fun ns => by
    induction ns with
    | nil => exact fun _ => rfl
    | cons n ns ih => exact fun x => (ih _).trans (by simp)
  unfold unitObjectsLost objectsLost
  split
  · unfold tracksLost
    rw [tracksHanded_tracks]
    exact tracksLost_ok h _
  · rw [hlevers]; exact h
  · rw [hlamps]; exact h
  · rw [hsections]; exact h
  all_goals exact h

theorem provingJudged_tracks (old : Recs TrackRec) (b : Bank) (s : State) : (provingJudged old b s).tracks =
    s.tracks.map fun p => (p.1, { p.2 with
      exitSeen := exitSeenAfter old s.tracks (b.trackEntry p.1) p.1 p.2,
      unexpected := p.2.unexpected || unexpectedEntry old s.tracks (b.trackEntry p.1) p.1 p.2 }) := by
  simp only [provingJudged, raiseAll_same]

theorem provingJudged_recAt (old : Recs TrackRec) (b : Bank) (s : State) (n : Nat) :
    recAt (provingJudged old b s).tracks n = (recAt s.tracks n).map fun r => { r with
      exitSeen := exitSeenAfter old s.tracks (b.trackEntry n) n r,
      unexpected := r.unexpected || unexpectedEntry old s.tracks (b.trackEntry n) n r } := by
  rw [provingJudged_tracks]
  exact recAt_mapRec s.tracks (fun n r => { r with
    exitSeen := exitSeenAfter old s.tracks (b.trackEntry n) n r,
    unexpected := r.unexpected || unexpectedEntry old s.tracks (b.trackEntry n) n r }) n

theorem provingJudged_ok {b : Bank} {s : State} (old : Recs TrackRec) (h : TracksOk b s.tracks) :
    TracksOk b (provingJudged old b s).tracks := by
  rw [provingJudged_tracks]
  exact h.map (g := fun n r => { r with
      exitSeen := exitSeenAfter old s.tracks (b.trackEntry n) n r,
      unexpected := r.unexpected || unexpectedEntry old s.tracks (b.trackEntry n) n r }) fun _ _ hr => hr

/-! ### A sample -/

theorem filtered_le {s q m : Nat} (hs : s ≤ m) (hq : q ≤ m) (k : Nat) : filtered s q k ≤ m := by
  rcases Nat.lt_or_ge q s with h | h
  · exact (filtered_falls h k).2.le.trans hs
  · exact (filtered_rises h k).2.trans hq

/-- What the computation leaves of a sound record; the state it leaves, so that the tests of its thresholds are open. -/
theorem computed_bounds {e : TrackEntry} {r : TrackRec} (x : Sample) (h : trackSound e r) :
    (computed e x r).s ≤ 2047 ∧ (computed e x r).q ≤ 2047 ∧ (computed e x r).noisy ≤ 8 ∧ (computed e x r).good ≤ 4 := by
  refine ⟨filtered_le h.1 (ratio_le e x) _, ratio_le e x, ?_, ?_⟩
  · unfold computed
    dsimp only
    split
    · exact min_le_left _ _
    · exact Nat.zero_le _
  · unfold computed
    dsimp only
    split
    · exact Nat.zero_le _
    · exact min_le_left _ _

/-- The first pass leaves a sound record; one that calls for the clearing decision is OCCUPIED at or above P (R44 to R51). -/
theorem sampleDecision_sound {e : TrackEntry} {r : TrackRec} (now : Time) (x : Sample) (h : trackSound e r) :
    trackSound e (sampleDecision now e x (computed e x r)).record ∧
    ((sampleDecision now e x (computed e x r)).decision = true →
      e.p.toNat ≤ (sampleDecision now e x (computed e x r)).record.s ∧
      (sampleDecision now e x (computed e x r)).record.state = .occupied) := by
  obtain ⟨hs, hq, hn, hg⟩ := computed_bounds x h
  obtain ⟨-, -, -, -, -, -, htimer, hcause⟩ := h
  have hstate : (computed e x r).state = r.state ∧ (computed e x r).cause = r.cause ∧ (computed e x r).timer = r.timer :=
    ⟨rfl, rfl, rfl⟩
  obtain ⟨hst, hca, hti⟩ := hstate
  rw [← hst, ← hti] at htimer
  rw [← hst, ← hca] at hcause
  generalize computed e x r = c at *
  have hidle : c.state ≠ .pickingUp → c.timer = none := fun hne => by
    cases ht : c.timer with
    | none => rfl
    | some u => exact absurd (htimer (by rw [ht]; rfl)) hne
  have hsound : c.cause.isSome = true → c.state = .failed := hcause.2
  have hnone : c.state ≠ .failed → c.cause.isSome = false := fun hne => by
    cases hc : c.cause.isSome with
    | false => rfl
    | true => exact absurd (hsound hc) hne
  have hfailed : ∀ k, trackSound e (failedBy k c).record ∧ ((failedBy k c).decision = true →
      e.p.toNat ≤ (failedBy k c).record.s ∧ (failedBy k c).record.state = .occupied) := fun k =>
    ⟨⟨hs, hq, hn, hg, by simp [failedBy], by simp [failedBy], by simp [failedBy], by simp [failedBy]⟩, by simp [failedBy]⟩
  unfold sampleDecision
  split
  · next hsus => exact ⟨⟨hs, hq, hn, hg, by simp [hsus], by simp [hsus], htimer, hcause⟩, by simp⟩
  · split
    · exact hfailed _
    · split
      · exact hfailed _
      · split
        · next hf =>
          split
          · exact ⟨⟨hs, hq, hn, hg, by simp, by simp, by simp [hidle, hf], by simp⟩, by simp⟩
          · exact ⟨⟨hs, hq, hn, hg, by simp [hf], by simp [hf], htimer, hcause⟩, by simp⟩
        · next hc =>
          dsimp only
          split
          · exact ⟨⟨hs, hq, hn, hg, by simp, by simp, by simp [hidle, hc], by simp [hnone, hc]⟩, by simp⟩
          · next hd => exact ⟨⟨hs, hq, hn, hg, fun _ => not_lt.1 hd, by simp [hc], htimer, hcause⟩, by simp⟩
        · next ho =>
          split
          · exact ⟨⟨hs, hq, hn, hg, by simp [ho], by simp [ho], htimer, hcause⟩, by simp⟩
          · next hp =>
            split
            · exact ⟨⟨hs, hq, hn, hg, by simp [ho], by simp [ho], htimer, hcause⟩, fun _ => ⟨not_lt.1 hp, ho⟩⟩
            · exact ⟨⟨hs, hq, hn, hg, by simp, fun _ => not_lt.1 hp, by simp, by simp [hnone, ho]⟩, by simp⟩
        · next hpu =>
          dsimp only
          split
          · exact ⟨⟨hs, hq, hn, hg, by simp, by simp, by simp, by simp [hnone, hpu]⟩, by simp⟩
          · next hp => exact ⟨⟨hs, hq, hn, hg, by simp [hpu], fun _ => not_lt.1 hp, htimer, hcause⟩, by simp⟩
        · next hsus _ _ _ hst => exact absurd hst hsus

/-- A track that may be decided: its filtered value is at or above P, and it has no failure cause. -/
def Decidable61 (b : Bank) (ts : Recs TrackRec) (t : Nat) : Prop :=
  ∀ r, recAt ts t = some r → (b.trackEntry t).p.toNat ≤ r.s ∧ r.cause = none

theorem trackTakes_wanted (b : Bank) (x : Sample) (acc : State × List Nat) (t : Nat) {r : TrackRec}
    (h : recAt acc.1.tracks t = some r) : (trackTakes b x acc t).2 =
      if (sampleDecision acc.1.now (b.trackEntry t) x (computed (b.trackEntry t) x r)).decision then acc.2 ++ [t]
      else acc.2 := by
  unfold trackTakes
  rw [h]

theorem trackTakes_absent (b : Bank) (x : Sample) (acc : State × List Nat) (t : Nat) (h : recAt acc.1.tracks t = none) :
    trackTakes b x acc t = acc := by
  unfold trackTakes
  rw [h]

/-- One track's sample: sound records stay so, and the tracks called for may be decided as long as none is sampled again. -/
theorem trackTakes_ok {b : Bank} (x : Sample) {acc : State × List Nat} {t : Nat} (h : TracksOk b acc.1.tracks)
    (hw : ∀ n ∈ acc.2, n ≠ t ∧ Decidable61 b acc.1.tracks n) :
    TracksOk b (trackTakes b x acc t).1.tracks ∧ (trackTakes b x acc t).2 ⊆ acc.2 ++ [t] ∧
    ∀ n ∈ (trackTakes b x acc t).2, Decidable61 b (trackTakes b x acc t).1.tracks n := by
  cases hr : recAt acc.1.tracks t with
  | none =>
    rw [trackTakes_absent b x acc t hr]
    exact ⟨h, List.subset_append_left _ _, fun n hn => (hw n hn).2⟩
  | some r =>
    obtain ⟨hsound, hdecision⟩ := sampleDecision_sound acc.1.now x (h t r hr).2
    rw [trackTakes_tracks hr, trackTakes_wanted b x acc t hr]
    generalize sampleDecision acc.1.now (b.trackEntry t) x (computed (b.trackEntry t) x r) = o at hsound hdecision ⊢
    have hold : ∀ n ∈ acc.2, Decidable61 b (modifyRec acc.1.tracks t fun _ => o.record) n := by
      intro n hn q hq
      rw [recAt_modifyRec, if_neg (hw n hn).1] at hq
      exact (hw n hn).2 q hq
    refine ⟨h.modify t fun _ _ _ _ => hsound, ?_, ?_⟩
    · split
      · exact fun _ hn => hn
      · exact List.subset_append_left _ _
    · intro n hn
      split at hn
      · next hd =>
        rcases List.mem_append.1 hn with hn | hn
        · exact hold n hn
        · rw [List.mem_singleton.1 hn]
          intro q hq
          rw [recAt_modifyRec_self, hr] at hq
          cases hq
          obtain ⟨hp, hstate⟩ := hdecision hd
          obtain ⟨-, -, -, -, -, -, -, hcause⟩ := hsound
          rw [hstate] at hcause
          exact ⟨hp, by simpa using hcause⟩
      · exact hold n hn

/-- The samples of a unit's tracks, each track served once. -/
theorem trackTakesAll_ok {b : Bank} (bytes : List Byte) (l : List (Nat × Nat)) (hl : (l.map Prod.snd).Nodup)
    {acc : State × List Nat} (h : TracksOk b acc.1.tracks)
    (hw : ∀ n ∈ acc.2, n ∉ l.map Prod.snd ∧ Decidable61 b acc.1.tracks n) :
    let after := l.foldl (fun acc p => trackTakes b (sampleAt bytes p.1) acc p.2) acc
    TracksOk b after.1.tracks ∧ ∀ n ∈ after.2, Decidable61 b after.1.tracks n := by
  induction l generalizing acc with
  | nil => exact ⟨h, fun n hn => (hw n hn).2⟩
  | cons p l ih =>
    rw [List.map_cons, List.nodup_cons] at hl
    obtain ⟨hok, hsub, hdec⟩ := trackTakes_ok (sampleAt bytes p.1) h fun n hn =>
      ⟨fun hp => (hw n hn).1 (hp ▸ List.mem_cons_self), (hw n hn).2⟩
    refine ih hl.2 hok fun n hn => ⟨fun hmem => ?_, hdec n hn⟩
    rcases List.mem_append.1 (hsub hn) with hold | hnew
    · exact (hw n hold).1 (List.mem_cons_of_mem _ hmem)
    · rw [List.mem_singleton.1 hnew] at hmem
      exact hl.1 hmem

/-! ### The clearing decision -/

theorem clearingDecision_tracks (nb : Recs TrackRec) (b : Bank) (s : State) (t : Nat) :
    (clearingDecision nb b s t).tracks = s.tracks ∨ ∃ r, recAt s.tracks t = some r ∧
      ((clearingDecision nb b s t).tracks = modifyRec s.tracks t cleared ∨
       (clearingDecision nb b s t).tracks = modifyRec s.tracks t fun x => { x with state := .suspect, timer := none }) := by
  unfold clearingDecision
  split
  · next r hr =>
    split
    · exact .inr ⟨r, hr, .inl (by simp)⟩
    · exact .inr ⟨r, hr, .inr (by simp)⟩
  · exact .inl rfl

theorem cleared_sound {e : TrackEntry} {r : TrackRec} (h : trackSound e r) (hd : e.d.toNat ≤ r.s) (hc : r.cause = none) :
    trackSound e (cleared r) := by
  obtain ⟨hs, hq, hn, hg, -⟩ := h
  exact ⟨hs, hq, hn, hg, fun _ => hd, by simp [cleared], by simp [cleared], by simp [cleared, hc]⟩

theorem suspected_sound {e : TrackEntry} {r : TrackRec} (h : trackSound e r) (hc : r.cause = none) :
    trackSound e { r with state := .suspect, timer := none } := by
  obtain ⟨hs, hq, hn, hg, -⟩ := h
  exact ⟨hs, hq, hn, hg, by simp, by simp, by simp, by simp [hc]⟩

/-- A clearing decision of a track that may be decided: D lies below P (R37). -/
theorem clearingDecision_ok {b : Bank} (hb : TracksChecked b) (nb : Recs TrackRec) {s : State} {t : Nat}
    (h : TracksOk b s.tracks) (ht : Decidable61 b s.tracks t) :
    TracksOk b (clearingDecision nb b s t).tracks ∧
    ∀ n, Decidable61 b s.tracks n → Decidable61 b (clearingDecision nb b s t).tracks n := by
  have hkeeps : ∀ f : TrackRec → TrackRec, (∀ r, (f r).s = r.s ∧ (f r).cause = r.cause) → ∀ n, Decidable61 b s.tracks n →
      Decidable61 b (modifyRec s.tracks t f) n := by
    intro f hf n hn r hr
    rw [recAt_modifyRec] at hr
    split at hr
    · obtain ⟨q, hq, rfl⟩ := Option.map_eq_some_iff.1 hr
      rw [(hf q).1, (hf q).2]
      exact hn q hq
    · exact hn r hr
  rcases clearingDecision_tracks nb b s t with hx | ⟨r, hr, hx | hx⟩ <;> rw [hx]
  · exact ⟨h, fun n hn => hn⟩
  · refine ⟨h.modify t fun q hq hdef hsound => ?_, hkeeps _ fun _ => ⟨rfl, rfl⟩⟩
    obtain ⟨hp, hc⟩ := ht q hq
    exact cleared_sound hsound ((hb.2 t hdef).le.trans hp) hc
  · exact ⟨h.modify t fun q hq _ hsound => suspected_sound hsound (ht q hq).2, hkeeps _ fun _ => ⟨rfl, rfl⟩⟩

theorem clearingDecisions_ok {b : Bank} (hb : TracksChecked b) (nb : Recs TrackRec) (ns : List Nat) {s : State}
    (h : TracksOk b s.tracks) (hn : ∀ n ∈ ns, Decidable61 b s.tracks n) :
    TracksOk b (ns.foldl (clearingDecision nb b) s).tracks := by
  induction ns generalizing s with
  | nil => exact h
  | cons n ns ih =>
    obtain ⟨hok, hkept⟩ := clearingDecision_ok hb nb h (hn n List.mem_cons_self)
    exact ih hok fun m hm => hkept m (hn m (List.mem_cons_of_mem n hm))

/-- A whole sample of a unit that serves no track twice (R19, R39). -/
theorem sample_ok {b : Bank} (hb : TracksChecked b) {s : State} {a : Nat} (ha : a ∈ addresses) (hk : b.kindAt a = .tu)
    (bytes : List Byte) (h : TracksOk b s.tracks) :
    TracksOk b (secondPass b (firstPass b a bytes s).2
      (modesComputed b ((leverReadings [] (firstPass b a bytes s).1).getLastD (firstPass b a bytes s).1))).tracks := by
  obtain ⟨hok, hwanted⟩ := trackTakesAll_ok (b := b) bytes (b.assignedChannels a) (hb.1 a ha hk) (acc := (s, [])) h
    fun n hn => nomatch hn
  have hfirst : (modesComputed b ((leverReadings [] (firstPass b a bytes s).1).getLastD (firstPass b a bytes s).1)).tracks =
      (provingJudged s.tracks b ((b.assignedChannels a).foldl
        (fun acc p => trackTakes b (sampleAt bytes p.1) acc p.2) (s, [])).1).tracks := by
    rw [concluded_reading]
    unfold modesComputed
    dsimp only
    rw [(concludeLevers_same _ _).2.2.2.2.2.2.2.2.2.2.1]
    unfold firstPass
    simp
  unfold secondPass
  rw [tracksHanded_tracks]
  refine clearingDecisions_ok hb _ _ ?_ ?_
  · rw [hfirst]
    exact provingJudged_ok _ hok
  · intro n hn r hr
    rw [hfirst, provingJudged_recAt] at hr
    obtain ⟨q, hq, rfl⟩ := Option.map_eq_some_iff.1 hr
    exact hwanted n hn q hq

/-! ### The changes and the moves of an arrival -/

theorem restored_sound {b : Bank} (hb : TracksChecked b) {n : Nat} {r : TrackRec} (active : Bool)
    (hdef : b.defined .tu n = true) (h : trackSound (b.trackEntry n) r) (hs : r.state = .suspect) :
    trackSound (b.trackEntry n) (restored active (b.trackEntry n) r) := by
  obtain ⟨h1, h2, h3, h4, -, -, htimer, hcause⟩ := h
  rw [hs] at htimer hcause
  have hidle : r.timer.isSome = false := Bool.eq_false_iff.2 fun ht => nomatch htimer ht
  have hnone : r.cause.isSome = false := Bool.eq_false_iff.2 fun hc => nomatch hcause.2 hc
  unfold restored
  split
  · exact ⟨h1, h2, h3, h4, by simp, by simp, by simp [hidle], by simp⟩
  · split
    · next hp => exact ⟨h1, h2, h3, h4, fun _ => (hb.2 n hdef).le.trans hp, by simp, by simp [hidle], by simp [hnone]⟩
    · exact ⟨h1, h2, h3, h4, by simp, by simp, by simp [hidle], by simp [hnone]⟩

theorem Alters.tracksSound {s t : State} (h : Alters s t) (hs : TracksSound s)
    (hc : ∀ b, s.bank = some b → TracksChecked b) : TracksSound t := by
  cases h with
  | hushed h => exact hs.same (by simp only [h.same]) (by simp only [h.same])
  | objectsFall b a hb => exact .of_ok ((State.bank_of _ _ (by simp)).trans hb) (unitObjectsLost_ok a (hs.ok hb))
  | sampled b a bytes hb ha hk =>
    refine .of_ok ((State.bank_of s _ ?_).trans hb) (sample_ok (hc b hb) ha hk bytes (hs.ok hb))
    exact (Alters.sampled s b a bytes hb ha hk).same.1
  | pickedUp b n r hb hr ht =>
    refine .of_ok ((State.bank_of s _ (by simp)).trans hb) ?_
    rw [tracksHanded_tracks]
    refine (clearingDecision_ok (hc b hb) _ (hs.ok hb) fun q hq => ?_).1
    cases hr.symm.trans hq
    obtain ⟨-, -, -, -, -, hpick, htimer, hcause⟩ := (hs.ok hb n r hr).2
    refine ⟨hpick (htimer ht), ?_⟩
    rw [htimer ht] at hcause
    simpa using hcause
  | restoredTrack b n r active hb hr hsus =>
    refine .of_ok ((State.bank_of s _ (by simp)).trans hb) ?_
    rw [tracksHanded_tracks]
    refine provingJudged_ok _ ?_
    rw [modifyTrack_tracks]
    exact (hs.ok hb).modify n fun _ _ hdef _ => restored_sound (hc b hb) active hdef (hs.ok hb n r hr).2 hsus
  | placed | windowEnds | probing | unit | line | bell | exchange | groups | store | farArrives | farLost | commutator
  | released | lamp | acknowledged | reported | lever => exact hs.same

theorem Leads.tracksSound {s t : State} (h : Leads s t) (hs : TracksSound s)
    (hc : ∀ b, s.bank = some b → TracksChecked b) : TracksSound t := by
  induction h with
  | refl => exact hs
  | tail hx h ih => exact h.tracksSound ih fun b hb => hc b ((Leads.bank hx).symm.trans hb)

theorem defined_of_mem_objects {b : Bank} {k : UnitKind} {n : Nat} (h : n ∈ b.objects k) : b.defined k n = true :=
  (List.mem_filter.1 h).2

/-- The track records of a new bank are fresh, or kept with an entry that the new bank does not change (R55). -/
theorem tracksAdopted_ok (new : Bank) (lost : List Nat) {s x : State} (h : TracksSound s) (hx : x.tracks = s.tracks) :
    TracksOk new (tracksAdopted s.bank new lost x).tracks := by
  unfold tracksAdopted
  dsimp only
  rw [hx]
  refine tracksLost_ok (fun t r hr => ?_) lost
  obtain ⟨hmem, hcases⟩ := remade_mem (recAt_mem hr)
  refine ⟨defined_of_mem_objects hmem, ?_⟩
  rcases hcases with hr | ⟨hkept, hr⟩
  · have hfresh : r = {} := hr
    rw [hfresh]
    exact ⟨by simp, by simp, by simp, by simp, by simp, by simp, by simp, by simp⟩
  · unfold trackRedefined at hkept
    rw [Bool.or_eq_false_iff] at hkept
    cases hb : s.bank with
    | none => simp [hb] at hkept
    | some o =>
      simp only [hb, ne_eq, decide_not, Bool.not_eq_false', decide_eq_true_eq] at hkept
      have hsound := (h.ok hb t r hr).2
      rw [hkept.2] at hsound
      exact hsound

theorem bankAdopted_tracks (img : BankImage) (s : State) : (bankAdopted img s).tracks =
    (tracksAdopted s.bank img.bank (keptOn img.bank (unitsTaken s.bank img.bank s.units) .tu (trackRedefined s.bank img.bank))
      (unitsAdopted s.bank img.bank (refreshStarted s.bank img.bank { s with active := some img }))).tracks := by
  unfold bankAdopted
  simp

theorem bankAdopted_tracksSound (img : BankImage) {s : State} (h : TracksSound s) : TracksSound (bankAdopted img s) := by
  refine .of_ok (b := img.bank) (by simp [State.bank]) ?_
  rw [bankAdopted_tracks]
  exact tracksAdopted_ok _ _ h rfl

theorem Moves.tracksSound {s t : State} (h : Moves s t) (hs : TracksSound s) : TracksSound t := by
  cases h with
  | trip | running => exact hs.same
  | switching => unfold switchTaken; split <;> exact hs.same rfl rfl
  | compared =>
    unfold startupCompared
    split
    · exact (bankAdopted_tracksSound _ hs).same rfl rfl
    · exact hs.same
  | completed img =>
    have hchecked : TracksSound { s with check := .unchecked, switchHeld := false } := hs.same rfl rfl
    exact (bankAdopted_tracksSound img hchecked).same (by simp [switchCompleted]) (by simp [switchCompleted])

theorem Ends.tracksSound {s t : State} (h : Ends s t) (hs : TracksSound s)
    (hc : ∀ b, s.bank = some b → TracksChecked b) : TracksSound t := by
  rcases h with h | ⟨x, y, hx, hy, ht⟩
  · exact h.tracksSound hs hc
  · exact (hy.tracksSound (hx.tracksSound hs hc)).same (by simp only [ht.same]) (by simp only [ht.same])

/-- Every arrival keeps the records of the tracks sound. -/
theorem Follows.tracksSound {s t : State} (h : Follows s t) (hs : TracksSound s)
    (hc : ∀ b, s.bank = some b → TracksChecked b) : TracksSound t := by
  rcases h with h | ⟨x, e, p, o, hx, rfl⟩
  · exact hs.same (by simp only [h.same]) (by simp only [h.same])
  · exact (hx.tracksSound hs hc).same

theorem exec_keeps_tracksSound {c : Instr} {s t : State} (h : exec c s = .next t) (hs : TracksSound s)
    (hc : ∀ b, s.bank = some b → TracksChecked b) : TracksSound t := by
  cases hcr : isReset c with
  | true =>
    obtain ⟨t', ht', rfl | ⟨k, held, rfl⟩⟩ := exec_reset c s hcr
    · cases h.symm.trans ht'; exact hs
    · cases h.symm.trans ht'; exact ⟨fun _ => rfl, fun _ hb => nomatch hb⟩
  | false =>
    obtain ⟨t', ht', ⟨-, rfl⟩ | ⟨-, dt, ha⟩⟩ := exec_arrives c s hcr
    · cases h.symm.trans ht'; exact hs
    · cases h.symm.trans ht'; exact ha.follows.tracksSound (hs.same rfl rfl) hc

theorem step_keeps_tracksSound {s t : State} (hs : TracksSound s) (hc : ∀ b, s.bank = some b → TracksChecked b)
    (h : step s = .next t) : TracksSound t := by
  unfold step at h
  split at h
  · cases h; exact hs
  · exact exec_keeps_tracksSound h (hs.same rfl rfl) hc

end Sys2Proof.Machine
end

section
/-! PROOF. Every step keeps the records of the sections sound. -/

namespace Sys2Proof.Machine

/-! ### Sound section records, as the operations change them -/

/-- The section records of a list are sound under a bank. -/
def SectionsOk (b : Bank) (ns : Recs SectionRec) : Prop := ∀ n r, recAt ns n = some r → sectionSound (b.sectionEntry n) r

theorem SectionsSound.ok {s : State} {b : Bank} (h : SectionsSound s) (hb : s.bank = some b) : SectionsOk b s.sections :=
  h.2 b hb

theorem SectionsSound.of_ok {s : State} {b : Bank} (hb : s.bank = some b) (h : SectionsOk b s.sections) : SectionsSound s := by
  refine ⟨fun ha => ?_, fun b' hb' => ?_⟩
  · rw [State.bank, ha] at hb
    cases hb
  · cases hb.symm.trans hb'
    exact h

theorem SectionsSound.same {s t : State} (h : SectionsSound s) (ha : t.active = s.active := by simp)
    (ht : t.sections = s.sections := by simp) : SectionsSound t := by
  unfold SectionsSound
  rw [ha, ht, State.bank_of s t ha]
  exact h

theorem SectionsOk.modify {b : Bank} {ns : Recs SectionRec} (h : SectionsOk b ns) (n : Nat) {f : SectionRec → SectionRec}
    (hf : ∀ r, recAt ns n = some r → sectionSound (b.sectionEntry n) r → sectionSound (b.sectionEntry n) (f r)) :
    SectionsOk b (modifyRec ns n f) := by
  intro m r hr
  rw [recAt_modifyRec] at hr
  split at hr
  · next hm =>
    obtain ⟨q, hq, rfl⟩ := Option.map_eq_some_iff.1 hr
    subst hm
    exact hf q hq (h _ q hq)
  · exact h m r hr

theorem SectionsOk.map {b : Bank} {ns : Recs SectionRec} (h : SectionsOk b ns) {g : Nat → SectionRec → SectionRec}
    (hg : ∀ n r, sectionSound (b.sectionEntry n) r → sectionSound (b.sectionEntry n) (g n r)) :
    SectionsOk b (ns.map fun p => (p.1, g p.1 p.2)) := by
  intro n r hr
  rw [recAt_mapRec] at hr
  obtain ⟨q, hq, rfl⟩ := Option.map_eq_some_iff.1 hr
  exact hg n q (h n q hq)

/-! ### Far states, tracks and commutators -/

theorem farWritten_sound {e : SectionEntry} {r : SectionRec} (far : Instrument) (h : sectionSound e r) :
    sectionSound e (farWritten far r) := by
  obtain ⟨hout, hown, hprogress, hconsumed⟩ := h
  exact ⟨hout, hown, hprogress, fun hd => by simp [farWritten, hconsumed hd]⟩

theorem withdrawn_sound {e : SectionEntry} {r : SectionRec} (hclear : r.own = .clear) (h : sectionSound e r) :
    sectionSound e (withdrawn r) := by
  obtain ⟨-, -, hprogress, hconsumed⟩ := h
  exact ⟨fun _ => rfl, by simp [withdrawn], fun _ => hprogress (by simp [hclear]), hconsumed⟩

theorem farArrives_ok {b : Bank} {s : State} (n : Nat) (x : Instrument) (h : SectionsOk b s.sections) :
    SectionsOk b (farArrives s b n x).sections := by
  unfold farArrives
  split
  · next r hr =>
    split
    · exact h
    · have hw : SectionsOk b (modifyRec s.sections n (farWritten x)) := h.modify n fun _ _ => farWritten_sound x
      dsimp only
      split
      · next hc =>
        simp only [Bool.and_eq_true, decide_eq_true_eq] at hc
        split
        · simpa using hw
        · simp only [raise_same, modifySection_sections]
          refine hw.modify n fun q hq => withdrawn_sound ?_
          rw [recAt_modifyRec_self, hr] at hq
          cases hq
          exact hc.1.2
      · exact hw
  · exact h

theorem farLost_ok {b : Bank} {s : State} (b' : Bank) (l : Line) (h : SectionsOk b s.sections) :
    SectionsOk b (farLost s b' l).sections := by
  have hmap := h.map (g := fun n r => if (b'.sectionEntry n).lineOf = l then { r with far := .unknown } else r) fun n r hr => by
    split
    · exact hr
    · exact hr
  refine (congrArg (SectionsOk b) (List.map_congr_left fun p _ => ?_)).mp hmap
  split <;> rfl

theorem sectionOnTracks_sound {e : SectionEntry} {r : SectionRec} (moves : Nat → Option (TrackState × TrackState))
    (h : sectionSound e r) : sectionSound e (sectionOnTracks e moves r) := by
  obtain ⟨hout, hown, hprogress, hconsumed⟩ := h
  refine ⟨hout, hown, fun hne => ?_, fun hd => ?_⟩
  · have hne' : r.own ≠ .onLine := hne
    simpa [sectionOnTracks, hne'] using hprogress hne'
  · have hexit : e.exitOf = none := by simp [SectionEntry.exitOf, hd]
    simp [sectionOnTracks, hexit, hconsumed hd]

theorem tracksHanded_ok {b : Bank} {s : State} (old : Recs TrackRec) (h : SectionsOk b s.sections) :
    SectionsOk b (tracksHanded old b s).sections :=
  h.map (g := fun n => sectionOnTracks (b.sectionEntry n) (trackMove old s.tracks)) fun _ _ => sectionOnTracks_sound _

theorem commutatorLost_ok {b : Bank} (ns : List Nat) {s : State} (h : SectionsOk b s.sections) :
    SectionsOk b (ns.foldl commutatorLost s).sections := by
  induction ns generalizing s with
  | nil => exact h
  | cons n ns ih =>
    have hn : SectionsOk b (modifyRec s.sections n fun r => { r with commutator := .unknown }) := h.modify n fun _ _ hr => hr
    exact ih hn

theorem acceptance_blocked {s : State} {b : Bank} {n : Nat} {r : SectionRec} {pos : Instrument}
    (h : moveRefused s b n r pos = none) : (b.sectionEntry n).dir ≠ .outbound := by
  unfold moveRefused at h
  split at h
  · cases h
  · split at h
    · cases h
    · next hd => exact hd

theorem movedSection_sound {e : SectionEntry} {r : SectionRec} {pos : Instrument} (hd : e.dir ≠ .outbound)
    (hpos : pos ≠ .unknown) (h : sectionSound e r) : sectionSound e (movedSection pos r) := by
  obtain ⟨-, -, hprogress, hconsumed⟩ := h
  refine ⟨fun h => absurd h hd, hpos, fun hne => ?_, hconsumed⟩
  have hne' : pos ≠ .onLine := hne
  unfold movedSection
  dsimp only
  split
  · rfl
  · next hown =>
    simp only [Bool.or_eq_true, decide_eq_true_eq, not_or] at hown
    exact hprogress hown.2

theorem takeCommutator_ok {b : Bank} {s : State} (n : Nat) (pos : Instrument) (h : SectionsOk b s.sections) :
    SectionsOk b (takeCommutator s b n pos).sections := by
  have hread : SectionsOk b (modifyRec s.sections n fun x => { x with commutator := pos }) := h.modify n fun _ _ hr => hr
  unfold takeCommutator
  split
  · split
    · exact h
    · dsimp only
      split
      · exact hread
      · next hpos =>
        split
        · simp only [modifySection_sections]
          exact hread.modify n fun _ _ hr => hr
        · split
          · simp only [raise_same, modifySection_sections]
            exact hread.modify n fun _ _ hr => hr
          · next hmove =>
            have hmoved := hread.modify n fun _ _ => movedSection_sound (acceptance_blocked hmove) hpos
            split
            · exact hmoved
            · exact hmoved
  · exact h

theorem trippedSection_sound {e : SectionEntry} {r : SectionRec} (h : sectionSound e r) :
    sectionSound e (trippedSection e.dir r) := by
  unfold trippedSection
  split
  · next hd =>
    simp only [Bool.and_eq_true, decide_eq_true_eq] at hd
    obtain ⟨-, -, -, hconsumed⟩ := h
    exact ⟨fun h => absurd h hd.1, by simp, by simp, hconsumed⟩
  · exact h

/-! ### The changes of an arrival -/

theorem objectsLost_sectionsOk {b : Bank} (k : UnitKind) (ns : List Nat) {s : State} (h : SectionsOk b s.sections) :
    SectionsOk b (objectsLost b k ns s).sections := by
  have hlevers : ∀ (ns : List Nat) (x : State), (ns.foldl leverLost x).sections = x.sections := fun ns => by
    induction ns with
    | nil => exact fun _ => rfl
    | cons n ns ih => exact fun x => (ih _).trans (by simp)
  have hlamps : ∀ (ns : List Nat) (x : State), (ns.foldl lampLost x).sections = x.sections := fun ns => by
    induction ns with
    | nil => exact fun _ => rfl
    | cons n ns ih => exact fun x => (ih _).trans (by simp)
  unfold objectsLost
  split
  · exact tracksHanded_ok _ h
  · rw [hlevers]; exact h
  · rw [hlamps]; exact h
  · exact commutatorLost_ok ns h
  all_goals exact h

theorem Alters.sectionsSound {s t : State} (h : Alters s t) (hs : SectionsSound s) : SectionsSound t := by
  have hbank : t.bank = s.bank := State.bank_of s t h.same.1
  cases h with
  | hushed h => exact hs.same (by simp only [h.same]) (by simp only [h.same])
  | objectsFall b a hb => exact .of_ok (hbank.trans hb) (objectsLost_sectionsOk _ _ (hs.ok hb))
  | farArrives b n x hb => exact .of_ok (hbank.trans hb) (farArrives_ok n x (hs.ok hb))
  | farLost b' l =>
    cases hb : s.bank with
    | none =>
      have ha : s.active = none := by simpa [State.bank] using hb
      refine ⟨fun _ => ?_, fun b h => ?_⟩
      · unfold Machine.farLost
        dsimp only
        rw [hs.1 ha]
        rfl
      · rw [hbank, hb] at h
        cases h
    | some b => exact .of_ok (hbank.trans hb) (farLost_ok b' l (hs.ok hb))
  | commutator b n x hb => exact .of_ok (hbank.trans hb) (takeCommutator_ok n x (hs.ok hb))
  | released n r hr ho =>
    refine ⟨fun ha => ?_, fun b hb => ?_⟩
    · have hnil := hs.1 (by simpa using ha)
      rw [hnil] at hr
      cases hr
    · rw [modifySection_sections]
      refine (hs.ok (hbank.symm.trans hb)).modify n fun q hq hsound => ?_
      cases hr.symm.trans hq
      obtain ⟨hout, hown, -, hconsumed⟩ := hsound
      exact ⟨hout, hown, fun hne => absurd ho hne, hconsumed⟩
  | sampled b a bytes hb =>
    refine .of_ok (hbank.trans hb) ?_
    have hdecided : ∀ (ts : Recs TrackRec) (ns : List Nat) (x : State),
        (ns.foldl (clearingDecision ts b) x).sections = x.sections := by
      intro ts ns
      induction ns with
      | nil => exact fun _ => rfl
      | cons n ns ih => exact fun x => (ih _).trans (by simp)
    have htaken : ((b.assignedChannels a).foldl (fun acc p => trackTakes b (sampleAt bytes p.1) acc p.2)
        (s, [])).1.sections = s.sections := by
      obtain ⟨r, e, q, n, w, p, hx⟩ := trackTakesAll_same b bytes (b.assignedChannels a) (s, [])
      rw [hx]
    refine tracksHanded_ok _ ?_
    rw [hdecided, concluded_reading]
    unfold modesComputed
    simp only [concludeLevers_same]
    refine tracksHanded_ok _ ?_
    simp only [provingJudged_same, htaken]
    exact hs.ok hb
  | pickedUp b n r hb =>
    refine .of_ok (hbank.trans hb) (tracksHanded_ok _ ?_)
    simp only [clearingDecision_same]
    exact hs.ok hb
  | restoredTrack b n r active hb =>
    refine .of_ok (hbank.trans hb) (tracksHanded_ok _ ?_)
    simp only [provingJudged_same, modifyTrack_same]
    exact hs.ok hb
  | placed | windowEnds | probing | unit | line | bell | exchange | groups | store | lamp | acknowledged | reported | lever =>
    exact hs.same

theorem Leads.sectionsSound {s t : State} (h : Leads s t) (hs : SectionsSound s) : SectionsSound t := by
  induction h with
  | refl => exact hs
  | tail _ h ih => exact h.sectionsSound ih

/-! ### A bank taken into use, and a trip -/

theorem newSection_sound (e : SectionEntry) : sectionSound e (newSection e.dir) := by
  unfold newSection
  split
  · exact ⟨fun _ => rfl, by simp, by simp, by simp⟩
  · next hd => exact ⟨fun h => absurd h hd, by simp, by simp, by simp⟩

/-- The section records of a new bank are fresh, or kept with an entry that the new bank does not change (R146). -/
theorem sectionsAdopted_ok (new : Bank) (lost : List Nat) {s x : State} (h : SectionsSound s) (hx : x.sections = s.sections) :
    SectionsOk new (sectionsAdopted s.bank new lost x).sections := by
  unfold sectionsAdopted
  refine commutatorLost_ok lost fun n r hr => ?_
  dsimp only at hr
  rw [hx] at hr
  rcases (remade_mem (recAt_mem hr)).2 with hr | ⟨hkept, hr⟩
  · have hfresh : r = newSection (new.sectionEntry n).dir := hr
    rw [hfresh]
    exact newSection_sound _
  · unfold sectionRedefined at hkept
    rw [Bool.or_eq_false_iff] at hkept
    cases hb : s.bank with
    | none => simp [hb] at hkept
    | some o =>
      simp only [hb, ne_eq, Bool.or_eq_false_iff, decide_not, Bool.not_eq_false', decide_eq_true_eq] at hkept
      have hsound := h.ok hb n r hr
      rw [hkept.2.1] at hsound
      exact hsound

theorem lineStarted_ok {b : Bank} {s : State} (new : Bank) (l : Line) (h : SectionsOk b s.sections) :
    SectionsOk b (lineStarted s new l).sections := by
  have hlost : ∀ x : State, SectionsOk b x.sections → SectionsOk b (linkLost x (some new) l).sections := by
    intro x hx
    have hrecognisers : ∀ y : State, (recognisersInvalidated y new l).sections = y.sections := fun _ => rfl
    unfold linkLost
    dsimp only
    rw [hrecognisers]
    refine farLost_ok new l ?_
    simp only [raiseAll_same, raise_same, modifyLine_same]
    exact hx
  have hwritten : ∀ (x : State) (f : LineRec → LineRec), (modifyLine x l f).sections = x.sections := fun x f => by simp
  unfold lineStarted
  dsimp only
  rw [hwritten]
  split
  · refine hlost _ ?_
    simp only [modifyLine_same, raiseAll_same]
    exact h
  · simp only [modifyLine_same, raiseAll_same]
    exact h

theorem linesAdopted_ok {b : Bank} {s : State} (old : Option Bank) (new : Bank) (h : SectionsOk b s.sections) :
    SectionsOk b (linesAdopted old new s).sections := by
  have hone : ∀ (c : Bool) (l : Line) (x : State), SectionsOk b x.sections →
      SectionsOk b (if c then lineStarted x new l else x).sections := by
    intro c l x hx
    split
    · exact lineStarted_ok new l hx
    · exact hx
  exact hone _ .b _ (hone _ .a s h)

theorem tracksAdopted_sections (old : Option Bank) (new : Bank) (lost : List Nat) (s : State) :
    (tracksAdopted old new lost s).sections = s.sections := rfl

theorem leversAdopted_sections (old : Option Bank) (new : Bank) (lost : List Nat) (s : State) :
    (leversAdopted old new lost s).sections = s.sections := by simp

theorem bankAdopted_sectionsSound (img : BankImage) {s : State} (h : SectionsSound s) : SectionsSound (bankAdopted img s) := by
  refine .of_ok (b := img.bank) (by simp [State.bank]) ?_
  unfold bankAdopted
  dsimp only
  refine linesAdopted_ok _ _ ?_
  simp only [probesPlaced_same]
  refine tracksHanded_ok _ ?_
  simp only [groupsAdopted_same, lampsAdopted_same]
  refine sectionsAdopted_ok _ _ h ?_
  rw [(leversAdopted_sections _ _ _ _).trans (tracksAdopted_sections _ _ _ _)]
  simp only [unitsAdopted_same, refreshStarted_same]

theorem sectionsAtTrip_sound {s : State} (h : SectionsSound s) : SectionsSound (sectionsAtTrip s) := by
  unfold sectionsAtTrip
  split
  · next b hb =>
    have hmap : SectionsOk b (sectionsTripped s b).sections :=
      (h.ok hb).map (g := fun n => trippedSection (b.sectionEntry n).dir) fun _ _ => trippedSection_sound
    exact .of_ok hb hmap
  · exact h

theorem tripCause_sectionsSound {s : State} (c : TripCause) (o : Nat) (x y : Option Byte) (h : SectionsSound s) :
    SectionsSound (tripCause s c o x y) := by
  unfold tripCause
  split
  · exact h.same
  · exact h
  · unfold tripped
    dsimp only
    refine SectionsSound.same (sectionsAtTrip_sound (SectionsSound.same h (t := raise
      { s with part := .tripped, trip := some (tripRecord s c o x y), startTimer := none } .trip o c.code))) ?_ ?_ <;> simp

theorem Moves.sectionsSound {s t : State} (h : Moves s t) (hs : SectionsSound s) : SectionsSound t := by
  cases h with
  | trip c o x y => exact tripCause_sectionsSound c o x y hs
  | running => exact hs.same
  | switching => unfold switchTaken; split <;> exact hs.same rfl rfl
  | compared =>
    unfold startupCompared
    split
    · exact (bankAdopted_sectionsSound _ hs).same rfl rfl
    · exact hs.same
  | completed img =>
    have hchecked : SectionsSound { s with check := .unchecked, switchHeld := false } := hs.same rfl rfl
    exact (bankAdopted_sectionsSound img hchecked).same (by simp [switchCompleted]) (by simp [switchCompleted])

theorem Ends.sectionsSound {s t : State} (h : Ends s t) (hs : SectionsSound s) : SectionsSound t := by
  rcases h with h | ⟨x, y, hx, hy, ht⟩
  · exact h.sectionsSound hs
  · exact (hy.sectionsSound (hx.sectionsSound hs)).same (by simp only [ht.same]) (by simp only [ht.same])

/-- Every arrival keeps the records of the sections sound. -/
theorem Follows.sectionsSound {s t : State} (h : Follows s t) (hs : SectionsSound s) : SectionsSound t := by
  rcases h with h | ⟨x, e, p, o, hx, rfl⟩
  · exact hs.same (by simp only [h.same]) (by simp only [h.same])
  · exact (hx.sectionsSound hs).same

theorem step_keeps_sectionsSound {s t : State} (hs : SectionsSound s) (h : step s = .next t) : SectionsSound t := by
  refine step_keeps (P := SectionsSound) (fun s q h => h.same rfl rfl) (fun c s t h hs => ?_) h hs
  exact exec_keeps (fun k held s _ => ⟨fun _ => rfl, fun _ hb => nomatch hb⟩) (fun s dt h => h.same rfl rfl)
    (fun s t hs ha => ha.follows.sectionsSound hs) h hs

end Sys2Proof.Machine
end

section
/-! PROOF. Every step keeps every alarm telling what its lamp does, and every diagram output at the mode of its source. -/

namespace Sys2Proof.Machine

/-! ### Lamp records whose numbers differ -/

theorem modifyRec_absent {α : Type} {r : Recs α} {n : Nat} (h : n ∉ r.map Prod.fst) (f : α → α) : modifyRec r n f = r := by
  have hid : ∀ p ∈ r, (if p.1 = n then (p.1, f p.2) else p) = p := fun p hp =>
    if_neg fun hn => h (List.mem_map.2 ⟨p, hp, hn⟩)
  exact (List.map_congr_left hid).trans (List.map_id r)

theorem modifyRec_middle {α : Type} {before after : Recs α} {n : Nat} {x : α} (f : α → α)
    (h : ((before ++ (n, x) :: after).map Prod.fst).Nodup) :
    modifyRec (before ++ (n, x) :: after) n f = before ++ (n, f x) :: after := by
  rw [List.map_append, List.map_cons, List.nodup_middle, List.nodup_cons, List.mem_append, not_or] at h
  obtain ⟨⟨hbefore, hafter⟩, -⟩ := h
  have happ : modifyRec (before ++ (n, x) :: after) n f = modifyRec before n f ++ (n, f x) :: modifyRec after n f := by
    simp [modifyRec]
  rw [happ, modifyRec_absent hbefore, modifyRec_absent hafter]

/-- The record that `alarmsAgree` leaves of a lamp (R152). -/
def agreed (r : LampRec) : LampRec := { r with alarm := (alarmAgree r.alarm r.state).1 }

/-- Every alarm is brought into agreement with its lamp (R152). -/
theorem alarmsAgree_lamps {s : State} (h : (s.lamps.map Prod.fst).Nodup) :
    (alarmsAgree s).lamps = s.lamps.map fun p => (p.1, agreed p.2) := by
  have hover : ∀ (l before : Recs LampRec) (x : State), x.lamps = before ++ l → ((before ++ l).map Prod.fst).Nodup →
      (l.foldl (fun s p => raiseAlarm (modifyLamp s p.1 fun r => { r with alarm := (alarmAgree p.2.alarm p.2.state).1 }) p.1
        p.2.state (alarmAgree p.2.alarm p.2.state).1 (alarmAgree p.2.alarm p.2.state).2) x).lamps =
      before ++ l.map fun p => (p.1, agreed p.2) := by
    intro l
    induction l with
    | nil => exact fun before x hx _ => by simpa using hx
    | cons p l ih =>
      intro before x hx hd
      have hstep := modifyRec_middle (fun r => { r with alarm := (alarmAgree p.2.alarm p.2.state).1 }) hd
      rw [List.foldl_cons, ih (before ++ [(p.1, agreed p.2)])]
      · simp
      · simp only [raiseAlarm_same, modifyLamp_lamps, hx, hstep]
        simp [agreed]
      · simpa using hd
  exact hover s.lamps [] s rfl h

theorem agreed_tells (r : LampRec) : alarmTells (agreed r) := by
  obtain ⟨st, _, _, al⟩ := r
  cases st <;> cases al <;> simp [agreed, alarmAgree, alarmTells]

/-! ### Alarms that tell -/

theorem AlarmsTell.same {s t : State} (h : AlarmsTell s) (ha : t.active = s.active := by simp)
    (hl : t.lamps = s.lamps := by simp) (hp : t.part = s.part := by simp) : AlarmsTell t := by
  unfold AlarmsTell
  rw [ha, hl, hp]
  exact h

/-- The alarms, once brought into agreement, tell in every part state. -/
theorem alarmsAgree_tell {s : State} (hnone : s.active = none → s.lamps = []) (hd : (s.lamps.map Prod.fst).Nodup) :
    AlarmsTell (alarmsAgree s) := by
  have hlamps := alarmsAgree_lamps hd
  refine ⟨fun ha => ?_, ?_, fun _ p hp => ?_⟩
  · rw [hlamps, hnone (by simpa using ha)]
    rfl
  · rw [hlamps, mapRec_numbers s.lamps fun _ => agreed]
    exact hd
  · rw [hlamps] at hp
    obtain ⟨q, -, rfl⟩ := List.mem_map.1 hp
    exact agreed_tells q.2

theorem alarmStep_tells {old : LampRec} (new : LampRec) (h : alarmTells old) :
    alarmTells { new with alarm := (alarmStep old.alarm old.state new.state).1 } := by
  obtain ⟨ost, _, _, oal⟩ := old
  obtain ⟨st, _, _, al⟩ := new
  cases ost <;> cases oal <;> simp [alarmTells] at h <;> cases st <;> simp [alarmStep, alarmTells]

theorem changeLamp_lamps (s : State) (p : Nat) (new : LampRec) {old : LampRec} (h : recAt s.lamps p = some old) :
    (changeLamp s p new).lamps = modifyRec s.lamps p fun _ => { new with
      alarm := if alarmsJudged s.part then (alarmStep old.alarm old.state new.state).1 else old.alarm } := by
  unfold changeLamp
  rw [h]
  dsimp only
  simp only [raiseAlarm_same, modifyLamp_lamps]
  split <;> rfl

theorem changeLamp_tell {s : State} (p : Nat) (new : LampRec) (h : AlarmsTell s) : AlarmsTell (changeLamp s p new) := by
  cases hr : recAt s.lamps p with
  | none =>
    have hsame : changeLamp s p new = s := by unfold changeLamp; rw [hr]
    rw [hsame]
    exact h
  | some old =>
    obtain ⟨hnone, hd, htell⟩ := h
    have hlamps := changeLamp_lamps s p new hr
    refine ⟨fun ha => ?_, ?_, fun hp => ?_⟩
    · rw [hnone (by simpa using ha)] at hr
      cases hr
    · rw [hlamps, modifyRec_numbers]
      exact hd
    · have hp' : s.part = .running ∨ s.part = .tripped := by simpa using hp
      rw [hlamps, if_pos ((alarmsJudged_iff _).2 hp')]
      exact modifyRec_all (P := fun _ r => alarmTells r) (htell hp') fun _ _ _ =>
        alarmStep_tells new (htell hp' _ (recAt_mem hr))

theorem acknowledge_tell {s : State} (h : AlarmsTell s) : AlarmsTell (acknowledge s) := by
  obtain ⟨hnone, hd, htell⟩ := h
  unfold acknowledge
  split
  · refine ⟨fun ha => ?_, ?_, fun hp p hmem => ?_⟩
    · have hnil := hnone ha
      dsimp only
      rw [hnil]
      rfl
    · exact (mapRec_numbers s.lamps fun _ r => { r with alarm := acknowledgedAlarm r.alarm }).symm ▸ hd
    · obtain ⟨q, hq, rfl⟩ := List.mem_map.1 hmem
      have hold := htell hp q hq
      obtain ⟨n, st, _, _, al⟩ := q
      cases al <;> simpa [alarmTells, acknowledgedAlarm] using hold
  · exact ⟨hnone, hd, htell⟩

theorem lampsLost_tell (ns : List Nat) {s : State} (h : AlarmsTell s) : AlarmsTell (ns.foldl lampLost s) := by
  induction ns generalizing s with
  | nil => exact h
  | cons n ns ih =>
    refine ih ?_
    unfold lampLost
    split
    · exact changeLamp_tell n _ h
    · exact h

theorem objectsLost_tell {b : Bank} (k : UnitKind) (ns : List Nat) {s : State} (h : AlarmsTell s) :
    AlarmsTell (objectsLost b k ns s) := by
  unfold objectsLost
  split
  · exact h.same
  · induction ns generalizing s with
    | nil => exact h
    | cons n ns ih => exact ih h.same
  · exact lampsLost_tell ns h
  · induction ns generalizing s with
    | nil => exact h
    | cons n ns ih => exact ih h.same
  all_goals exact h

theorem Alters.alarmsTell {s t : State} (h : Alters s t) (hs : AlarmsTell s) : AlarmsTell t := by
  cases h with
  | hushed h => exact hs.same (by simp only [h.same]) (by simp only [h.same]) (by simp only [h.same])
  | objectsFall b a => exact objectsLost_tell _ _ hs
  | lamp p new => exact changeLamp_tell p new hs
  | acknowledged => exact acknowledge_tell hs
  | sampled b a bytes =>
    rw [concluded_reading]
    refine hs.same ?_ ?_ ?_ <;> simp only [secondPass_same, modesComputed, concludeLevers_same, firstPass_same]
  | placed | windowEnds | probing | unit | line | bell | exchange | groups | store | farArrives | farLost | commutator
  | released | reported | lever | pickedUp | restoredTrack => exact hs.same

theorem Leads.alarmsTell {s t : State} (h : Leads s t) (hs : AlarmsTell s) : AlarmsTell t := by
  induction h with
  | refl => exact hs
  | tail _ h ih => exact h.alarmsTell ih

/-! ### The moves of the part state -/

/-- What the alarms need where they are not judged. -/
def LampsOk (s : State) : Prop := (s.active = none → s.lamps = []) ∧ (s.lamps.map Prod.fst).Nodup

theorem AlarmsTell.ok {s : State} (h : AlarmsTell s) : LampsOk s := ⟨h.1, h.2.1⟩

theorem LampsOk.same {s t : State} (h : LampsOk s) (ha : t.active = s.active := by simp)
    (hl : t.lamps = s.lamps := by simp) : LampsOk t := by
  unfold LampsOk
  rw [ha, hl]
  exact h

theorem AlarmsTell.raised {s : State} (h : AlarmsTell s) (k : EventKind) (o d : Nat) : AlarmsTell (raise s k o d) := h.same

theorem LampsOk.unjudged {s : State} (h : LampsOk s) (hr : s.part ≠ .running) (ht : s.part ≠ .tripped) : AlarmsTell s :=
  ⟨h.1, h.2, fun hp => (hp.elim hr ht).elim⟩

theorem LampsOk.agree {s : State} (h : LampsOk s) : AlarmsTell (alarmsAgree s) := alarmsAgree_tell h.1 h.2

theorem tripCause_tell {s : State} (c : TripCause) (o : Nat) (x y : Option Byte) (h : AlarmsTell s) :
    AlarmsTell (tripCause s c o x y) := by
  unfold tripCause
  split
  · exact h.same
  · exact h
  · unfold tripped
    dsimp only
    let z := sectionsAtTrip (raise { s with part := .tripped, trip := some (tripRecord s c o x y), startTimer := none }
      .trip o c.code)
    have hz : z.active = s.active ∧ z.lamps = s.lamps ∧ z.part = .tripped := by simp [z]
    have halarms : AlarmsTell (alarmsAtTrip s.part z) := by
      unfold alarmsAtTrip
      split
      · next hp =>
        refine ⟨?_, ?_, fun _ => ?_⟩
        · rw [hz.1, hz.2.1]; exact h.1
        · rw [hz.2.1]; exact h.2.1
        · rw [hz.2.1]; exact h.2.2 (.inl hp)
      · exact (h.ok.same hz.1 hz.2.1).agree
    have hheld : ∀ x : State, AlarmsTell x → AlarmsTell (heldTripped x) := fun x hx => hx.same
    exact hheld _ halarms

theorem lampsAdopted_ok (old : Option Bank) (new : Bank) (lost : List Nat) {s : State} (ha : s.active.isSome = true) :
    LampsOk (lampsAdopted old new lost s) := by
  have hnumbers : ∀ (ns : List Nat) (x : State), (ns.foldl lampLost x).lamps.map Prod.fst = x.lamps.map Prod.fst := by
    intro ns
    induction ns with
    | nil => exact fun _ => rfl
    | cons n ns ih =>
      intro x
      refine (ih _).trans ?_
      unfold lampLost
      split
      · next r hr => rw [changeLamp_lamps x n _ hr, modifyRec_numbers]
      · rfl
  refine ⟨fun hn => ?_, ?_⟩
  · rw [show s.active = none by simpa using hn] at ha
    cases ha
  · unfold lampsAdopted
    rw [hnumbers, remade_numbers]
    exact objects_nodup new .lu

theorem bankAdopted_lampsOk (img : BankImage) (s : State) : LampsOk (bankAdopted img s) := by
  have hlater : ∀ (old : Option Bank) (new : Bank) (ts : Recs TrackRec) (x : State), LampsOk x →
      LampsOk (linesAdopted old new (probesPlaced old new (tracksHanded ts new (groupsAdopted old new x)))) :=
    fun _ _ _ _ hx => hx.same
  exact hlater _ _ _ _ (lampsAdopted_ok _ _ _ (by simp))

theorem startingEnds_tell {s : State} (h : LampsOk s) : AlarmsTell (startingEnds s) := by
  have hbegun : LampsOk { s with part := .running, startTimer := none } := h.same rfl rfl
  exact hbegun.agree.raised _ _ _

theorem Moves.alarmsTell {s t : State} (h : Moves s t) (hs : AlarmsTell s) : AlarmsTell t := by
  cases h with
  | trip c o x y => exact tripCause_tell c o x y hs
  | running => exact startingEnds_tell hs.ok
  | switching =>
    unfold switchTaken
    split
    · exact LampsOk.unjudged (hs.ok.same rfl rfl) (by simp) (by simp)
    · exact hs
  | compared hd =>
    have hp : s.part = .starting := by
      unfold comparisonDue at hd
      simp only [Bool.and_eq_true, decide_eq_true_eq] at hd
      exact hd.1
    unfold startupCompared
    split
    · exact LampsOk.unjudged ((bankAdopted_lampsOk _ s).same rfl rfl) (by simp [hp]) (by simp [hp])
    · exact LampsOk.unjudged hs.ok.same (by simp) (by simp)
  | completed img =>
    have hrunning : ∀ x : State, LampsOk x → LampsOk { x with part := .running } := fun x hx => hx.same rfl rfl
    exact (hrunning _ (bankAdopted_lampsOk img _)).agree.raised _ _ _

theorem Ends.alarmsTell {s t : State} (h : Ends s t) (hs : AlarmsTell s) : AlarmsTell t := by
  rcases h with h | ⟨x, y, hx, hy, ht⟩
  · exact h.alarmsTell hs
  · exact (hy.alarmsTell (hx.alarmsTell hs)).same (by simp only [ht.same]) (by simp only [ht.same]) (by simp only [ht.same])

/-! ### The end of an arrival -/

theorem startingChecked_tell {s : State} (h : AlarmsTell s) : AlarmsTell (startingChecked s) := by
  rcases startingChecked_cases s with hc | ⟨-, -, hc⟩
  · rw [hc]; exact h
  · rw [hc]; exact startingEnds_tell h.ok

theorem Settled.alarmsTell {s t : State} (h : Settled s t) (hs : AlarmsTell s) : AlarmsTell t :=
  hs.same (by simp only [h.same]) (by simp only [h.same]) (by simp only [h.same])

theorem finishWith_tell (ended : List (Nat × Position)) (pass : List State) (old : State) {s : State} (h : AlarmsTell s) :
    AlarmsTell (finishWith ended pass old s) := by
  have hread : ∀ (e : List (Nat × Position)) (x : State), AlarmsTell x → AlarmsTell (concludeLevers e x) :=
    fun _ _ hx => hx.same
  have hreadings : AlarmsTell ((readingsWith ended s).getLastD s) := by
    rw [readingsWith_last]
    split
    · exact hread _ _ h
    · exact hread _ _ (startingChecked_tell (hread _ _ h))
  have hended : ∀ x : State, AlarmsTell x → AlarmsTell (startingEnded x) := by
    intro x hx
    unfold startingEnded
    dsimp only
    split
    · exact hx
    · exact (settle_settled _ _ _).alarmsTell (hread _ _ (startingChecked_tell hx))
  have harbiters : ∀ x : State, AlarmsTell x → AlarmsTell (arbiters x) := fun _ hx => hx.same
  exact harbiters _ (hended _ ((settle_settled _ _ _).alarmsTell ((settlePass_settled _ _).alarmsTell hreadings)))

theorem Follows.alarmsTell {s t : State} (h : Follows s t) (hs : AlarmsTell s) : AlarmsTell t := by
  rcases h with h | ⟨x, e, p, o, hx, rfl⟩
  · exact hs.same (by simp only [h.same]) (by simp only [h.same]) (by simp only [h.same])
  · exact finishWith_tell e p o (hx.alarmsTell hs)

theorem step_keeps_alarmsTell {s t : State} (hs : AlarmsTell s) (h : step s = .next t) : AlarmsTell t := by
  refine step_keeps (P := AlarmsTell) (fun s q h => h.same rfl rfl rfl) (fun c s t h hs => ?_) h hs
  exact exec_keeps (fun k held s _ => ⟨fun _ => rfl, List.nodup_nil, fun _ _ hp => nomatch hp⟩)
    (fun s dt h => h.same rfl rfl rfl) (fun s t hs ha => ha.follows.alarmsTell hs) h hs

/-! ### The modes of the diagram outputs -/

theorem unitMode_state (u : UnitRec) : unitMode u = unitMode { state := u.state } := rfl

theorem Hushed.sourceMode {s t : State} (h : Hushed s t) (e : DiagramEntry) : sourceMode t e = sourceMode s e := by
  have hunit : ∀ n, (recAt t.units n).map unitMode = (recAt s.units n).map unitMode := by
    intro n
    rcases cores_recAt_cases h.units n with ⟨ht, hs⟩ | ⟨u, v, ht, hs, huv⟩
    · rw [ht, hs]
    · rw [ht, hs, Option.map_some, Option.map_some, unitMode_state u, unitMode_state v, huv]
  have hlink : linkMode t.lineA = linkMode s.lineA ∧ linkMode t.lineB = linkMode s.lineB := by
    have ha : t.lineA.link = s.lineA.link := h.lines .a
    have hb : t.lineB.link = s.lineB.link := h.lines .b
    unfold linkMode
    rw [ha, hb]
    exact ⟨rfl, rfl⟩
  unfold Machine.sourceMode
  simp only [h.same, hunit, hlink]

theorem Hushed.outputsShow {s t : State} (h : Hushed s t) (hs : OutputsShow s) : OutputsShow t := by
  have hout : t.outputs = s.outputs := by simp only [h.same]
  unfold OutputsShow at hs ⊢
  rw [hout, hs, State.bank_of s t (by simp only [h.same])]
  cases s.bank with
  | none => rfl
  | some b => simp only [h.sourceMode]

theorem modesComputed_show {b : Bank} {s : State} (hb : s.bank = some b) : OutputsShow (modesComputed b s) := by
  have hb' : (modesComputed b s).bank = some b := hb
  unfold OutputsShow
  rw [hb']
  rfl

/-- Placing a DIAGRAM_SET drops nothing but itself, so that no unit's state changes (R9). -/
theorem diagramsPlaced_hushed (start : State) (stage : List State) (b : Bank) (s : State) :
    Hushed s (commandsPlaced start stage b .du s) := by
  refine Hushed.foldl (fun s a => ?_) _ s
  unfold commandPlaced
  split
  · next hk =>
    simp only [Bool.and_eq_true, decide_eq_true_eq] at hk
    split
    · next f hf =>
      unfold stateCommand at hf
      rw [hk.1] at hf
      cases hf
      exact place_hushed s (by simp [FrameKind.cls]) (by simp)
    · exact .refl s
  · exact .refl s

theorem settle_show {s : State} {b : Bank} (hb : s.bank = some b) (start : State) (stage : List State) :
    OutputsShow (settle start stage s) := by
  unfold settle
  rw [hb]
  refine (diagramsPlaced_hushed _ _ b _).outputsShow (modesComputed_show ?_)
  have hsettled := ((instrPlaced_settled start b s).trans (commandsPlaced_settled start (stage ++ [s]) b .lfu _)).trans
    (commandsPlaced_settled start [commandsPlaced start (stage ++ [s]) b .lfu (instrPlaced start b s)] b .iu _)
  exact (State.bank_of _ _ (by simp only [hsettled.same])).trans hb

/-- With no bank in use there are no outputs. -/
def OutputsIdle (s : State) : Prop := s.active = none → s.outputs = []

theorem OutputsShow.idle {s : State} (h : OutputsShow s) : OutputsIdle s := by
  intro ha
  unfold OutputsShow at h
  rw [h, State.bank, ha]
  rfl

theorem OutputsIdle.same {s t : State} (h : OutputsIdle s) (ha : t.active = s.active := by simp)
    (ho : t.outputs = s.outputs := by simp) : OutputsIdle t := by
  unfold OutputsIdle
  rw [ha, ho]
  exact h

theorem OutputsIdle.of_bank {s : State} (h : s.active.isSome = true) : OutputsIdle s := by
  intro ha
  rw [ha] at h
  cases h

theorem Alters.outputsIdle {s t : State} (h : Alters s t) (hs : OutputsIdle s) : OutputsIdle t := by
  cases h with
  | hushed h => exact hs.same (by simp only [h.same]) (by simp only [h.same])
  | sampled b a bytes hb ha hk =>
    obtain ⟨img, himg, -⟩ := State.bank_some hb
    refine .of_bank ?_
    rw [(Alters.sampled s b a bytes hb ha hk).same.1, himg]
    rfl
  | objectsFall | lamp | acknowledged | placed | windowEnds | probing | unit | line | bell | exchange | groups | store
  | farArrives | farLost | commutator | released | reported | lever | pickedUp | restoredTrack => exact hs.same

theorem Leads.outputsIdle {s t : State} (h : Leads s t) (hs : OutputsIdle s) : OutputsIdle t := by
  induction h with
  | refl => exact hs
  | tail _ h ih => exact h.outputsIdle ih

theorem Moves.outputsIdle {s t : State} (h : Moves s t) (hs : OutputsIdle s) : OutputsIdle t := by
  cases h with
  | trip | running => exact hs.same
  | switching => unfold switchTaken; split <;> exact hs.same rfl rfl
  | compared =>
    unfold startupCompared
    split
    · exact .of_bank (by simp)
    · exact hs.same
  | completed img => exact .of_bank (by simp)

theorem Ends.outputsIdle {s t : State} (h : Ends s t) (hs : OutputsIdle s) : OutputsIdle t := by
  rcases h with h | ⟨x, y, hx, hy, ht⟩
  · exact h.outputsIdle hs
  · exact (hy.outputsIdle (hx.outputsIdle hs)).same (by simp only [ht.same]) (by simp only [ht.same])

/-- The end of an arrival computes every mode afresh (R155). -/
theorem finishWith_show (ended : List (Nat × Position)) (pass : List State) (old : State) {s : State} (h : OutputsIdle s) :
    OutputsShow (finishWith ended pass old s) := by
  cases hb : s.bank with
  | none =>
    have ha : s.active = none := by simpa [State.bank] using hb
    have hshow : OutputsShow s := by
      unfold OutputsShow
      rw [hb, h ha]
    rw [finishWith_none ended pass old s ha]
    exact (arbiters_hushed s).outputsShow hshow
  | some b =>
    have hread : ((readingsWith ended s).getLastD s).bank = some b := by
      rw [State.bank_of s _ ?_]
      · exact hb
      · rw [(readingsWith_concluded ended s s).rest]
    have hsettled : OutputsShow (settle (pass.getLastD old) (readingsWith ended s)
        (settlePass pass ((readingsWith ended s).getLastD s))) :=
      settle_show ((State.bank_of _ _ (by simp only [(settlePass_settled pass _).same])).trans hread) _ _
    have hended : ∀ x : State, x.bank = some b → OutputsShow x → OutputsShow (startingEnded x) := by
      intro x hx hs
      unfold startingEnded
      dsimp only
      split
      · exact hs
      · refine settle_show ((State.bank_of _ _ ?_).trans hx) _ _
        have hbegun : (startingChecked x).active = x.active := by rw [(startingChecked_concluded x).rest]
        simp only [concludeLevers_same, hbegun]
    refine (arbiters_hushed _).outputsShow (hended _ ?_ hsettled)
    refine (State.bank_of _ _ ?_).trans hread
    simp only [(settle_settled _ _ _).same, (settlePass_settled pass _).same]

theorem Follows.outputsShow {s t : State} (h : Follows s t) (hs : OutputsShow s) : OutputsShow t := by
  rcases h with h | ⟨x, e, p, o, hx, rfl⟩
  · exact h.outputsShow hs
  · exact finishWith_show e p o (hx.outputsIdle hs.idle)

theorem step_keeps_outputsShow {s t : State} (hs : OutputsShow s) (h : step s = .next t) : OutputsShow t := by
  refine step_keeps (P := OutputsShow) (fun s q h => ?_) (fun c s t h hs => ?_) h hs
  · exact h
  · exact exec_keeps (fun k held s _ => rfl) (fun s dt h => (Hushed.advance s dt).outputsShow h)
      (fun s t hs ha => ha.follows.outputsShow hs) h hs

/-- Settles O58. -/
theorem recordsAreKeptSound : Obligations.RecordsAreKeptSound :=
  ⟨fun _ _ hs hc h => step_keeps_tracksSound hs hc h, fun _ _ hs h => step_keeps_sectionsSound hs h,
    fun _ _ hs h => step_keeps_alarmsTell hs h, fun _ _ hs h => step_keeps_outputsShow hs h⟩

end Sys2Proof.Machine
end

section
/-! PROOF. A section's own state may leave ON_LINE by another command than INSTR_REPORT: RETURN hands on any frame that it is
given, the report of an instrument unit included. -/

namespace Sys2Proof.Machine

/-- A bank of one instrument unit at address 1, whose channel 0 serves section 1, an INBOUND section. -/
def relayBank : Bank := { roster := [{ kind := 4, channels := [1] }], sections := [{ direction := 1 }] }

/-- The part runs with that bank; section 1 is ON_LINE, its train-out proving PROVEN. -/
def relayState : State :=
  { State.reset with
    active := some { bank := relayBank, crc := 0 }, part := .running, loop := .up, units := [(1, { state := .active })],
    sections := [(1, { own := .onLine, progress := .proven })] }

/-- The report of the unit that its commutator is turned to BLOCKED. -/
def relayReport : Frame := unitFrame 1 .instrReport [1, 0, 0]

/-- A RETURN that carries the report takes the commutator's move (R139). -/
theorem relay_moves :
    recAt (frameArrival relayState 0 11 relayReport).sections 1 = some { own := .blocked, commutator := .blocked } ∧
    (frameArrival relayState 0 11 relayReport).active = relayState.active := by
  decide +kernel

/-- Refutes O55: a RETURN whose frame is an INSTR_REPORT moves a section from ON_LINE to BLOCKED. -/
theorem not_ownStateMoves : ¬ Obligations.OwnStateMoves := by
  unfold Obligations.OwnStateMoves
  intro h
  obtain ⟨hmoved, hactive⟩ := relay_moves
  have hclause := (h (.ret 0 11 relayReport) relayState _ relayBank 1 _ _ rfl rfl (by decide) rfl hmoved).2 rfl rfl hactive
  obtain ⟨⟨dt, f, hcommand⟩, -⟩ := hclause
  cases hcommand

end Sys2Proof.Machine
end

section
/-! PROOF. Idle timers, the return timer, the transmitter and its queue. -/

namespace Sys2Proof.Machine

/-- A command whose arrival the part takes: its effect on the state in which its time has passed. -/
theorem next_awake {c : Instr} {s : State} {dt : Time} {e : State → State} (hc : exec c s = .next (arrival s dt e))
    (h : s.inReset = false) : exec c s = .next (e (s.advance dt)) :=
  hc.trans (congrArg _ (arrival_awake h dt e))

/-! ### Idle timers -/

theorem returnExpires_idle {q : Byte} {s : State} (h : ∀ p ∈ s.pendingReturns, p.seq = q → p.timer = none) :
    returnExpires q s = s := by
  unfold returnExpires
  split
  · next p hp =>
    have hidle := h p (List.mem_of_find?_eq_some hp) (by simpa using List.find?_some hp)
    rw [hidle]
  · rfl

theorem bind_timer_idle {α : Type} {r : Recs α} {n : Nat} {f : α → Option Time} (h : ∀ x, recAt r n = some x → f x = none) :
    (recAt r n).bind f = none := by
  cases hx : recAt r n with
  | none => rfl
  | some x => exact h x hx

theorem codeEnds_idle {n : Nat} {x : Side} {s : State} (h : ∀ r, recAt (s.recognisers x) n = some r → r.endTimer = none) :
    codeEnds n x s = s := by
  unfold codeEnds
  split
  · next r b hr hb => rw [h r hr]
  · rfl

/-- Settles O5. -/
theorem idleTimersDoNothing : Obligations.IdleTimersDoNothing := by
  unfold Obligations.IdleTimersDoNothing
  intro dt s hs
  have hidle : ∀ {c : Instr} {e : State → State}, exec c s = .next (arrival s dt e) → e (s.advance dt) = s.advance dt →
      exec c s = .next (s.advance dt) := fun hc he => (next_awake hc hs).trans (congrArg _ he)
  refine ⟨fun q h => hidle rfl (returnExpires_idle h), fun a h => hidle rfl ?_, fun h => hidle rfl ?_, fun a h => hidle rfl ?_,
    fun a h => hidle rfl ?_, fun a h => hidle rfl ?_, fun n h => hidle rfl ?_, fun n h => hidle rfl ?_, fun n h => hidle rfl ?_,
    fun n x h => hidle rfl (codeEnds_idle ?_), fun l h => hidle rfl ?_, fun l h => hidle rfl ?_, fun l h => hidle rfl ?_,
    fun h => hidle rfl ?_⟩
  · have h' : recAt (s.advance dt).refresh a = none := h
    unfold refreshExpires
    rw [h']
  · have h' : (s.advance dt).txHold = none := h
    unfold holdExpires
    rw [h']
  · have h' : (recAt (s.advance dt).units a).bind UnitRec.probeWindow = none := bind_timer_idle h
    unfold probeExpires
    rw [h']
  · have h' : (recAt (s.advance dt).units a).bind UnitRec.reprobe = none := bind_timer_idle h
    unfold reprobeExpires
    rw [h']
  · have h' : (recAt (s.advance dt).units a).bind UnitRec.report = none := bind_timer_idle h
    unfold reportExpires
    rw [h']
  · have h' : (recAt (s.advance dt).tracks n).bind TrackRec.timer = none := bind_timer_idle h
    unfold pickUpExpires
    rw [h']
  · have h' : (recAt (s.advance dt).levers n).bind LeverRec.approach = none := bind_timer_idle h
    unfold approachExpires
    rw [h']
  · have h' : (recAt (s.advance dt).exchanges n).bind Exchange.timer = none := bind_timer_idle h
    unfold repetitionExpires
    rw [h']
  · cases x <;> exact h
  · have h' : ((s.advance dt).line l).gapStart = none := by cases l <;> exact h
    unfold gapExpires
    rw [h']
  · have h' : ((s.advance dt).line l).linkTimer = none := by cases l <;> exact h
    unfold linkExpires
    rw [h']
  · have h' : ((s.advance dt).line l).statusTimer = none := by cases l <;> exact h
    unfold statusExpires
    rw [h']
  · have h' : (s.advance dt).startTimer = none := h
    unfold startExpires
    rw [h']

/-! ### The return timer, and a frame that has left -/

theorem warp_pendingReturns (s : State) (t : Time) : (s.warp t).pendingReturns = s.pendingReturns := by simp

/-- Settles O6. -/
theorem returnTimerLosesTheFrame : Obligations.ReturnTimerLosesTheFrame := by
  unfold Obligations.ReturnTimerLosesTheFrame
  intro dt q s p e hs hp he left removed
  rw [next_awake (e := returnExpires q) rfl hs]
  have hfind : (s.advance dt).pendingReturns.find? (fun p => p.seq = q) = some p := hp
  have hdue : ((s.advance dt).warp e).pendingReturns = s.pendingReturns := warp_pendingReturns _ _
  have hremoved : entriesLeave ((s.advance dt).warp e)
      (((s.advance dt).warp e).pendingReturns.eraseP fun q' => q'.seq = q) = removed := by
    unfold entriesLeave
    simp only [hdue]
    rfl
  have hmarks : removed.lossMarks = s.lossMarks := by
    rw [← hremoved]
    obtain ⟨q', n, x, r, u, f, hform⟩ := entriesLeave_form ((s.advance dt).warp e)
      (((s.advance dt).warp e).pendingReturns.eraseP fun q' => q'.seq = q)
    rw [hform]
    simp
  unfold returnExpires
  rw [hfind]
  dsimp only
  rw [he]
  dsimp only
  rw [hremoved]
  unfold entryLost
  rw [hmarks]
  simp only [List.contains_iff_mem]

/-- Settles O8. -/
theorem transmitterBecomesFree : Obligations.TransmitterBecomesFree := by
  unfold Obligations.TransmitterBecomesFree
  intro dt s hs
  refine ⟨fun h => ?_, fun x hx => ?_, fun e he => ?_⟩
  · have h' : (s.advance dt).sending = none := h
    rw [next_awake (e := frameLeaves) rfl hs]
    unfold frameLeaves
    rw [h']
  · have h' : (s.advance dt).sending = some x := hx
    intro now left
    rw [next_awake (e := frameLeaves) rfl hs]
    unfold frameLeaves
    rw [h']
    dsimp only
    congr 2
    have hwindow : restartWindow ((s.advance dt).after Config.probeTime) = fun u : UnitRec =>
        if (u.state = .probing ∨ u.state = .absent) ∧ u.probeWindow.isSome = true then
          { u with probeWindow := some (now.plus 10) } else u := by
      funext u
      unfold restartWindow UnitRec.probed
      simp only [Bool.and_eq_true, Bool.or_eq_true, decide_eq_true_eq]
      rfl
    rw [hwindow]
    rfl
  · have h' : (s.advance dt).txHold = some e := he
    rw [next_awake (e := holdExpires) rfl hs]
    unfold holdExpires
    rw [h']

end Sys2Proof.Machine
end

section
/-! PROOF. The outbound queue: what the arbiter takes, how a frame joins, and how an event joins its own queue. -/

namespace Sys2Proof.Machine

/-! ### The arbiter's choice (R10) -/

/-- The oldest frame of a class: every older one is of another class. -/
theorem takeOldest_split {c : Nat} {q : List OutFrame} {f : OutFrame} {rest : List OutFrame}
    (h : takeOldest c q = some (f, rest)) :
    ∃ older younger, q = older ++ f :: younger ∧ rest = older ++ younger ∧ f.kind.cls = c ∧ ∀ g ∈ older, g.kind.cls ≠ c := by
  induction q generalizing rest with
  | nil => cases h
  | cons g q ih =>
    unfold takeOldest at h
    split at h
    · next hg =>
      cases h
      exact ⟨[], q, rfl, rfl, hg, fun _ hx => nomatch hx⟩
    · next hg =>
      split at h
      · next hrest =>
        cases h
        obtain ⟨older, younger, rfl, rfl, hf, hother⟩ := ih hrest
        exact ⟨g :: older, younger, rfl, rfl, hf, fun x hx => (List.mem_cons.1 hx).elim (fun hx => hx ▸ hg) (hother x)⟩
      · cases h

theorem takeOldest_none {c : Nat} {q : List OutFrame} (h : takeOldest c q = none) : ∀ g ∈ q, g.kind.cls ≠ c := by
  induction q with
  | nil => exact fun _ hx => nomatch hx
  | cons g q ih =>
    unfold takeOldest at h
    split at h
    · cases h
    · next hg =>
      split at h
      · cases h
      · next hrest => exact fun x hx => (List.mem_cons.1 hx).elim (fun hx => hx ▸ hg) (ih hrest x)

theorem cls_mem (k : FrameKind) : k.cls ∈ [1, 2, 3, 4] := by
  cases k <;> simp [FrameKind.cls]

/-- The frame that the arbiter takes is the oldest of the most urgent class (R10). -/
theorem takeMostUrgent_split {q : List OutFrame} {f : OutFrame} {rest : List OutFrame}
    (h : takeMostUrgent q = some (f, rest)) :
    ∃ older younger, q = older ++ f :: younger ∧ rest = older ++ younger ∧ (∀ g ∈ older, f.kind.cls < g.kind.cls) ∧
      ∀ g ∈ younger, f.kind.cls ≤ g.kind.cls := by
  unfold takeMostUrgent at h
  obtain ⟨before, c, after, hclasses, hfound, hnone⟩ := List.findSome?_eq_some_iff.1 h
  obtain ⟨older, younger, rfl, rfl, hc, holder⟩ := takeOldest_split hfound
  have hurgent : ∀ g ∈ older ++ f :: younger, c ≤ g.kind.cls := by
    intro g hg
    by_contra hlt
    have hmem : g.kind.cls ∈ before := by
      have hg4 : g.kind.cls ∈ before ++ c :: after := hclasses ▸ cls_mem g.kind
      have hsorted : (before ++ c :: after).Pairwise (· < ·) := by
        rw [← hclasses]
        decide
      rcases List.mem_append.1 hg4 with hb | ha
      · exact hb
      · rcases List.mem_cons.1 ha with ha | ha
        · omega
        · have := (List.pairwise_cons.1 (List.pairwise_append.1 hsorted).2.1).1 _ ha
          omega
    exact takeOldest_none (hnone _ hmem) g hg rfl
  refine ⟨older, younger, rfl, rfl, fun g hg => ?_, fun g hg => ?_⟩
  · have hle := hurgent g (List.mem_append_left _ hg)
    have hne := holder g hg
    omega
  · rw [hc]
    exact hurgent g (List.mem_append_right _ (List.mem_cons_of_mem f hg))

theorem takeMostUrgent_nonempty {q : List OutFrame} (h : q ≠ []) : ∃ f rest, takeMostUrgent q = some (f, rest) := by
  cases ht : takeMostUrgent q with
  | some p => exact ⟨p.1, p.2, rfl⟩
  | none =>
    obtain ⟨g, q, rfl⟩ := List.exists_cons_of_ne_nil h
    unfold takeMostUrgent at ht
    rw [List.findSome?_eq_none_iff] at ht
    exact absurd rfl (takeOldest_none (ht _ (cls_mem g.kind)) g List.mem_cons_self)

/-! ### The bytes of a frame (R2, R182) -/

theorem bytes_append (x : BitVec 16) : x.extractLsb' 8 8 ++ x.extractLsb' 0 8 = x := by
  apply BitVec.eq_of_toNat_eq
  simp only [BitVec.toNat_append, BitVec.extractLsb'_toNat]
  rw [← Nat.shiftLeft_add_eq_or_of_lt (by omega)]
  have := x.isLt
  simp only [Nat.shiftLeft_eq, Nat.shiftRight_eq_div_pow]
  omega

/-- A frame whose CRC is computed is valid as soon as its payload has a fitting length (R2). -/
theorem frameValid_withCrc (kind : Byte) (f : Frame) :
    frameValid kind (withCrc kind f) = (decide (f.payload.length ≤ 24) && decide (payloadLength kind.toNat ≤ f.payload.length)) := by
  have hcovered : coveredBytes kind (withCrc kind f) = coveredBytes kind f := rfl
  have hcrc : (withCrc kind f).crcHigh ++ (withCrc kind f).crcLow = crc16 (coveredBytes kind f) := bytes_append _
  unfold frameValid
  rw [hcovered, hcrc, beq_self_eq_true, Bool.and_true]
  rfl

theorem transmitterFree_iff (s : State) :
    transmitterFree s = true ↔ s.txHold = none ∧ s.sending = none ∧ s.pendingReturns.length < 8 := by
  simp only [transmitterFree, Bool.and_eq_true, Option.isNone_iff_eq_none, decide_eq_true_iff, and_assoc]
  exact Iff.rfl

/-- The state in which the transmitter has taken a frame, written out (R10, R11, R12, R22). -/
theorem takeFrame_eq (s : State) (f : OutFrame) (rest : List OutFrame) :
    takeFrame s f rest = { s with
      outQueue := rest, seq := s.seq + 1,
      sending := some { seq := s.seq, kind := f.kind, dest := f.dest, restart := f.restart,
                        bytes := frameBytes f.kind.code (sentFrame s.seq f.kind f.dest f.payload) },
      pendingReturns := s.pendingReturns ++
        [{ seq := s.seq, kind := f.kind, dest := f.dest, payload := f.payload, timer := none }],
      units := if f.kind = .identProbe then modifyRec s.units f.dest (startWindow (s.after Config.probeTime)) else s.units,
      refresh := match s.bank with
        | some b => if (b.kindAt f.dest).refreshed = some f.kind then
            modifyRec s.refresh f.dest fun _ => s.after f.kind.period else s.refresh
        | none => s.refresh } := by
  have hbank : ∀ x : State, x.active = s.active → x.bank = s.bank := fun x hx => State.bank_of s x hx
  unfold takeFrame restartRefresh
  dsimp only
  by_cases hk : f.kind = .identProbe
  · rw [if_pos hk, if_pos hk, hbank _ (by simp)]
    cases s.bank with
    | none => rfl
    | some b => dsimp only; split <;> rfl
  · rw [if_neg hk, if_neg hk]
    dsimp only [State.bank]
    cases s.active with
    | none => rfl
    | some b => dsimp only [Option.map]; split <;> rfl

theorem refreshed_period {k : UnitKind} {f : FrameKind} (h : k.refreshed = some f) :
    f.period = if f = .diagramSet then 200 else 100 := by
  cases k <;> simp [UnitKind.refreshed] at h <;> subst h <;> rfl

/-- Settles O9. -/
theorem arbiterTakesTheMostUrgent : Obligations.ArbiterTakesTheMostUrgent := by
  unfold Obligations.ArbiterTakesTheMostUrgent
  refine ⟨fun s => ⟨fun h => ?_, fun hhold hsending hpending hq => ?_⟩, fun q k dest payload hmin hmax => ?_⟩
  · unfold arbiter
    split
    · next hfree =>
      obtain ⟨hhold, hsending, hpending⟩ := (transmitterFree_iff s).1 hfree
      rcases h with h | h | h | h
      · simp [hhold] at h
      · simp [hsending] at h
      · omega
      · rw [h]
        rfl
    · rfl
  · obtain ⟨f, rest, htake⟩ := takeMostUrgent_nonempty hq
    obtain ⟨older, younger, hsplit, rfl, holder, hyounger⟩ := takeMostUrgent_split htake
    refine ⟨older, f, younger, hsplit, holder, hyounger, ?_⟩
    intro covered
    have htaken : arbiter s = takeFrame s f (older ++ younger) := by
      unfold arbiter
      rw [(transmitterFree_iff s).2 ⟨hhold, hsending, hpending⟩, if_pos rfl, htake]
    have hwindow : startWindow (s.after Config.probeTime) = fun u : UnitRec =>
        if u.state = .probing ∨ u.state = .absent then { u with probeWindow := some (s.now.plus 10) } else u := by
      funext u
      unfold startWindow UnitRec.probed
      simp only [Bool.or_eq_true, decide_eq_true_eq]
      rfl
    have hrefresh : (match s.bank with
        | some b => if (b.kindAt f.dest).refreshed = some f.kind then
            modifyRec s.refresh f.dest fun _ => s.after f.kind.period else s.refresh
        | none => s.refresh) =
        if ∃ b, s.bank = some b ∧ (b.kindAt f.dest).refreshed = some f.kind then
          modifyRec s.refresh f.dest fun _ => s.now.plus (if f.kind = .diagramSet then 200 else 100)
        else s.refresh := by
      cases s.bank with
      | none => simp
      | some b =>
        dsimp only
        by_cases hk : (b.kindAt f.dest).refreshed = some f.kind
        · rw [if_pos hk, if_pos ⟨b, rfl, hk⟩, ← refreshed_period hk]
          rfl
        · rw [if_neg hk, if_neg]
          rintro ⟨b', hb', hk'⟩
          cases hb'
          exact hk hk'
    rw [htaken, takeFrame_eq, hwindow, hrefresh]
    rfl
  · rw [sentFrame, frameValid_withCrc]
    have hcode : (k.code : Byte).toNat = k.code := by cases k <;> rfl
    rw [hcode]
    simp [hmin, hmax]

/-! ### How an event joins (R178, R179) -/

theorem joined_room {q : List Event} (h : q.length < 64) (e : Event) : joined q e = q ++ [e] := if_pos h

theorem placeNotice_room {s : State} (h : s.outQueue.length < 24) (a : Nat) :
    placeNotice s a = queueJoined s (s.outQueue ++ [{ kind := .eventNotice, dest := a }]) := if_pos h

theorem placeNotice_full {s : State} (h : ¬s.outQueue.length < 24) (a : Nat) :
    placeNotice s a = joinEvent s .frameDropped a FrameKind.eventNotice.code := if_neg h

theorem raise_noticed {s : State} {a : Nat} (h : s.events = []) (ha : noticeAddress s = some a) (k : EventKind)
    (object detail : Nat) : raise s k object detail = placeNotice (joinEvent s k object detail) a := by
  unfold raise
  rw [if_pos (by simp [h]), ha]

/-- Settles O11. -/
theorem eventJoinsTheQueue : Obligations.EventJoinsTheQueue := by
  unfold Obligations.EventJoinsTheQueue
  intro s k object detail e lost terminal
  have hterminal : noticeAddress s = terminal := rfl
  have hfirst : s.events = [] → joinEvent s k object detail = { s with events := [e] } := by
    intro hs
    unfold joinEvent
    rw [joined_room (by rw [hs]; decide), hs]
    rfl
  have hbusy : s.events ≠ [] → raise s k object detail = joinEvent s k object detail := by
    intro hs
    unfold raise
    rw [if_neg (by simpa using hs)]
  refine ⟨fun hs hroom => ?_, fun oldest next rest hs hfull => ?_, fun hs ht => ?_, fun a hs ht hroom => ?_,
    fun a hs ht hfull => ?_⟩
  · rw [hbusy hs]
    unfold joinEvent
    rw [joined_room hroom]
  · rw [hbusy (by simp [hs])]
    unfold joinEvent joined
    rw [if_neg (by simp [hfull, Config.eventMax]), hfull, hs]
    rfl
  · unfold raise
    rw [if_pos (by simp [hs]), hterminal, ht]
    exact hfirst hs
  · rw [raise_noticed hs (hterminal.trans ht), hfirst hs, placeNotice_room (s := { s with events := [e] }) hroom]
    unfold queueJoined
    simp only [List.isEmpty_iff]
  · rw [raise_noticed hs (hterminal.trans ht), hfirst hs, placeNotice_full (s := { s with events := [e] }) (by simpa using hfull)]
    rfl

end Sys2Proof.Machine
end

section
/-! PROOF. Modes of the diagram outputs, strokes at a recogniser, the approach and repetition timers, and the transmit queues of
the lines with their timers. -/

namespace Sys2Proof.Machine

/-! ### The modes of the diagram outputs (R155) -/

/-- Settles O29. -/
theorem diagramModes : Obligations.DiagramModes := by
  unfold Obligations.DiagramModes
  intro s e n mode
  have hmode : mode = sourceMode s e := rfl
  rw [hmode]
  refine ⟨fun h r hr => ?track, fun h l hl => ?lever, fun h r hr hown => ?own, fun h r hr => ?far, fun h x hx => ?exchange,
    fun h r hr => ?alarm, fun h => ⟨fun hn => ?lineA, fun hn => ?lineB⟩, fun h u hu => ?unit, fun h hp => ?part⟩
  case track =>
    have hr' : recAt s.tracks e.object.toNat = some r := hr
    simp only [sourceMode, h, BitVec.reduceToNat, if_pos, hr', Option.map_some, Option.getD_some]
    cases hs : r.state <;> simp [trackMode, firstMode, hs]
  case lever =>
    have hl' : recAt s.levers e.object.toNat = some l := hl
    have hsource : sourceMode s e = leverMode l := by simp [sourceMode, h, hl']
    rw [hsource]
    cases hpos : l.position <;> cases hv : l.violation <;> simp [leverMode, firstMode, hpos, hv]
  case own =>
    have hr' : recAt s.sections e.object.toNat = some r := hr
    have hsource : sourceMode s e = ownMode r := by simp [sourceMode, h, hr']
    rw [hsource]
    cases hs : r.own <;> simp [ownMode, firstMode, hs]
  case far =>
    have hr' : recAt s.sections e.object.toNat = some r := hr
    have hsource : sourceMode s e = farMode r := by simp [sourceMode, h, hr']
    rw [hsource]
    cases hs : r.far <;> simp [farMode, firstMode, hs]
  case exchange =>
    have hx' : recAt s.exchanges e.object.toNat = some x := hx
    have hsource : sourceMode s e = exchangeMode x := by simp [sourceMode, h, hx']
    rw [hsource]
    cases ho : x.origin <;> cases hs : x.status <;> simp [exchangeMode, firstMode, ho, hs]
  case alarm =>
    have hr' : recAt s.lamps e.object.toNat = some r := hr
    have hsource : sourceMode s e = alarmMode r := by simp [sourceMode, h, hr']
    rw [hsource]
    cases hs : r.alarm <;> simp [alarmMode, firstMode, hs]
  case lineA => simp [sourceMode, h, hn, linkMode, firstMode]
  case lineB => simp [sourceMode, h, hn, linkMode, firstMode]
  case unit =>
    have hu' : recAt s.units e.object.toNat = some u := hu
    have hsource : sourceMode s e = unitMode u := by simp [sourceMode, h, hu']
    rw [hsource]
    cases hs : u.state <;> simp [unitMode, firstMode, hs]
  case part =>
    have hsource : sourceMode s e = partMode s.part := by simp [sourceMode, h]
    rw [hsource]
    cases hs : s.part <;> simp [partMode, firstMode]

/-! ### A stroke at a recogniser (R122) -/

/-- The groups after a stroke, the gap deciding (R122). -/
theorem groupsAfter_append (before : List Nat) (n : Nat) (sameGroup : Bool) :
    groupsAfter sameGroup (before ++ [n]) =
      if sameGroup then (if 9 ≤ n then none else some (before ++ [n + 1]))
      else if 3 ≤ before.length then none else some (before ++ [n, 1]) := by
  cases sameGroup <;> simp [groupsAfter]

/-- Settles O32. -/
theorem recogniserTakesAStroke : Obligations.RecogniserTakesAStroke := by
  unfold Obligations.RecogniserTakesAStroke
  intro t now dropped r x
  have hx : x = recogniserTakes t now dropped r := rfl
  have htimed : x.collecting = true ∧ x.last = some now ∧ x.endTimer = some (now.plus t.te.toNat) := by
    rw [hx]
    unfold recogniserTakes
    dsimp only
    split
    · exact ⟨rfl, rfl, rfl⟩
    · split
      · exact ⟨rfl, rfl, rfl⟩
      · split <;> exact ⟨rfl, rfl, rfl⟩
  obtain ⟨hcollecting, hlast, hend⟩ := htimed
  refine ⟨hcollecting, hlast, hend, fun hidle => ?_, fun hbusy hspoilt => ?_, fun before n last hbusy hvalid hkept hgroups hl => ?_⟩
  · rw [hx]
    simp [recogniserTakes, hidle]
  · rw [hx]
    simp [recogniserTakes, hbusy, hspoilt]
  · intro gap
    have hgap : gap = now.since last := rfl
    have htaken : x = match groupsAfter (decide (gap < t.tg.toNat)) (before ++ [n]) with
        | some g => { r with collecting := true, last := some now, endTimer := some (now.plus t.te.toNat), groups := g }
        | none => { r with collecting := true, last := some now, endTimer := some (now.plus t.te.toNat), invalid := true } := by
      rw [hx, hgap, ← hgroups]
      simp [recogniserTakes, hbusy, hvalid, hkept, hl] <;> rfl
    rw [htaken, groupsAfter_append, hgroups]
    refine ⟨fun hshort hn => ?_, fun hshort hn => ?_, fun hlong hb => ?_, fun hlong hb => ?_⟩
    · simp [hshort, hvalid, Nat.not_le.2 hn]
    · simp [hshort, hn]
    · simp [Nat.not_lt.2 hlong, Nat.not_le.2 hb, hvalid]
    · simp [Nat.not_lt.2 hlong, hb]

/-! ### Approach and repetition timers (R84, R127) -/

/-- Settles O26. -/
theorem approachAndRepetitionTimers : Obligations.ApproachAndRepetitionTimers := by
  unfold Obligations.ApproachAndRepetitionTimers
  intro dt n s e hs due
  have hlevers : due.levers = s.levers := by simp [due]
  have hexchanges : due.exchanges = s.exchanges := by simp [due]
  constructor
  · intro l hl he ended
    have hrun : (recAt (s.advance dt).levers n).bind LeverRec.approach = some e := by simp [hl, he]
    have hleft : recAt ({ due with levers := modifyRec s.levers n fun l => { l with approach := none } } : State).levers n =
        some { l with approach := none } := by simp [hl]
    obtain ⟨l', hl', hpos, -, hv, ha⟩ := (finish_concluded due _).lever hleft
    refine ⟨?_, l', hl', ha, hpos, hv⟩
    rw [next_awake (e := approachExpires n) rfl hs]
    unfold approachExpires modifyLever
    rw [hrun]
    dsimp only
    rw [hlevers]
  · intro x hx he expired
    have hrun : (recAt (s.advance dt).exchanges n).bind Exchange.timer = some e := by simp [hx, he]
    refine ⟨?_, by simp [expired, hx]⟩
    rw [next_awake (e := repetitionExpires n) rfl hs]
    unfold repetitionExpires modifyExchange
    rw [hrun]
    dsimp only
    rw [hexchanges]
    rfl

end Sys2Proof.Machine
end

section
/-! PROOF. Raising an event reads nine fields and writes five; so it may change places with whatever touches neither. The
transmit queues of the lines and their timers. -/

namespace Sys2Proof.Machine

/-! ### What raising reads and writes -/

/-- The fields that raising an event reads agree. -/
structure ToldAlike (s t : State) : Prop where
  now : t.now = s.now
  events : t.events = s.events
  outQueue : t.outQueue = s.outQueue
  seq : t.seq = s.seq
  sending : t.sending = s.sending
  txHold : t.txHold = s.txHold
  pendingReturns : t.pendingReturns = s.pendingReturns
  active : t.active = s.active
  lastRequester : t.lastRequester = s.lastRequester

/-- `t` with the five fields that raising an event writes as they stand in `r`. -/
def toldAs (r t : State) : State :=
  { t with events := r.events, outQueue := r.outQueue, seq := r.seq, sending := r.sending, pendingReturns := r.pendingReturns }

theorem toldAs_told {s r : State} (h : Told s r) : toldAs r s = r := by
  obtain ⟨e, q, n, x, p, rfl⟩ := h
  rfl

theorem toldAs_raise (s : State) (k : EventKind) (o d : Nat) : toldAs (raise s k o d) s = raise s k o d :=
  toldAs_told (raise_form s k o d)

/-- The notice of the first event, taken at once or left in the queue. -/
theorem queueJoined_notice (s : State) (a : Nat) :
    queueJoined s (s.outQueue ++ [{ kind := .eventNotice, dest := a }]) =
      if s.outQueue = [] ∧ transmitterFree s = true then
        { s with outQueue := [], seq := s.seq + 1,
                 sending := some { seq := s.seq, kind := .eventNotice, dest := a, restart := false,
                                   bytes := frameBytes FrameKind.eventNotice.code (sentFrame s.seq .eventNotice a []) },
                 pendingReturns := s.pendingReturns ++
                   [{ seq := s.seq, kind := .eventNotice, dest := a, payload := [], timer := none }] }
      else { s with outQueue := s.outQueue ++ [{ kind := .eventNotice, dest := a }] } := by
  by_cases hq : s.outQueue = []
  · have hfree : transmitterFree { s with outQueue := [({ kind := .eventNotice, dest := a } : OutFrame)] } = transmitterFree s := rfl
    have hrefresh : ∀ b : Bank, (b.kindAt a).refreshed ≠ some .eventNotice := fun b => by
      cases b.kindAt a <;> simp [UnitKind.refreshed]
    unfold queueJoined arbiter
    dsimp only
    rw [hq]
    simp only [List.isEmpty_nil, if_true, List.nil_append, hfree, true_and]
    by_cases h : transmitterFree s = true
    · rw [if_pos h, if_pos h]
      have htake : takeMostUrgent [({ kind := .eventNotice, dest := a } : OutFrame)] = some ({ kind := .eventNotice, dest := a }, []) := rfl
      rw [htake]
      dsimp only
      rw [takeFrame_eq]
      cases hb : s.active <;> simp [State.bank, hrefresh]
    · rw [if_neg h, if_neg h]
  · rw [queueJoined_waits s _ hq, if_neg (fun h => hq h.1)]

/-- Where the fields that raising reads agree, it writes the same. -/
theorem raise_alike {s t : State} (h : ToldAlike s t) (k : EventKind) (o d : Nat) :
    raise t k o d = toldAs (raise s k o d) t := by
  obtain ⟨h1, h2, h3, h4, h5, h6, h7, h8, h9⟩ := h
  have hfree : transmitterFree (joinEvent t k o d) = transmitterFree (joinEvent s k o d) := by
    unfold transmitterFree joinEvent
    dsimp only
    rw [h5, h6, h7]
  have hbank : t.bank = s.bank := State.bank_of s t h8
  have haddress : noticeAddress t = noticeAddress s := by simp only [noticeAddress, hbank, h9]
  unfold raise
  dsimp only
  rw [h2, haddress]
  split
  · split
    · unfold placeNotice
      rw [queueJoined_notice, queueJoined_notice, hfree]
      unfold joinEvent
      dsimp only
      rw [h3, h2, h1, h4, h7]
      split
      · split <;> simp only [toldAs, h1, h5]
      · simp only [toldAs, h1, h5]
    · simp only [toldAs, joinEvent, h1, h2, h3, h4, h5, h7]
  · simp only [toldAs, joinEvent, h1, h2, h3, h4, h5, h7]

theorem raise_modifyLine (s : State) (l : Line) (f : LineRec → LineRec) (k : EventKind) (o d : Nat) :
    raise (modifyLine s l f) k o d = modifyLine (raise s k o d) l f := by
  rw [raise_alike (s := s) (by cases l <;> constructor <;> rfl), ← toldAs_raise s k o d]
  cases l <;> rfl

/-! ### The arbiter of a line (R114) -/

/-- How urgent a message is: strokes before own states, these before a STATUS (R114). -/
def LineMsg.rank : LineMsg → Nat
  | .stroke _ => 1
  | .instr _ _ => 2
  | .status _ _ => 3

/-- The first message of a kind, and the queue without it. -/
theorem first_split {p : LineMsg → Bool} {q rest : List LineMsg} {m : LineMsg}
    (h : (q.find? p).map (fun m => (m, q.eraseP p)) = some (m, rest)) :
    ∃ older younger, q = older ++ m :: younger ∧ rest = older ++ younger ∧ p m = true ∧ ∀ w ∈ older, p w = false := by
  obtain ⟨x, hx, hxm⟩ := Option.map_eq_some_iff.1 h
  cases hxm
  obtain ⟨hp, older, younger, hq, holder⟩ := List.find?_eq_some_iff_append.1 hx
  have holder' : ∀ w ∈ older, p w = false := fun w hw => by simpa using holder w hw
  refine ⟨older, younger, hq, ?_, hp, holder'⟩
  rw [hq, List.eraseP_append_right _ (fun w hw => by simp [holder' w hw]), List.eraseP_cons_of_pos hp]

theorem first_none {p : LineMsg → Bool} {q : List LineMsg} (h : (q.find? p).map (fun m => (m, q.eraseP p)) = none) :
    ∀ w ∈ q, p w = false := by
  rw [Option.map_eq_none_iff, List.find?_eq_none] at h
  exact fun w hw => by simpa using h w hw

theorem rank_of_not_stroke {w : LineMsg} (h : w.isStroke = false) : 2 ≤ w.rank := by
  cases w <;> simp_all [LineMsg.isStroke, LineMsg.rank]

/-- The message that a line's arbiter takes is the oldest of the most urgent rank (R114). -/
theorem takeMessage_split {q rest : List LineMsg} {m : LineMsg} (h : takeMessage q = some (m, rest)) :
    ∃ older younger, q = older ++ m :: younger ∧ rest = older ++ younger ∧ (∀ w ∈ older, m.rank < w.rank) ∧
      ∀ w ∈ younger, m.rank ≤ w.rank := by
  unfold takeMessage at h
  dsimp only at h
  split at h
  case h_1 r hr =>
    obtain ⟨older, younger, hq, hrest, hm, holder⟩ := first_split (hr.trans h)
    have hrank : m.rank = 1 := by cases m <;> simp_all [LineMsg.isStroke, LineMsg.rank]
    refine ⟨older, younger, hq, hrest, fun w hw => ?_, fun w _ => ?_⟩
    · have := rank_of_not_stroke (holder w hw)
      omega
    · rw [hrank]
      cases w <;> simp [LineMsg.rank]
  case h_2 hstroke =>
    have hnone := first_none hstroke
    split at h
    case h_1 r hr =>
      obtain ⟨older, younger, hq, hrest, hm, holder⟩ := first_split (hr.trans h)
      have hrank : m.rank = 2 := by cases m <;> simp_all [LineMsg.rank]
      refine ⟨older, younger, hq, hrest, fun w hw => ?_, fun w hw => ?_⟩
      · have hs := hnone w (hq ▸ List.mem_append_left _ hw)
        have hi := holder w hw
        rw [hrank]
        cases w <;> simp_all [LineMsg.isStroke, LineMsg.rank]
      · rw [hrank]
        exact rank_of_not_stroke (hnone w (hq ▸ List.mem_append_right _ (List.mem_cons_of_mem m hw)))
    case h_2 hinstr =>
      have hnone' := first_none hinstr
      have hrank : ∀ w ∈ q, w.rank = 3 := fun w hw => by
        have hs := hnone w hw
        have hi := hnone' w hw
        cases w <;> simp_all [LineMsg.isStroke, LineMsg.rank]
      obtain ⟨older, younger, hq, hrest, -, holder⟩ := first_split h
      refine ⟨older, younger, hq, hrest, fun w hw => (Bool.noConfusion (holder w hw)), fun w hw => ?_⟩
      rw [hrank m (hq ▸ List.mem_append_right _ List.mem_cons_self),
        hrank w (hq ▸ List.mem_append_right _ (List.mem_cons_of_mem m hw))]

theorem takeMessage_nonempty {q : List LineMsg} (h : q ≠ []) : ∃ m rest, takeMessage q = some (m, rest) := by
  obtain ⟨m, q, rfl⟩ := List.exists_cons_of_ne_nil h
  unfold takeMessage
  dsimp only
  split
  · next r hr => exact ⟨r.1, r.2, rfl⟩
  · split
    · next r hr => exact ⟨r.1, r.2, rfl⟩
    · exact ⟨m, q, by simp⟩

theorem lineFree_iff (r : LineRec) :
    r.free = true ↔ r.settings.isSome = true ∧ r.sending = none ∧ r.startSeq = .idle := by
  simp only [LineRec.free, Bool.and_eq_true, Option.isNone_iff_eq_none, decide_eq_true_eq, and_assoc]

/-! ### How a message joins (R113) -/

/-- The youngest stroke of a queue, and the queue without it. -/
theorem takeYoungestStroke_split (older younger : List LineMsg) (c : Nat) (h : ∀ d, LineMsg.stroke d ∉ younger) :
    takeYoungestStroke (older ++ .stroke c :: younger) = some (c, older ++ younger) := by
  have hnone : takeYoungestStroke younger = none := by
    clear older
    induction younger with
    | nil => rfl
    | cons m younger ih =>
      have hrest := ih fun d hd => h d (List.mem_cons_of_mem m hd)
      unfold takeYoungestStroke
      rw [hrest]
      cases m with
      | stroke d => exact absurd List.mem_cons_self (h d)
      | instr _ _ => rfl
      | status _ _ => rfl
  induction older with
  | nil =>
    rw [List.nil_append]
    unfold takeYoungestStroke
    rw [hnone]
    rfl
  | cons m older ih =>
    rw [List.cons_append]
    unfold takeYoungestStroke
    rw [ih]
    rfl

theorem modifyLine_same_queue (s : State) (l : Line) :
    modifyLine s l (fun x => { x with queue := (s.line l).queue }) = s := by cases l <;> rfl

/-- What a queue that is not yet full, or has a message to replace, makes of a message (R113). -/
theorem placeLine_joined {s : State} {l : Line} {m : LineMsg} {q : List LineMsg}
    (h : lineJoin (s.line l).link (s.line l).queue m = (q, none)) :
    placeLine s l m = modifyLine s l fun r => { r with queue := q } := by
  unfold placeLine
  dsimp only
  rw [h]

theorem placeLine_dropped {s : State} {l : Line} {m : LineMsg} {q : List LineMsg} {c : Nat}
    (h : lineJoin (s.line l).link (s.line l).queue m = (q, some c)) :
    placeLine s l m = raise (modifyLine s l fun r => { r with queue := q }) .strokeDropped l.code c := by
  unfold placeLine
  dsimp only
  rw [h]

/-- A message that is no stroke, joining a queue. -/
theorem lineJoin_of_state {m : LineMsg} (h : (∃ c x, m = .instr c x) ∨ ∃ x y, m = .status x y) (link : Link) (q : List LineMsg) :
    lineJoin link q m =
      if q.any fun x => m.replaces x then (q.map fun x => if m.replaces x then m else x, none)
      else if q.length < 16 then (q ++ [m], none)
      else
        match takeYoungestStroke q with
        | some (c, kept) => (kept ++ [m], some c)
        | none => (q, none) := by
  rcases h with ⟨c, x, rfl⟩ | ⟨x, y, rfl⟩ <;> rfl

/-- A stroke, joining a queue: it is dropped while the link is DOWN or the queue is full. -/
theorem lineJoin_of_stroke (c : Nat) (link : Link) (q : List LineMsg) :
    lineJoin link q (.stroke c) = if link = .up ∧ q.length < 16 then (q ++ [.stroke c], none) else (q, some c) := by
  simp only [lineJoin, Bool.and_eq_true, decide_eq_true_iff]
  rfl

theorem map_replaced_once {m w : LineMsg} {older younger : List LineMsg} (hw : m.replaces w = true)
    (h : ∀ v ∈ older ++ younger, m.replaces v = false) :
    (older ++ w :: younger).map (fun x => if m.replaces x then m else x) = older ++ m :: younger := by
  have hkept : ∀ q : List LineMsg, (∀ v ∈ q, m.replaces v = false) → q.map (fun x => if m.replaces x then m else x) = q :=
    fun q hq => (List.map_congr_left fun v hv => by simp [hq v hv]).trans (List.map_id' q)
  rw [List.map_append, List.map_cons, hkept older fun v hv => h v (List.mem_append_left _ hv),
    hkept younger fun v hv => h v (List.mem_append_right _ hv), if_pos hw]

/-- Settles O39. -/
theorem lineQueue : Obligations.LineQueue := by
  unfold Obligations.LineQueue
  refine ⟨fun r => ⟨fun h => ?_, fun hrate hsending hstart hq => ?_⟩, fun s l => ?_⟩
  · unfold LineRec.arbiter
    split
    · next hfree =>
      obtain ⟨hrate, hsending, hstart⟩ := (lineFree_iff r).1 hfree
      rcases h with h | h | h | h
      · simp [h] at hrate
      · simp [hsending] at h
      · exact absurd hstart h
      · rw [h]
        rfl
    · rfl
  · obtain ⟨m, rest, htake⟩ := takeMessage_nonempty hq
    obtain ⟨older, younger, hsplit, rfl, holder, hyounger⟩ := takeMessage_split htake
    refine ⟨older, m, younger, hsplit, ?_, ?_⟩
    · unfold LineRec.arbiter
      rw [if_pos ((lineFree_iff r).2 ⟨hrate, hsending, hstart⟩), htake]
    · intro rank
      have hrank : rank = LineMsg.rank := by
        funext w
        cases w <;> rfl
      rw [hrank]
      exact ⟨holder, hyounger⟩
  · intro r queued
    refine ⟨fun c => ⟨fun hup hroom => ?_, fun hdown => ?_⟩, fun m hm => ?_⟩
    · have hjoins : (s.line l).link = .up ∧ (s.line l).queue.length < 16 := ⟨hup, hroom⟩
      exact placeLine_joined ((lineJoin_of_stroke c _ _).trans (if_pos hjoins))
    · have hnot : ¬ ((s.line l).link = .up ∧ (s.line l).queue.length < 16) := fun ⟨hup, hroom⟩ =>
        hdown.elim (fun h => nomatch h.symm.trans hup) (Nat.not_le.2 hroom)
      rw [placeLine_dropped ((lineJoin_of_stroke c _ _).trans (if_neg hnot)), modifyLine_same_queue]
    · intro stands
      have hstands : ∀ w, stands w ↔ m.replaces w = true := by
        intro w
        rcases hm with ⟨c, x, rfl⟩ | ⟨x, y, rfl⟩ <;> cases w <;> simp [stands, LineMsg.replaces]
      have hnot : ∀ w, ¬ stands w → m.replaces w = false := fun w hw => by simpa using mt (hstands w).2 hw
      have hany : (∀ w ∈ r.queue, ¬ stands w) → ¬ ((s.line l).queue.any fun x => m.replaces x) = true := by
        intro h hany
        obtain ⟨w, hw, hmw⟩ := List.any_eq_true.1 hany
        exact h w hw ((hstands w).2 hmw)
      refine ⟨fun older w younger hq hw hothers => ?_, fun hothers hroom => ?_,
        fun older c younger hothers hfull hq hyounger => ?_⟩
      · have hq' : (s.line l).queue = older ++ w :: younger := hq
        refine placeLine_joined ?_
        rw [lineJoin_of_state hm, hq', if_pos (by simp [(hstands w).1 hw]),
          map_replaced_once ((hstands w).1 hw) fun v hv => hnot v (hothers v hv)]
      · refine placeLine_joined ?_
        have hroom' : (s.line l).queue.length < 16 := hroom
        rw [lineJoin_of_state hm, if_neg (hany hothers), if_pos hroom']
      · have hq' : (s.line l).queue = older ++ .stroke c :: younger := hq
        have hfull' : ¬ (s.line l).queue.length < 16 := by simpa using hfull
        refine placeLine_dropped ?_
        rw [lineJoin_of_state hm, if_neg (hany hothers), if_neg hfull', hq', takeYoungestStroke_split older younger c hyounger]

/-! ### The timers of a line (R109, R110, R115, R116) -/

/-- Settles O40. -/
theorem lineTransmitterAndTimers : Obligations.LineTransmitterAndTimers := by
  unfold Obligations.LineTransmitterAndTimers
  intro dt l s hs made
  have hline : ∀ t, ((s.advance dt).warp t).line l = s.line l := fun t => State.line_of _ _ (by simp) (by simp) l
  have hadvance : (s.advance dt).line l = s.line l := State.line_of _ _ rfl rfl l
  refine ⟨fun h => ?_, fun h => ?_, fun h => ?_, fun h => ?_, fun h => ?_, fun h => ?_, fun e x hgap hx => ?_,
    fun e x b hstatus hx hb => ?_⟩
  · rw [next_awake (e := messageLeaves l) rfl hs]
    unfold messageLeaves
    rw [hadvance, if_pos h]
  · rw [next_awake (e := messageLeaves l) rfl hs]
    unfold messageLeaves
    rw [hadvance, if_neg (by simp [h])]
  · rw [next_awake (e := breakEnds l) rfl hs]
    unfold breakEnds
    have h' : ((s.advance dt).line l).startSeq = .sendingBreak := hadvance ▸ h
    cases l
    · exact congrArg _ (congrArg (fun r => { s.advance dt with lineA := r }) (if_pos h'))
    · exact congrArg _ (congrArg (fun r => { s.advance dt with lineB := r }) (if_pos h'))
  · rw [next_awake (e := breakEnds l) rfl hs]
    unfold breakEnds
    have h' : ((s.advance dt).line l).startSeq ≠ .sendingBreak := hadvance ▸ h
    cases l
    · exact congrArg _ (congrArg (fun r => { s.advance dt with lineA := r }) (if_neg h'))
    · exact congrArg _ (congrArg (fun r => { s.advance dt with lineB := r }) (if_neg h'))
  · rw [next_awake (e := idleEnds l) rfl hs]
    unfold idleEnds
    rw [hadvance, if_pos h]
  · rw [next_awake (e := idleEnds l) rfl hs]
    unfold idleEnds
    rw [hadvance, if_neg h]
  · intro due run noisy hunting
    have hdue : due.line l = s.line l := hline _
    rw [next_awake (e := gapExpires l) rfl hs]
    unfold gapExpires
    rw [hadvance, hgap, hx]
    have hcounted : discardCounted due l =
        if noisy then
          raise (modifyLine due l fun r => { r with discardRun := run, noisyReported := r.noisyReported || noisy }) .linkNoisy
            l.code 0
        else modifyLine due l fun r => { r with discardRun := run, noisyReported := r.noisyReported || noisy } := by
      unfold discardCounted
      rw [hdue]
      rfl
    show Host.Outcome.next (arbiters (modifyLine (discardCounted due l) l _)) = _
    rw [hcounted]
    cases hn : noisy
    · rw [if_neg Bool.false_ne_true, if_neg Bool.false_ne_true, modifyLine_modifyLine]
      simp only [hunting, made, hn]
    · rw [if_pos rfl, if_pos rfl, ← raise_modifyLine, modifyLine_modifyLine]
      simp only [hunting, made, hn]
  · intro due own
    have hdue : due.line l = s.line l := hline _
    have hsections : due.sections = s.sections := by simp [due]
    have hown : ∀ ch f, ownOnChannel (modifyLine due l f) b l ch = own ch := by
      intro ch f
      have hsec : (modifyLine due l f).sections = s.sections := by simp only [modifyLine_same, hsections]
      unfold ownOnChannel
      rw [hsec]
      cases hn : b.sectionAt l ch with
      | none => simp [own, hn]
      | some n => cases hr : recAt s.sections n <;> simp [own, hn, hr]
    rw [next_awake (e := statusExpires l) rfl hs]
    unfold statusExpires
    rw [hadvance, hstatus, hx, advance_bank, hb]
    dsimp only
    unfold statusMessage
    rw [hown, hown]
    rfl

end Sys2Proof.Machine
end

section
/-! PROOF. Maintenance requests: what reaches the handler, and what it makes of each request. -/

namespace Sys2Proof.Machine

/-! ### A request at the handler (R36, R161) -/

/-- What the verdict on a request comes to, its reply included. -/
def Verdict.answered (s : State) (src : Nat) (tag : Byte) (code : Nat) : Verdict → Treated
  | .done t results => .quiet (place t (replyFrame src tag code 0 0 results))
  | .acted t results => .changed (place t (replyFrame src tag code 0 0 results)) []
  | .refused why => .quiet (place s (replyFrame src tag code 1 why.code []))
  | .framed t frames => .quiet (placeAll t (frames.map fun f => replyFrame src tag code 0 f.1 f.2))
  | .restarting => .quiet (place s { replyFrame src tag code 0 0 [] with restart := true })

/-- A request that can be read, and is taken in the part state, comes to its verdict. -/
theorem requestHandled_read {s : State} {src : Nat} {tag : Byte} {code : Nat} {params : List Byte} {r : Request}
    (hr : readRequest code params = some r) (hp : s.part ≠ .switching ∨ r.whileSwitching = true) :
    requestHandled s src tag code params = (requestTaken s r).answered s src tag code := by
  unfold requestHandled
  rw [hr]
  dsimp only
  rw [if_neg (by rcases hp with hp | hp <;> simp [hp])]
  cases requestTaken s r <;> rfl

theorem requestHandled_unread {s : State} {src : Nat} {tag : Byte} {code : Nat} {params : List Byte}
    (hr : readRequest code params = none) :
    requestHandled s src tag code params = .quiet (place s (replyFrame src tag code 2 0 [])) := by
  unfold requestHandled
  rw [hr]

theorem requestHandled_busy {s : State} {src : Nat} {tag : Byte} {code : Nat} {params : List Byte} {r : Request}
    (hr : readRequest code params = some r) (hp : s.part = .switching) (hw : r.whileSwitching = false) :
    requestHandled s src tag code params = .quiet (place s (replyFrame src tag code 1 1 [])) := by
  unfold requestHandled
  rw [hr]
  dsimp only
  rw [if_pos (by simp [hp, hw])]
  rfl

theorem exec_request {dt : Time} {k : Bool} {f : RequestFrame} {code : Byte} {key : Option Bool} {c : Instr}
    (h : (code, key, c) ∈ requestsOf dt k f) (s : State) : exec c s = .next (requestArrival s dt key code f) := by
  simp only [requestsOf, List.mem_cons, Prod.mk.injEq, List.not_mem_nil, or_false] at h
  rcases h with h | h | h | h | h | h | h | h | h | h | h | h | h <;> obtain ⟨rfl, rfl, rfl⟩ := h <;> rfl

@[simp] theorem heardRequest_same (s : State) (dt : Time) (key : Option Bool) (code : Byte) (f : RequestFrame) :
    (heardRequest s dt key code f).units = s.units ∧ (heardRequest s dt key code f).tracks = s.tracks ∧
    (heardRequest s dt key code f).levers = s.levers ∧ (heardRequest s dt key code f).sections = s.sections ∧
    (heardRequest s dt key code f).lamps = s.lamps ∧ (heardRequest s dt key code f).exchanges = s.exchanges ∧
    (heardRequest s dt key code f).part = s.part ∧ (heardRequest s dt key code f).active = s.active ∧
    (heardRequest s dt key code f).shadow = s.shadow ∧ (heardRequest s dt key code f).check = s.check ∧
    (heardRequest s dt key code f).groupLive = s.groupLive ∧ (heardRequest s dt key code f).key = key.getD s.key ∧
    (heardRequest s dt key code f).now = s.now + dt ∧ (heardRequest s dt key code f).lineA = s.lineA ∧
    (heardRequest s dt key code f).lineB = s.lineB ∧ (heardRequest s dt key code f).incoming = s.incoming ∧
    (heardRequest s dt key code f).here = s.here ∧ (heardRequest s dt key code f).obstructionA = s.obstructionA ∧
    (heardRequest s dt key code f).obstructionB = s.obstructionB ∧
    (heardRequest s dt key code f).stored = s.stored ∧ (heardRequest s dt key code f).storeOp = s.storeOp := by
  simp [heardRequest, State.sampled]

@[simp] theorem heardRequest_bank (s : State) (dt : Time) (key : Option Bool) (code : Byte) (f : RequestFrame) :
    (heardRequest s dt key code f).bank = s.bank := State.bank_of _ _ (by simp)

section Handled

variable {dt : Time} {k : Bool} {f : RequestFrame} {s : State} {code : Byte} {key : Option Bool} {c : Instr} {r : Request}

/-- A request that the handler takes comes to its verdict on the state that heard it. -/
theorem exec_answered (hc : (code, key, c) ∈ requestsOf dt k f) (h : Requested s code f)
    (hr : readRequest code.toNat f.params = some r) (hp : s.part ≠ .switching ∨ r.whileSwitching = true) :
    exec c s = .next (concluded ((s.advance dt).sampled key)
      ((requestTaken (heardRequest s dt key code f) r).answered (heardRequest s dt key code f) (srcOf (requestFrame code f)) f.tag
        code.toNat)) := by
  rw [exec_request hc, requested_arrival h, requestHandled_read hr (by simpa using hp)]

theorem exec_refused (hc : (code, key, c) ∈ requestsOf dt k f) (h : Requested s code f)
    (hr : readRequest code.toNat f.params = some r) (hp : s.part ≠ .switching ∨ r.whileSwitching = true) {why : RefusalReason}
    (hv : requestTaken (heardRequest s dt key code f) r = .refused why) :
    exec c s = .next (arbiters (place (heardRequest s dt key code f) (replyTo code f 1 why.code []))) := by
  rw [exec_answered hc h hr hp, hv]
  rfl

theorem exec_done (hc : (code, key, c) ∈ requestsOf dt k f) (h : Requested s code f)
    (hr : readRequest code.toNat f.params = some r) (hp : s.part ≠ .switching ∨ r.whileSwitching = true) {t : State}
    {results : List Byte} (hv : requestTaken (heardRequest s dt key code f) r = .done t results) :
    exec c s = .next (arbiters (place t (replyTo code f 0 0 results))) := by
  rw [exec_answered hc h hr hp, hv]
  rfl

theorem exec_acted (hc : (code, key, c) ∈ requestsOf dt k f) (h : Requested s code f)
    (hr : readRequest code.toNat f.params = some r) (hp : s.part ≠ .switching ∨ r.whileSwitching = true) {t : State}
    {results : List Byte} (hv : requestTaken (heardRequest s dt key code f) r = .acted t results) :
    exec c s = .next (finish ((s.advance dt).sampled key) (place t (replyTo code f 0 0 results))) := by
  rw [exec_answered hc h hr hp, hv]
  rfl

theorem exec_framed (hc : (code, key, c) ∈ requestsOf dt k f) (h : Requested s code f)
    (hr : readRequest code.toNat f.params = some r) (hp : s.part ≠ .switching ∨ r.whileSwitching = true) {t : State}
    {frames : List (Nat × List Byte)} (hv : requestTaken (heardRequest s dt key code f) r = .framed t frames) :
    exec c s = .next (arbiters (placeAll t (frames.map fun g => replyTo code f 0 g.1 g.2))) := by
  rw [exec_answered hc h hr hp, hv]
  rfl

end Handled

/-! ### The shadow bank (R163, R164) -/

theorem loadEntry_record {c : RecordClass} (h : c.code ≤ 10) (b : Bank) (i : Nat) (bs : List Byte) :
    b.loadEntry c i bs = none := by
  cases c <;> simp [RecordClass.code] at h <;> rfl

/-- Settles O44. -/
theorem shadowBankIsEdited : Obligations.ShadowBankIsEdited := by
  unfold Obligations.ShadowBankIsEdited
  intro dt f s hp
  have hc2 : ((2 : Byte), none, Instr.loadTable dt f) ∈ requestsOf dt false f := by simp [requestsOf]
  have hc3 : ((3 : Byte), none, Instr.copyBank dt f) ∈ requestsOf dt false f := by simp [requestsOf]
  have hc4 : ((4 : Byte), none, Instr.checkBank dt f) ∈ requestsOf dt false f := by simp [requestsOf]
  refine ⟨fun h => ?load, fun h => ?copy, fun h => ?check⟩
  case load =>
    intro heard
    have hshadow : heard.shadow = s.shadow := by simp [heard]
    refine ⟨fun c i bs b hr hb => ?_, fun c i bs hr hclass => ?_, fun e hr => ?_⟩
    · refine exec_done hc2 h hr (.inl hp) ?_
      show loadTable heard c i bs = _
      unfold loadTable
      rw [hshadow, hb]
    · refine exec_refused hc2 h hr (.inl hp) (why := .readOnly) ?_
      show loadTable heard c i bs = _
      unfold loadTable
      rw [loadEntry_record hclass]
    · refine exec_done hc2 h hr (.inl hp) ?_
      show Verdict.done { heard with shadow := { heard.shadow with edition := e }, check := .unchecked } [] = _
      rw [hshadow]
  case copy =>
    intro heard
    have hbank : heard.bank = s.bank := by simp [heard]
    have hr : readRequest (3 : Byte).toNat f.params = some .copyBank := rfl
    refine ⟨fun b hb => exec_done hc3 h hr (.inl hp) ?_, fun hb => exec_refused hc3 h hr (.inl hp) (why := .state) ?_⟩
    · show copyBank heard = _
      unfold copyBank
      rw [hbank, hb]
    · show copyBank heard = _
      unfold copyBank
      rw [hbank, hb]
  case check =>
    intro heard
    have hshadow : heard.shadow = s.shadow := by simp [heard]
    have hr : readRequest (4 : Byte).toNat f.params = some .checkBank := rfl
    refine ⟨fun hb => exec_done hc4 h hr (.inl hp) ?_, fun e hb => exec_done hc4 h hr (.inl hp) ?_⟩
    · show checkBank heard = _
      unfold checkBank checkResult
      rw [hshadow, hb]
      rfl
    · show checkBank heard = _
      unfold checkBank checkResult
      rw [hshadow, hb]
      rfl

/-! ### Records and events (R162, R179, R181) -/

/-- Results of a record cut into frames (R181). -/
theorem chunked_two (bs : List Byte) :
    chunked 2 0 bs = if bs.length ≤ 20 then [(0, bs)]
      else if bs.length ≤ 40 then [(0, bs.take 20), (1, bs.drop 20)]
      else [(0, bs.take 20), (1, (bs.drop 20).take 20), (2, bs.drop 40)] := by
  have hrest : (bs.drop 20).length ≤ 20 ↔ bs.length ≤ 40 := by rw [List.length_drop]; omega
  unfold chunked chunked chunked
  by_cases h20 : bs.length ≤ 20
  · rw [if_pos h20, if_pos h20]
  · rw [if_neg h20, if_neg h20]
    by_cases h40 : bs.length ≤ 40
    · rw [if_pos (hrest.2 h40), if_pos h40]
    · rw [if_neg (mt hrest.1 h40), if_neg h40, List.drop_drop]

theorem eventBytes_length (e : Event) : (eventBytes e).length = 8 := rfl

/-- The frames of READ_EVENTS: their number, their entries, and the count and the mark of each (R181). -/
theorem eventFrames_spec (es : List Event) :
    (∀ g ∈ eventFrames es, g.1 = 0) ∧
    ((eventFrames es).map Prod.snd).flatMap (fun bs => bs.drop 1) = es.flatMap eventBytes ∧
    (eventFrames es).length = max 1 ((es.length + 1) / 2) ∧
    ∀ i g, (eventFrames es)[i]? = some g → ∃ x, g.2.head? = some x ∧
      (x.getLsbD 7 = true ↔ i + 1 = (eventFrames es).length) ∧ x.toNat % 128 = min 2 (es.length - 2 * i) := by
  have hone : ∀ {frames : List (Nat × List Byte)} {g : Nat × List Byte} {i : Nat}, frames = [g] →
      ∀ g', frames[i]? = some g' → i = 0 ∧ g' = g := by
    rintro _ g i rfl g' h
    cases i with
    | zero => exact ⟨rfl, (Option.some.inj h).symm⟩
    | succ i => simp at h
  induction es using eventFrames.induct with
  | case1 =>
    refine ⟨by simp [eventFrames], rfl, rfl, fun i g h => ?_⟩
    obtain ⟨rfl, rfl⟩ := hone rfl g h
    exact ⟨128, rfl, by decide, rfl⟩
  | case2 e =>
    refine ⟨by simp [eventFrames], by simp [eventFrames], by simp [eventFrames], fun i g h => ?_⟩
    obtain ⟨rfl, rfl⟩ := hone rfl g h
    exact ⟨129, rfl, by simp [eventFrames], by simp⟩
  | case3 e f =>
    refine ⟨by simp [eventFrames], by simp [eventFrames], by simp [eventFrames], fun i g h => ?_⟩
    obtain ⟨rfl, rfl⟩ := hone rfl g h
    exact ⟨130, rfl, by simp [eventFrames], rfl⟩
  | case4 e f rest hrest ih =>
    obtain ⟨hthird, hbytes, hlength, hframes⟩ := ih
    have hne : rest ≠ [] := fun h => hrest h
    have hpos : 0 < rest.length := List.length_pos_iff.2 hne
    have hframe : eventFrames (e :: f :: rest) = (0, 2 :: (eventBytes e ++ eventBytes f)) :: eventFrames rest := by
      cases rest with
      | nil => exact absurd rfl hne
      | cons g rest => rfl
    rw [hframe]
    refine ⟨?_, ?_, ?_, fun i g h => ?_⟩
    · simpa using hthird
    · rw [List.map_cons, List.flatMap_cons, hbytes]
      simp
    · simp only [List.length_cons, hlength]
      omega
    · cases i with
      | zero =>
        cases h
        refine ⟨2, rfl, ?_, ?_⟩
        · simp only [List.length_cons, hlength]
          have : (2 : Byte).getLsbD 7 = false := rfl
          simp only [this, Bool.false_eq_true, false_iff]
          omega
        · simp only [List.length_cons]
          show 2 = _
          omega
      | succ i =>
        obtain ⟨x, hx, hlast, hcount⟩ := hframes i g h
        refine ⟨x, hx, ?_, ?_⟩
        · rw [hlast, List.length_cons]
          omega
        · rw [hcount]
          simp only [List.length_cons]
          omega

/-- Settles O42. -/
theorem recordsAndEventsAreRead : Obligations.RecordsAndEventsAreRead := by
  unfold Obligations.RecordsAndEventsAreRead
  intro dt f s
  refine ⟨fun c i h hr => ?_, fun n h hr => ?_⟩
  · intro heard m results frame
    have hc : ((1 : Byte), none, Instr.readRecord dt f) ∈ requestsOf dt false f := by simp [requestsOf]
    have hv : requestTaken heard (.readRecord c i) = .framed heard (chunked 2 0 results) := rfl
    rw [exec_framed hc h hr (.inr rfl) hv, chunked_two]
    split
    · rfl
    · split <;> rfl
  · intro heard
    have hc : ((12 : Byte), none, Instr.readEvents dt f) ∈ requestsOf dt false f := by simp [requestsOf]
    have hv : requestTaken heard (.readEvents n) =
        .framed { heard with events := heard.events.drop n } (eventFrames (heard.events.take n)) := rfl
    obtain ⟨hthird, hbytes, hlength, hframes⟩ := eventFrames_spec (heard.events.take n)
    refine ⟨(eventFrames (heard.events.take n)).map Prod.snd, ?_, hbytes, by rw [List.length_map, hlength], fun i bs hbs => ?_⟩
    · rw [exec_framed hc h hr (.inr rfl) hv, List.map_map]
      congr 3
      exact List.map_congr_left fun g hg => by rw [hthird g hg]; rfl
    · rw [List.getElem?_map, Option.map_eq_some_iff] at hbs
      obtain ⟨g, hg, rfl⟩ := hbs
      rw [List.length_map]
      exact hframes i g hg

end Sys2Proof.Machine
end

section
/-! PROOF. The end of an arrival leaves every lock LOCKED while the part is not RUNNING; SWITCH_BANK, the requests that need KEY,
and the admission of requests. -/

namespace Sys2Proof.Machine

/-! ### Locks at the end of an arrival (R73) -/

theorem concludeLevers_locksHeld (ended : List (Nat × Position)) {s : State} {b : Bank} (hb : s.bank = some b) :
    LocksHeld (concludeLevers ended s) := by
  let x : State := { s with levers := s.levers.map fun p => (p.1, lockedUnless (s.part = .running) p.2) }
  have hheld : LocksHeld x := by
    intro hp p hq
    obtain ⟨q, -, rfl⟩ := List.mem_map.1 hq
    have hp' : s.part ≠ .running := hp
    simp [lockedUnless, hp']
  have hk : untold x.levers ≤ s.levers.length + 1 := by
    have := List.countP_le_length (p := fun p : Nat × LeverRec => !p.2.lossTold) (l := x.levers)
    simp only [x, List.length_map] at this
    exact this.trans (Nat.le_succ _)
  obtain ⟨z, hz, hlast, -⟩ := leverRounds_last (P := LocksHeld) (b := b) (ended := ended) (fun _ => decideAll_locksHeld)
    (fun _ => strokeTests_locksHeld) (s.levers.length + 1) x s hheld hk
  have hreading : concludeLevers ended s = decideAll b z := by
    unfold concludeLevers leverReadings
    rw [hb]
    exact hlast
  rw [hreading]
  exact decideAll_locksHeld hz

theorem Settled.locksHeld {s t : State} (h : Settled s t) (hs : LocksHeld s) : LocksHeld t :=
  hs.same (by simp only [h.same]) (by simp only [h.same])

theorem startingChecked_active (s : State) : (startingChecked s).active = s.active := by
  rcases startingChecked_cases s with h | ⟨-, -, h⟩ <;> rw [h]
  simp

theorem startingChecked_bank (s : State) : (startingChecked s).bank = s.bank :=
  State.bank_of _ _ (startingChecked_active s)

theorem readingsWith_locksHeld (ended : List (Nat × Position)) {s : State} {b : Bank} (d : State) (hb : s.bank = some b) :
    LocksHeld ((readingsWith ended s).getLastD d) := by
  have hconcluded : (concludeLevers ended s).bank = some b := (State.bank_of _ _ (by simp)).trans hb
  rw [readingsWith_last]
  split
  · exact concludeLevers_locksHeld ended hb
  · exact concludeLevers_locksHeld [] ((startingChecked_bank _).trans hconcluded)

theorem startingEnded_locksHeld {s : State} {b : Bank} (hb : s.bank = some b) (h : LocksHeld s) :
    LocksHeld (startingEnded s) := by
  unfold startingEnded
  dsimp only
  split
  · exact h
  · exact (settle_settled _ _ _).locksHeld (concludeLevers_locksHeld [] ((startingChecked_bank s).trans hb))

/-- With a bank in use, the end of an arrival leaves every lock LOCKED while the part is not RUNNING (R73). -/
theorem finishWith_locksHeld (ended : List (Nat × Position)) (pass : List State) (old : State) {s : State}
    (h : s.active.isSome = true) : LocksHeld (finishWith ended pass old s) := by
  obtain ⟨img, ha⟩ := Option.isSome_iff_exists.1 h
  have hb : s.bank = some img.bank := by simp [State.bank, ha]
  have hread := readingsWith_locksHeld ended s hb
  have hsettled := (settlePass_settled pass _).trans (settle_settled (pass.getLastD old) (readingsWith ended s)
    (settlePass pass ((readingsWith ended s).getLastD s)))
  have hbank := (State.bank_of _ _ hsettled.same.2.2.2.2.1).trans
    ((State.bank_of _ _ (by rw [(readingsWith_concluded ended s s).rest])).trans hb)
  have hended := startingEnded_locksHeld hbank (hsettled.locksHeld hread)
  unfold finishWith
  exact hended.same (by simp only [arbiters_same]) (by simp only [arbiters_same])

/-! ### SWITCH_BANK (R165, R166) -/

/-- Settles O46. -/
theorem switchBankIsJudged : Obligations.SwitchBankIsJudged := by
  unfold Obligations.SwitchBankIsJudged
  intro dt key f s h hp heard out refused inUse
  have hc : ((5 : Byte), some key, Instr.switchBank dt key f) ∈ requestsOf dt key f := by simp [requestsOf]
  have hr : readRequest (5 : Byte).toNat f.params = some .switchBank := rfl
  have hrefused : ∀ why, switchRefused heard = some why → refused why.code := fun why hw => by
    refine exec_refused hc h hr (.inl hp) ?_
    show (match switchRefused heard with | some why => Verdict.refused why | none => .acted (switchTaken heard) []) = _
    rw [hw]
  have hpart : heard.part = s.part := by simp [heard]
  have hkey : heard.key = key := by simp [heard]
  have hcheck : heard.check = s.check := by simp [heard]
  have hlevers : heard.levers = s.levers := by simp [heard]
  have hsections : heard.sections = s.sections := by simp [heard]
  have hbank : heard.bank = s.bank := by simp [heard]
  refine ⟨fun h1 h2 => hrefused .state ?_, fun hroute => ⟨fun hk => hrefused .noKey ?_, fun hk hunchecked =>
    hrefused .unchecked ?_, fun crc hk hpassed => ?_⟩⟩
  · unfold switchRefused
    rw [hpart, if_pos ⟨h1, h2⟩]
  · unfold switchRefused
    rw [hpart, if_neg (fun hn => hroute.elim hn.1 hn.2), hkey, hk]
    rfl
  · unfold switchRefused
    rw [hpart, if_neg (fun hn => hroute.elim hn.1 hn.2), hkey, hk, hcheck]
    cases hcs : s.check with
    | passed crc => exact absurd hcs (hunchecked crc)
    | unchecked => rfl
    | failed e => rfl
  · intro atRest unforced free unlocked
    have htests : switchRefused heard =
        if ¬ atRest then some .frameNotAtRest else if ¬ unforced then some .violation
        else if ¬ free then some .sectionInUse else if ¬ unlocked then some .approachLocked else none := by
      have hrest : (s.levers.any fun p => p.2.position ≠ .normal || p.2.catchUp) = true ↔ ¬ atRest := by
        simp only [atRest, List.any_eq_true, Bool.or_eq_true, decide_eq_true_eq, not_forall, not_and_or, Bool.not_eq_false,
          exists_prop]
      have hforced : (s.levers.any fun p => p.2.violation) = true ↔ ¬ unforced := by
        simp only [unforced, List.any_eq_true, not_forall, Bool.not_eq_false, exists_prop]
      have hlocked : (s.levers.any fun p => p.2.approach.isSome) = true ↔ ¬ unlocked := by
        simp only [unlocked, List.any_eq_true, not_forall, Option.isSome_iff_ne_none, exists_prop]
      unfold switchRefused
      rw [hpart, if_neg (fun hn => hroute.elim hn.1 hn.2), hkey, hk, hcheck, hpassed, hlevers, hsections, hbank]
      simp only [Bool.not_true, Bool.false_eq_true, if_false]
      rcases Option.eq_none_or_eq_some s.bank with hb | ⟨b, hb⟩
      · have hfree : (s.sections.any fun p => true && p.2.own ≠ .blocked) = true ↔ ¬ free := by
          simp [free, inUse, hb]
        simp only [hb, hrest, hforced, hfree, hlocked]
      · have hfree : (s.sections.any fun p => (b.sectionEntry p.1).dir ≠ .outbound && p.2.own ≠ .blocked) = true ↔ ¬ free := by
          simp [free, inUse, hb]
        simp only [hb, hrest, hforced, hfree, hlocked]
    refine ⟨fun h1 => hrefused .frameNotAtRest ?_, fun h1 h2 => hrefused .violation ?_,
      fun h1 h2 h3 => hrefused .sectionInUse ?_, fun h1 h2 h3 h4 => hrefused .approachLocked ?_, fun h1 h2 h3 h4 => ?_⟩
    · rw [htests, if_pos h1]
    · rw [htests, if_neg (not_not.2 h1), if_pos h2]
    · rw [htests, if_neg (not_not.2 h1), if_neg (not_not.2 h2), if_pos h3]
    · rw [htests, if_neg (not_not.2 h1), if_neg (not_not.2 h2), if_neg (not_not.2 h3), if_pos h4]
    · have hv : requestTaken heard .switchBank =
          .acted { heard with part := .switching, storeOp := some { bank := s.shadow, crc := crc } } [] := by
        show (match switchRefused heard with | some why => Verdict.refused why | none => .acted (switchTaken heard) []) = _
        rw [htests, if_neg (not_not.2 h1), if_neg (not_not.2 h2), if_neg (not_not.2 h3), if_neg (not_not.2 h4)]
        unfold switchTaken
        have hshadow : heard.shadow = s.shadow := by simp [heard]
        rw [hcheck, hpassed]
        dsimp only
        rw [hshadow]
      refine ⟨_, exec_acted hc h hr (.inl hp) hv, rfl, ?_, ?_, ?_, fun ha => ?_⟩
      · exact ((finish_concluded _ _).steady (by simp)).1.trans (by simp)
      · simp
      · simp [heard]
      · refine finishWith_locksHeld [] [] _ (by simpa [heard] using ha) ?_
        show (finish _ _).part ≠ _
        rw [((finish_concluded _ _).steady (by simp)).1]
        simp

/-! ### The requests that need KEY (R82, R142, R172) -/

/-- Settles O48. -/
theorem keyedRequestsAreJudged : Obligations.KeyedRequestsAreJudged := by
  unfold Obligations.KeyedRequestsAreJudged
  intro dt key f s hp old
  have hc7 : ((7 : Byte), some key, Instr.clearViolation dt key f) ∈ requestsOf dt key f := by simp [requestsOf]
  have hc8 : ((8 : Byte), some key, Instr.blockRelease dt key f) ∈ requestsOf dt key f := by simp [requestsOf]
  have hc13 : ((13 : Byte), some key, Instr.restart dt key f) ∈ requestsOf dt key f := by simp [requestsOf]
  refine ⟨fun n h hr => ?violation, fun n h hr => ?release, fun h hr => ?restart⟩
  case violation =>
    intro heard out
    have hkey : heard.key = key := by simp [heard]
    have hlevers : heard.levers = s.levers := by simp [heard]
    have hv : requestTaken heard (.clearViolation n) = clearViolation heard n := rfl
    refine ⟨fun hk => exec_refused hc7 h hr (.inl hp) (why := .noKey) (hv.trans ?_),
      fun hk hl => exec_refused hc7 h hr (.inl hp) (why := .notNormal) (hv.trans ?_), fun l hk hl hn => ?_⟩
    · unfold clearViolation
      rw [hkey, hk]
      rfl
    · unfold clearViolation
      rw [hkey, hk, hlevers]
      cases hrec : recAt s.levers n with
      | none => rfl
      | some l => exact if_pos (hl l hrec)
    · intro t
      have htaken : clearViolation heard n = .acted
          (if l.violation then
            raise { heard with levers := modifyRec s.levers n fun l => { l with violation := false } } .violationCleared n 0
           else heard) [] := by
        unfold clearViolation modifyLever
        rw [hkey, hk, hlevers, hl]
        cases hviol : l.violation <;> simp [hn, hviol]
      refine ⟨exec_acted hc7 h hr (.inl hp) (hv.trans htaken), ?_⟩
      have hleft : recAt (place (if l.violation then
            raise { heard with levers := modifyRec s.levers n fun l => { l with violation := false } } .violationCleared n 0
           else heard) (replyTo 7 f 0 0 [])).levers n = some { l with violation := false } := by
        simp only [place_same]
        cases hviol : l.violation
        · rw [if_neg Bool.false_ne_true, hlevers, hl, ← hviol]
        · simp [hl]
      obtain ⟨l', hl', hpos, -, hviol, -⟩ := (finish_concluded old _).lever hleft
      exact ⟨l', hl', hviol, hpos.trans hn⟩
  case release =>
    intro heard out
    have hkey : heard.key = key := by simp [heard]
    have hsections : heard.sections = s.sections := by simp [heard]
    have hv : requestTaken heard (.blockRelease n) = blockRelease heard n := rfl
    refine ⟨fun hk => exec_refused hc8 h hr (.inl hp) (why := .noKey) (hv.trans ?_),
      fun hk hl => exec_refused hc8 h hr (.inl hp) (why := .notOnLine) (hv.trans ?_), fun r hk hrec ho => ?_⟩
    · unfold blockRelease
      rw [hkey, hk]
      rfl
    · unfold blockRelease
      rw [hkey, hk, hsections]
      cases hrec : recAt s.sections n with
      | none => rfl
      | some r => exact if_pos (hl r hrec)
    · intro t
      have htaken : blockRelease heard n = .acted
          (if r.progress = .proven then heard
           else raise { heard with sections := modifyRec s.sections n fun r => { r with progress := .proven } }
             .blockReleased n r.progress.code) [] := by
        unfold blockRelease modifySection
        rw [hkey, hk, hsections, hrec]
        by_cases hproven : r.progress = .proven <;> simp [ho, hproven]
      refine ⟨exec_acted hc8 h hr (.inl hp) (hv.trans htaken), ?_⟩
      simp only [t, finish_same, place_same]
      by_cases hproven : r.progress = .proven
      · rw [if_pos hproven, hsections, hrec, ← hproven]
      · simp [hproven, hrec]
  case restart =>
    intro heard
    have hkey : heard.key = key := by simp [heard]
    have hv : requestTaken heard .restart = if heard.key then .restarting else .refused .noKey := rfl
    refine ⟨fun hk => exec_refused hc13 h hr (.inl hp) (why := .noKey) (by rw [hv, hkey, hk]; rfl), fun hk => ?_⟩
    rw [exec_answered hc13 h hr (.inl hp), hv.trans (if_pos (hkey.trans hk))]
    rfl

end Sys2Proof.Machine
end

section
/-! PROOF. Where a request goes (R31, R36, R161, R179). -/

namespace Sys2Proof.Machine

/-! ### What a request leaves of the units and of the last requester -/

/-- What a request's tests and effect leave has a property. -/
def Verdict.leaves (P : State → Prop) : Verdict → Prop
  | .done t _ | .acted t _ | .framed t _ => P t
  | .refused _ | .restarting => True

/-- What an arrival has done so far has a property. -/
def Treated.leaves (P : State → Prop) : Treated → Prop
  | .quiet t | .changed t _ _ => P t

/-- No request but REPROBE_UNIT touches a unit, and this puts it into PROBING; none is a request's source. -/
theorem requestTaken_units (s : State) (r : Request) :
    (requestTaken s r).leaves fun t =>
      (t.units = s.units ∨ ∃ a, t.units = (enterProbing s a).units) ∧ t.lastRequester = s.lastRequester := by
  cases r with
  | readRecord | loadEdition | checkBank | readEvents => exact ⟨.inl rfl, rfl⟩
  | loadTable c i bs =>
    unfold requestTaken loadTable
    dsimp only
    split
    · exact ⟨.inl rfl, rfl⟩
    · trivial
  | copyBank =>
    unfold requestTaken copyBank
    dsimp only
    split
    · exact ⟨.inl rfl, rfl⟩
    · trivial
  | switchBank =>
    unfold requestTaken
    dsimp only
    split
    · trivial
    · unfold switchTaken
      split <;> exact ⟨.inl rfl, rfl⟩
  | restoreTrack t =>
    unfold requestTaken restoreTrack
    dsimp only
    split
    · split
      · exact ⟨.inl (by simp), by simp⟩
      · trivial
    · trivial
  | clearViolation n =>
    unfold requestTaken clearViolation
    dsimp only
    split
    · trivial
    · split
      · split
        · trivial
        · split
          · exact ⟨.inl (by simp), by simp⟩
          · exact ⟨.inl rfl, rfl⟩
      · trivial
  | blockRelease n =>
    unfold requestTaken blockRelease
    dsimp only
    split
    · trivial
    · split
      · split
        · trivial
        · split
          · exact ⟨.inl rfl, rfl⟩
          · exact ⟨.inl (by simp), by simp⟩
      · trivial
  | ackAlarms => exact ⟨.inl (by simp), by simp⟩
  | setGroup g v =>
    unfold requestTaken setGroup
    dsimp only
    split
    · refine ⟨.inl ?_, ?_⟩ <;> split <;> rfl
    · trivial
  | reprobe a =>
    unfold requestTaken reprobeUnit
    dsimp only
    split
    · split
      · trivial
      · refine ⟨.inr ⟨a, ?_⟩, by simp⟩
        unfold unitProbed
        split
        · simp
        · rfl
    · trivial
  | restart =>
    unfold requestTaken
    dsimp only
    split <;> trivial

/-- What placing keeps and a request's effect keeps, its handling keeps. -/
theorem requestHandled_leaves {P : State → Prop} (hplace : ∀ s f, P s → P (place s f)) {s : State} (hs : P s)
    (htaken : ∀ r, (requestTaken s r).leaves P) (src : Nat) (tag : Byte) (code : Nat) (params : List Byte) :
    (requestHandled s src tag code params).leaves P := by
  have hall : ∀ (fs : List OutFrame) {s : State}, P s → P (placeAll s fs) := by
    intro fs
    induction fs with
    | nil => exact fun h => h
    | cons f fs ih => exact fun h => ih (hplace _ f h)
  unfold requestHandled
  split
  · exact hplace _ _ hs
  · next r _ =>
    split
    · exact hplace _ _ hs
    · have h := htaken r
      cases hv : requestTaken s r with
      | done t results => rw [hv] at h; exact hplace _ _ h
      | acted t results => rw [hv] at h; exact hplace _ _ h
      | refused why => exact hplace _ _ hs
      | framed t frames => rw [hv] at h; exact hall _ h
      | restarting => exact hplace _ _ hs

/-! ### A unit that waits for an answer to a probe -/

/-- The unit at an address stands in PROBING or ABSENT. -/
def ProbedAt (s : State) (a : Nat) : Prop := ∃ v, recAt s.units a = some v ∧ (v.state = .probing ∨ v.state = .absent)

theorem UnitStays.probed {u v : UnitRec} (h : UnitStays u v) (hu : u.state = .probing ∨ u.state = .absent) :
    v.state = .probing ∨ v.state = .absent := by
  unfold UnitStays at h
  rcases hu with hu | hu <;> simp only [hu] at h
  · rcases h with ⟨n, w, -, rfl⟩ | ⟨w, e, rfl⟩
    · exact .inl rfl
    · exact .inr rfl
  · obtain ⟨w, rfl⟩ := h
    exact .inr rfl

theorem UnitsStay.probedAt {s t : State} (h : UnitsStay s t) {a : Nat} (hs : ProbedAt s a) : ProbedAt t a := by
  obtain ⟨u, hu, hp⟩ := hs
  obtain ⟨v, hv, hstays⟩ := h.2 a u hu
  exact ⟨v, hv, hstays.probed hp⟩

/-- The record of a unit that enters PROBING: what the probe's placing makes of it (R22). -/
def probingRec (u : UnitRec) : UnitRec :=
  { u with state := .probing, probeCount := 0, probeWindow := none, reprobe := none, report := none }

/-- A unit enters PROBING: its record first, and the placing of the probe after it (R22). -/
theorem enterProbing_reset {s : State} {a : Nat} {u : UnitRec} (hu : recAt s.units a = some u) :
    UnitsStay (modifyUnit s a probingRec) (enterProbing s a) := by
  unfold enterProbing
  rw [hu]
  dsimp only
  refine UnitsStay.trans ?_ (place_units _ _)
  split
  · exact .refl _
  · exact .of_units (by simp only [raise_same]; rfl)

theorem enterProbing_none {s : State} {a : Nat} (hu : recAt s.units a = none) : enterProbing s a = s := by
  unfold enterProbing
  rw [hu]

theorem enterProbing_probedAt_self {s : State} {a : Nat} {u : UnitRec} (hu : recAt s.units a = some u) :
    ProbedAt (enterProbing s a) a :=
  (enterProbing_reset hu).probedAt ⟨probingRec u, by simp [hu], .inl rfl⟩

theorem enterProbing_probedAt {s : State} {a : Nat} (h : ProbedAt s a) (z : Nat) : ProbedAt (enterProbing s z) a := by
  cases hz : recAt s.units z with
  | none => rwa [enterProbing_none hz]
  | some u =>
    by_cases haz : a = z
    · subst haz
      exact enterProbing_probedAt_self hz
    · obtain ⟨v, hv, hp⟩ := h
      exact (enterProbing_reset hz).probedAt ⟨v, by simp [recAt_modifyRec, haz, hv], hp⟩

/-! ### Where a request goes -/

theorem numbered_isSome {params : List Byte} {lo hi : Nat} {make : Nat → Request} {r : Request}
    (h : numbered params lo hi make = some r) : ∃ n, r = make n := by
  unfold numbered at h
  split at h
  · next n _ =>
    split at h
    · exact ⟨_, (Option.some.inj h).symm⟩
    · cases h
  · cases h

theorem loadForm_isSome {params : List Byte} {r : Request} (h : loadForm params = some r) : r.whileSwitching = false := by
  unfold loadForm at h
  split at h
  · split at h
    · split at h <;> cases h
      rfl
    · split at h <;> cases h
      rfl
    · cases h
  · cases h

/-- Requests that are taken while the part is SWITCHING are READ_RECORD and READ_EVENTS (R161). -/
theorem readRequest_whileSwitching {code : Nat} {params : List Byte} {r : Request} (h : readRequest code params = some r)
    (hw : r.whileSwitching = true) : code = 1 ∨ code = 12 := by
  by_contra hcode
  rw [not_or] at hcode
  have hnot : r.whileSwitching = false := by
    unfold readRequest at h
    rw [if_neg hcode.1, if_neg hcode.2] at h
    split at h
    · exact loadForm_isSome h
    clear hw
    repeat' split at h
    iterate 3 · cases h; rfl
    iterate 3 · obtain ⟨n, rfl⟩ := numbered_isSome h; rfl
    iterate 2 · cases h; rfl
    iterate 2 · cases h
    · obtain ⟨n, rfl⟩ := numbered_isSome h
      rfl
    · cases h
      rfl
    · cases h
  simp [hnot] at hw

/-- A maintenance request's frame at the loop controller, under a bank: it comes to what the handler makes of it (R6, R36). -/
theorem maint_arrival {s : State} {b : Bank} {f : Frame} (hf : wfFromUnit 14 f = true) (hb : s.bank = some b)
    (hk : b.kindAt (srcOf f) ≠ .none) :
    frameArrives s 14 f = concluded s (maintArrives (loopHeard s) (srcOf f) f.payload) := by
  obtain ⟨hv, hsrc, hd⟩ := wfFromUnit_valid hf
  unfold frameArrives
  rw [if_pos hv, purgedFor_other (.inl (by decide))]
  unfold frameTreated
  rw [if_neg hsrc, if_neg (not_not.2 hd), loopHeard_bank, hb]
  dsimp only
  rw [if_neg hk, if_neg (by decide), if_pos rfl]

/-- The same without a bank. -/
theorem maint_arrival_bankless {s : State} {f : Frame} (hf : wfFromUnit 14 f = true) (hb : s.bank = none) :
    frameArrives s 14 f = concluded s (maintArrives (loopHeard s) (srcOf f) f.payload) := by
  obtain ⟨hv, hsrc, hd⟩ := wfFromUnit_valid hf
  unfold frameArrives
  rw [if_pos hv, purgedFor_other (.inl (by decide))]
  unfold frameTreated
  rw [if_neg hsrc, if_neg (not_not.2 hd), loopHeard_bank, hb]
  rfl

/-- A frame from a source that the handler takes requests from goes to it. -/
theorem maintArrives_handled {s : State} {src : Nat}
    (hs : s.bank = none ∨ ∃ b, s.bank = some b ∧ b.kindAt src = .mt ∧
      ∀ u, recAt s.units src = some u → u.state ≠ .mismatch ∧ u.state ≠ .silent) (payload : List Byte) :
    maintArrives s src payload =
      requestHandled (s.requestedBy src) src (byteAt payload 0) (byteAt payload 1).toNat (payload.drop 2) := by
  unfold maintArrives
  dsimp only
  rcases hs with hs | ⟨b, hs, hk, hu⟩
  · rw [hs]
  · rw [hs]
    dsimp only
    rw [if_pos hk]
    cases hr : recAt s.units src with
    | none => rfl
    | some u =>
      dsimp only
      rw [if_neg (hu u hr).1, if_neg (hu u hr).2]

theorem maintArrives_foreign {s : State} {src : Nat} {b : Bank} (hb : s.bank = some b)
    (h : b.kindAt src ≠ .mt ∨ b.kindAt src = .mt ∧ ∃ u, recAt s.units src = some u ∧ u.state = .mismatch) (payload : List Byte) :
    maintArrives s src payload = .quiet (raise s .foreignRequest src (byteAt payload 1).toNat) := by
  unfold maintArrives
  dsimp only
  rw [hb]
  dsimp only
  rcases h with h | ⟨hk, u, hu, hstate⟩
  · rw [if_neg h]
  · rw [if_pos hk, hu]
    dsimp only
    rw [if_pos hstate]

theorem maintArrives_silent {s : State} {src : Nat} {b : Bank} {u : UnitRec} (hb : s.bank = some b) (hk : b.kindAt src = .mt)
    (hu : recAt s.units src = some u) (hstate : u.state = .silent) (payload : List Byte) :
    maintArrives s src payload = probingToo (requestHandled ((enterProbing s src).requestedBy src) src (byteAt payload 0)
      (byteAt payload 1).toNat (payload.drop 2)) := by
  unfold maintArrives
  dsimp only
  rw [hb]
  dsimp only
  rw [if_pos hk, hu]
  dsimp only
  rw [if_neg (by simp [hstate]), if_pos hstate]

/-- Settles O41. -/
theorem requestsAreAdmitted : Obligations.RequestsAreAdmitted := by
  unfold Obligations.RequestsAreAdmitted
  intro dt k f s code key c hc src heard
  have hbank : ((s.advance dt).sampled key).bank = s.bank := State.bank_of _ _ (by simp)
  have hunits : (loopHeard ((s.advance dt).sampled key)).units = s.units := by simp
  have hcode : byteAt (requestFrame code f).payload 1 = code := rfl
  have harrival : s.inReset = false → exec c s = .next (frameArrives ((s.advance dt).sampled key) 14 (requestFrame code f)) :=
    fun hs => by rw [exec_request hc, requestArrival, arrival_awake hs]
  refine ⟨fun b hs hf hb hforeign => ?_, fun h hr => ?_, fun h hr hp h1 h12 => ?_, fun b u hs hf hb hk hu hstate => ?_,
    fun g hsource hs hg => ?_⟩
  · have hkind : b.kindAt src ≠ .none := hforeign.elim (fun h => h.2) fun h => by rw [h.1]; decide
    rw [harrival hs, maint_arrival hf (hbank.trans hb) hkind, maintArrives_foreign (by rw [loopHeard_bank, hbank, hb])
      (by rw [hunits]; exact hforeign.imp_left And.left)]
    rfl
  · rw [exec_request hc, requested_arrival h, requestHandled_unread hr]
    rfl
  · obtain ⟨r, hread⟩ : ∃ r, readRequest code.toNat f.params = some r := by
      unfold wfRequest at hr
      rw [Bool.and_eq_true, Option.isSome_iff_exists] at hr
      exact hr.2
    have hw : r.whileSwitching = false := by
      by_contra hw
      rcases readRequest_whileSwitching hread (by simpa using hw) with h | h
      · exact h1 (BitVec.eq_of_toNat_eq h)
      · exact h12 (BitVec.eq_of_toNat_eq h)
    rw [exec_request hc, requested_arrival h, requestHandled_busy hread (by simpa using hp) hw]
    rfl
  · let P : State → Prop := fun t => ProbedAt t src ∧ t.lastRequester = some src
    have hkind : b.kindAt src ≠ .none := by rw [hk]; decide
    let probing := (enterProbing heard src).requestedBy src
    have hprobing : P probing := ⟨enterProbing_probedAt_self (by rw [hunits]; exact hu), rfl⟩
    have hplace : ∀ t g, P t → P (place t g) := fun t g ⟨hp, hl⟩ => ⟨(place_units t g).probedAt hp, by simpa using hl⟩
    have hleaves := requestHandled_leaves hplace hprobing (fun r => by
      have h := requestTaken_units probing r
      have hkeep : ∀ t : State, (t.units = probing.units ∨ ∃ a, t.units = (enterProbing probing a).units) ∧
          t.lastRequester = probing.lastRequester → P t := by
        rintro t ⟨hu' | ⟨a, hu'⟩, hl⟩
        · exact ⟨(UnitsStay.of_units hu').probedAt hprobing.1, hl⟩
        · exact ⟨(UnitsStay.of_units hu').probedAt (enterProbing_probedAt hprobing.1 a), hl⟩
      cases hv : requestTaken probing r <;> rw [hv] at h
      case done => exact hkeep _ h
      case acted => exact hkeep _ h
      case framed => exact hkeep _ h
      all_goals trivial) src f.tag code.toNat f.params
    rw [harrival hs, maint_arrival hf (hbank.trans hb) hkind, maintArrives_silent (by rw [loopHeard_bank, hbank, hb]) hk
      (by rw [hunits]; exact hu) hstate]
    have hconcluded : ∀ ended pass x, P x → P (finishWith ended pass ((s.advance dt).sampled key) x) := fun ended pass x ⟨hp, hl⟩ =>
      ⟨(finishWith_concluded ended pass _ x).units.probedAt hp, by simpa using hl⟩
    have hend : P (concluded ((s.advance dt).sampled key) (probingToo (requestHandled probing src f.tag code.toNat f.params))) := by
      cases hx : requestHandled probing src f.tag code.toNat f.params <;> rw [hx] at hleaves <;> exact hconcluded _ _ _ hleaves
    obtain ⟨⟨v, hv, hpv⟩, hl⟩ := hend
    exact ⟨_, v, rfl, hv, hpv, hl⟩
  · unfold wfBadRequest at hg
    rw [Bool.and_eq_true, Option.isNone_iff_eq_none] at hg
    obtain ⟨hf, hbad⟩ := hg
    have harrives : frameArrives (s.advance dt) 14 g =
        concluded (s.advance dt) (maintArrives (loopHeard (s.advance dt)) (srcOf g) g.payload) := by
      rcases hsource with ha | ⟨b, hb, hk, -⟩
      · exact maint_arrival_bankless hf (by simp [State.bank, ha])
      · exact maint_arrival hf hb (by rw [hk]; decide)
    have hhandled := maintArrives_handled (s := loopHeard (s.advance dt)) (src := srcOf g) (by
      rcases hsource with ha | ⟨b, hb, hk, hu⟩
      · exact .inl (by simp [State.bank, ha])
      · exact .inr ⟨b, by simpa using hb, hk, by simpa using hu⟩) g.payload
    have hexec : exec (.badRequest dt g) s = .next (frameArrives (s.advance dt) 14 g) :=
      congrArg _ (arrival_awake hs dt _)
    rw [hexec, harrives, hhandled, requestHandled_unread hbad]
    have hbyte : b1 (byteAt g.payload 1).toNat = byteAt g.payload 1 := by
      apply BitVec.eq_of_toNat_eq
      simp [b1]
    show Host.Outcome.next (arbiters (place _ (replyFrame (srcOf g) (byteAt g.payload 0) (byteAt g.payload 1).toNat 2 0 []))) = _
    unfold replyFrame
    rw [hbyte]
    rfl

end Sys2Proof.Machine
end

section
/-! PROOF. Frames that end at the loop controller, and the returns of the commands (R2, R6, R13, R14, R15, R16). -/

namespace Sys2Proof.Machine

/-! ### Frames that have no effect beyond their arrival -/

/-- What a valid frame's arrival alone does (R6, R15, R16). -/
theorem loopHeard_eq (s : State) :
    loopHeard s =
      if s.loop = .up then { s with watch := s.now.plus 2, loop := .up }
      else raise { s with watch := s.now.plus 2, loop := .up } .loopRestored 0 0 := by
  unfold loopHeard
  split
  · next h => rw [if_neg (by simp [h])]; rfl
  · next h => rw [if_pos h, ← h]; rfl

/-- A frame from a unit's address that no case of R6 gives an effect. -/
def EndsAtTheLoop (s : State) (kind : Byte) (f : Frame) : Prop :=
  destOf f ≠ 0 ∨ (s.bank = none ∧ kind ≠ 14) ∨
    ∃ b, s.bank = some b ∧ (b.kindAt (srcOf f) = .none ∨
      kind ≠ 13 ∧ kind ≠ 14 ∧ (b.kindAt (srcOf f)).reports.map FrameKind.code ≠ some kind.toNat)

theorem EndsAtTheLoop.completesHeld {s : State} {kind : Byte} {f : Frame} (h : EndsAtTheLoop s kind f) :
    completesHeld s kind f = false := by
  unfold Machine.completesHeld
  rcases h with h | ⟨h, -⟩ | ⟨b, hb, h | ⟨-, -, h⟩⟩
  · split
    · simp [h]
    · rfl
  · rw [h]
  · rw [hb]
    simp [h]
  · rw [hb]
    dsimp only
    by_cases hk : kind = 8
    · have hlfu : b.kindAt (srcOf f) ≠ .lfu := fun hl => h (by rw [hl, hk]; rfl)
      simp [hlfu]
    · simp [show ¬ kind = 8#8 from hk]

theorem EndsAtTheLoop.treated {s : State} {kind : Byte} {f : Frame} (h : EndsAtTheLoop s kind f) (hsrc : srcOf f ≠ 0) :
    frameTreated s kind f = .quiet s := by
  unfold frameTreated
  rw [if_neg hsrc]
  by_cases hd : destOf f = 0
  · rw [if_neg (not_not.2 hd)]
    rcases h with h | ⟨h, hk⟩ | ⟨b, hb, h | ⟨h13, h14, h⟩⟩
    · exact absurd hd h
    · rw [h]
      exact if_neg hk
    · rw [hb]
      exact if_pos h
    · rw [hb]
      dsimp only
      rw [if_neg h13, if_neg h14, if_neg h, ite_self]
  · exact if_pos hd

theorem EndsAtTheLoop.arrives {s : State} {kind : Byte} {f : Frame} (h : EndsAtTheLoop s kind f) (hsrc : srcOf f ≠ 0)
    (hv : frameValid kind f = true) : frameArrives s kind f = arbiters (loopHeard s) := by
  have hheard : EndsAtTheLoop (loopHeard s) kind f := by
    unfold EndsAtTheLoop
    rw [loopHeard_bank]
    exact h
  unfold frameArrives
  rw [if_pos hv, purgedFor, h.completesHeld, if_neg Bool.false_ne_true, hheard.treated hsrc]
  rfl

/-- A kind that no unit sends is no report's. -/
theorem wfOther_reports {kind : Byte} (h : ¬ (8 ≤ kind.toNat ∧ kind.toNat ≤ 14)) (k : UnitKind) :
    kind ≠ 13 ∧ kind ≠ 14 ∧ k.reports.map FrameKind.code ≠ some kind.toNat := by
  refine ⟨?_, ?_, ?_⟩
  · rintro rfl
    exact h (by decide)
  · rintro rfl
    exact h (by decide)
  · intro hk
    cases k <;> simp only [UnitKind.reports, Option.map_some, Option.map_none, FrameKind.code, Option.some.injEq, reduceCtorEq] at hk <;>
      omega

/-- Settles O12. -/
theorem framesThatEndAtTheLoop : Obligations.FramesThatEndAtTheLoop := by
  unfold Obligations.FramesThatEndAtTheLoop
  refine ⟨fun dt s hs => ?_, ?_⟩
  · have hinvalid : ∀ {kind : Byte} {f : Frame}, frameValid kind f = false →
        Host.Outcome.next (frameArrival s dt kind f) = (.next (s.advance dt) : Host.Outcome State Fault Refusal) :=
      fun h => congrArg _ (frameArrival_invalid hs h dt)
    refine ⟨fun kind f h => ⟨hinvalid h, hinvalid h⟩,
      fun f => ⟨hinvalid, hinvalid, hinvalid, hinvalid, hinvalid, hinvalid, hinvalid⟩, fun k f code key c hc h => ?_⟩
    rw [exec_request hc, requestArrival, arrival_awake hs, frameArrives, h, if_neg Bool.false_ne_true]
    rfl
  · intro dt s hs heard after
    have hafter : arbiters (loopHeard (s.advance dt)) = after := by
      rw [loopHeard_eq]
      rfl
    have hend : ∀ {kind : Byte} {f : Frame}, EndsAtTheLoop s kind f → srcOf f ≠ 0 → frameValid kind f = true →
        Host.Outcome.next (frameArrival s dt kind f) = (.next after : Host.Outcome State Fault Refusal) :=
      fun h hsrc hv => by
        have h' : EndsAtTheLoop (s.advance dt) _ _ := h
        rw [frameArrival, arrival_awake hs, h'.arrives hsrc hv, hafter]
    refine ⟨fun kind f h => ?_, fun f hsrc => ⟨fun h => ?_, fun h hv => ?_, fun b hb => ?_⟩, fun k f code key c hc => ?_⟩
    · simp only [wfOther, Bool.and_eq_true, bne_iff_ne, ne_eq, Bool.not_eq_true', decide_eq_false_iff_not] at h
      obtain ⟨⟨hv, hsrc⟩, hkind⟩ := h
      refine hend ?_ hsrc hv
      cases hb : s.bank with
      | none => exact .inr (.inl ⟨hb, (wfOther_reports hkind .none).2.1⟩)
      | some b => exact .inr (.inr ⟨b, hb, .inr (wfOther_reports hkind _)⟩)
    · have hends : ∀ {kind : Byte}, kind ≠ 14 → frameValid kind f = true →
          Host.Outcome.next (frameArrival s dt kind f) = (.next after : Host.Outcome State Fault Refusal) := by
        intro kind hk hv
        refine hend ?_ hsrc hv
        rcases h with h | h | ⟨b, hb, h⟩
        · exact .inl h
        · exact .inr (.inl ⟨h, hk⟩)
        · exact .inr (.inr ⟨b, hb, .inl h⟩)
      exact ⟨hends (by decide), hends (by decide), hends (by decide), hends (by decide), hends (by decide), hends (by decide)⟩
    · refine hend ?_ hsrc hv
      rcases h with h | ⟨b, hb, h⟩
      · exact .inl h
      · exact .inr (.inr ⟨b, hb, .inl h⟩)
    · have hends : ∀ {kind : Byte} (k : UnitKind), kind ≠ 13 → kind ≠ 14 →
          (∀ x, x.reports.map FrameKind.code = some kind.toNat → x = k) → frameValid kind f = true → b.kindAt (srcOf f) ≠ k →
          Host.Outcome.next (frameArrival s dt kind f) = (.next after : Host.Outcome State Fault Refusal) :=
        fun k h13 h14 hx hv hk => hend (.inr (.inr ⟨b, hb, .inr ⟨h13, h14, fun h => hk (hx _ h)⟩⟩)) hsrc hv
      refine ⟨hends .lfu (by decide) (by decide) ?_, hends .tu (by decide) (by decide) ?_, hends .lu (by decide) (by decide) ?_,
        hends .iu (by decide) (by decide) ?_, hends .du (by decide) (by decide) ?_⟩ <;>
      · intro x hx
        cases x <;> simp [UnitKind.reports, FrameKind.code] at hx <;> rfl
    · intro g sampled hsrc h hv
      have hends : EndsAtTheLoop ((s.advance dt).sampled key) 14 g := by
        rcases h with h | ⟨b, hb, h⟩
        · exact .inl h
        · exact .inr (.inr ⟨b, (State.bank_of _ _ (by simp)).trans hb, .inl h⟩)
      rw [exec_request hc, requestArrival, arrival_awake hs, hends.arrives hsrc hv, loopHeard_eq]
      rfl

/-! ### Returns -/

theorem matchedEntry_none {q : Byte} {l : List PendingReturn} (h : ∀ p ∈ l, p.seq ≠ q) : matchedEntry q l = none := by
  induction l with
  | nil => rfl
  | cons p l ih =>
    rw [matchedEntry, if_neg (h p (by simp)), ih fun x hx => h x (by simp [hx])]
    rfl

theorem matchedEntry_split {q : Byte} {older younger : List PendingReturn} {p : PendingReturn} (hp : p.seq = q)
    (h : ∀ x ∈ older, x.seq ≠ q) : matchedEntry q (older ++ p :: younger) = some (older, p, younger) := by
  induction older with
  | nil => exact if_pos hp
  | cons x older ih =>
    rw [List.cons_append, matchedEntry, if_neg (h x (by simp)), ih fun y hy => h y (by simp [hy])]
    rfl

theorem wfReturn_valid {kind : Byte} {f : Frame} (h : wfReturn kind f = true) : frameValid kind f = true ∧ srcOf f = 0 := by
  simpa [wfReturn] using h

/-- A return goes to the pending-return list (R6). -/
theorem exec_ret {dt : Time} {kind : Byte} {f : Frame} {s : State} (hs : s.inReset = false) (h : wfReturn kind f = true) :
    exec (.ret dt kind f) s = .next (concluded (s.advance dt) (returnArrives (loopHeard (s.advance dt)) f)) := by
  obtain ⟨hv, hsrc⟩ := wfReturn_valid h
  refine (next_awake (e := fun t => frameArrives t kind f) rfl hs).trans (congrArg _ ?_)
  unfold frameArrives
  rw [if_pos hv, purgedFor_other (.inr (.inr (.inl hsrc))), frameTreated, if_pos hsrc]

/-- A return that matches an entry is judged once the older entries are lost (R13). -/
theorem returnArrives_matched {s : State} {f : Frame} {older younger : List PendingReturn} {p : PendingReturn}
    (hl : s.pendingReturns = older ++ p :: younger) (hp : p.seq = f.seq) (ho : ∀ q ∈ older, q.seq ≠ f.seq) :
    returnArrives s f = returnJudged (older.foldl entryLost (entriesLeave s younger)) p f := by
  unfold returnArrives
  rw [hl, matchedEntry_split hp ho]

theorem echoFails_iff {p : PendingReturn} {f : Frame} :
    echoFails p f = true ↔ p.kind = .lockSet ∧ f.payload.take p.payload.length ≠ p.payload := by
  simp [echoFails]

/-- Settles O13. -/
theorem returnDeliversTheCommand : Obligations.ReturnDeliversTheCommand := by
  unfold Obligations.ReturnDeliversTheCommand
  intro dt kind f s hs hf heard
  refine ⟨fun h => ?_, fun older p younger hl hp ho => ?_⟩
  · rw [exec_ret hs hf, returnArrives, matchedEntry_none h]
    rfl
  · intro left kept
    have hkept : older.foldl entryLost (entriesLeave heard younger) = kept := by
      have hlost : ∀ (x : State) (q : PendingReturn), entryLost x q =
          if q.dest ∈ x.lossMarks then x
          else raise { x with lossMarks := markIn x.lossMarks q.dest } .commandLost q.dest q.kind.code := fun x q => by
        simp only [entryLost, List.contains_iff_mem]
      show _ = older.foldl _ _
      congr 1
      funext x q
      exact hlost x q
    rw [exec_ret hs hf, returnArrives_matched hl hp ho, hkept]
    refine ⟨fun ht he => ?_, fun ht hk => ?_⟩
    · rw [returnJudged, if_pos ht, if_neg (by rwa [echoFails_iff])]
      rfl
    · rw [returnJudged, ht, if_neg Bool.false_ne_true, if_pos hk]
      rfl

end Sys2Proof.Machine
end

section
/-! PROOF. Placing with room, probes and identity (R8, R10, R22 to R27, R31, R34). -/

namespace Sys2Proof.Machine

/-! ### A frame placed with room -/

/-- The queue that a frame joins with room holds it, no other probe, and at most one frame more (R8). -/
theorem queueJoin_holds {q : List OutFrame} {f : OutFrame} (h : q.length < 24) :
    (∃ g ∈ (queueJoin q f).1, g.kind = f.kind ∧ g.dest = f.dest ∧ g.payload = f.payload) ∧ (queueJoin q f).2 = none := by
  unfold queueJoin
  dsimp only
  split
  · next hsame =>
    obtain ⟨g, hg, hs⟩ := List.any_eq_true.1 hsame
    refine ⟨⟨_, List.mem_map_of_mem hg, ?_⟩, rfl⟩
    rw [if_pos hs]
    simp only [Bool.and_eq_true, decide_eq_true_eq] at hs
    exact ⟨hs.1.2, hs.2, rfl⟩
  · rw [if_pos (show q.length < Config.outQueueMax from h)]
    exact ⟨⟨f, by simp, rfl, rfl, rfl⟩, rfl⟩

/-- A frame that joins an empty queue. -/
theorem queueJoin_nil (f : OutFrame) : (queueJoin [] f).1 = [f] := rfl

/-- The arbiter that finds one frame leaves it, or takes it. -/
theorem arbiter_single {s : State} {f : OutFrame} (h : s.outQueue = [f]) :
    arbiter s = s ∨ transmitterFree s = true ∧ arbiter s = takeFrame s f [] := by
  unfold arbiter
  split
  · next hfree =>
    refine .inr ⟨hfree, ?_⟩
    obtain ⟨g, rest, htake⟩ := takeMostUrgent_nonempty (q := s.outQueue) (by simp [h])
    obtain ⟨older, younger, hsplit, hrest, -, -⟩ := takeMostUrgent_split htake
    have hone : older = [] ∧ g = f ∧ younger = [] := by
      rw [h] at hsplit
      cases older with
      | nil => simpa [eq_comm] using hsplit
      | cons x older => simp at hsplit
    obtain ⟨rfl, rfl, rfl⟩ := hone
    rw [htake, hrest]
    rfl
  · exact .inl rfl

/-- What becomes of a frame that is placed where the outbound queue has room: it waits there, or is taken at once (R8, R10). -/
theorem place_room_cases {s : State} {f : OutFrame} (h : s.outQueue.length < 24) :
    place s f = { s with outQueue := (queueJoin s.outQueue f).1 } ∨
      s.outQueue = [] ∧ transmitterFree s = true ∧ place s f = takeFrame { s with outQueue := [f] } f [] := by
  rw [place_room s f h]
  by_cases hq : s.outQueue = []
  · rw [hq, queueJoin_nil]
    have hjoined : queueJoined s [f] = arbiter { s with outQueue := [f] } := by
      unfold queueJoined
      simp [hq]
    rw [hjoined]
    rcases arbiter_single (s := { s with outQueue := [f] }) rfl with ha | ⟨hfree, ha⟩
    · exact .inl ha
    · exact .inr ⟨rfl, hfree, ha⟩
  · exact .inl (queueJoined_waits _ _ hq)

/-- A frame placed with room stands in the queue, or is being sent (R8, R10). -/
theorem place_onItsWay {s : State} {f : OutFrame} (h : s.outQueue.length < 24) : OnItsWay s (place s f) f := by
  rcases place_room_cases h with hp | ⟨-, hfree, hp⟩
  · rw [hp]
    exact .inl (queueJoin_holds h).1
  · obtain ⟨-, hsending, -⟩ := (transmitterFree_iff s).1 hfree
    rw [hp, takeFrame_eq]
    exact .inr ⟨hsending, _, rfl, rfl, rfl, rfl⟩

/-- A probe placed with room leaves the units, but that its unit's window may start (R8, R22). -/
theorem place_probe_units {s : State} (h : s.outQueue.length < 24) (a : Nat) :
    (place s { kind := .identProbe, dest := a }).units = s.units ∨
      ∃ e, (place s { kind := .identProbe, dest := a }).units = modifyRec s.units a (startWindow e) := by
  rcases place_room_cases (f := { kind := .identProbe, dest := a }) h with hp | ⟨-, -, hp⟩
  · exact .inl (by rw [hp])
  · rw [hp, takeFrame_eq]
    exact .inr ⟨_, rfl⟩

/-- What a unit's record is after a probe to it was placed with room: its own but for the window. -/
theorem place_probe_self {s : State} (h : s.outQueue.length < 24) {a : Nat} {u : UnitRec} (hu : recAt s.units a = some u) :
    ∃ w, recAt (place s { kind := .identProbe, dest := a }).units a = some { u with probeWindow := w } := by
  rcases place_probe_units h a with hp | ⟨e, hp⟩
  · exact ⟨u.probeWindow, by rw [hp, hu]⟩
  · rw [hp, recAt_modifyRec_self, hu, Option.map_some]
    unfold startWindow
    split
    · exact ⟨_, rfl⟩
    · exact ⟨u.probeWindow, rfl⟩

/-- An event makes the outbound queue longer by its notice at most (R178, R179). -/
theorem raise_outQueue (s : State) (k : EventKind) (o d : Nat) : (raise s k o d).outQueue.length ≤ s.outQueue.length + 1 := by
  have harbiter : ∀ t : State, (arbiter t).outQueue.length ≤ t.outQueue.length := by
    intro t
    unfold arbiter
    split
    · split
      · next f rest htake =>
        rw [takeFrame_eq]
        have := takeMostUrgent_length htake
        dsimp only
        omega
      · exact le_rfl
    · exact le_rfl
  have hnotice : ∀ (t : State) a, (placeNotice t a).outQueue.length ≤ t.outQueue.length + 1 := by
    intro t a
    unfold placeNotice
    split
    · unfold queueJoined
      dsimp only
      split
      · exact (harbiter _).trans (by simp)
      · simp
    · exact Nat.le_succ _
  unfold raise
  split
  · split
    · exact hnotice _ _
    · exact Nat.le_succ _
  · exact Nat.le_succ _

theorem loopHeard_outQueue (s : State) : (loopHeard s).outQueue.length ≤ s.outQueue.length + 1 := by
  rw [loopHeard_eq]
  split
  · exact Nat.le_succ _
  · exact raise_outQueue _ _ _ _

/-! ### Reports of units that are not ACTIVE (R27, R31) -/

/-- A report of a unit that is not ACTIVE purges nothing. -/
theorem purgedFor_idle {s : State} {f : Frame} (h : s.unitActive (srcOf f) = false) (kind : Byte) :
    purgedFor s kind f = s := by
  unfold purgedFor completesHeld
  cases s.bank <;> simp [h]

theorem unitActive_of {s : State} {a : Nat} {u : UnitRec} (hu : recAt s.units a = some u) :
    s.unitActive a = decide (u.state = .active) := by
  unfold State.unitActive
  rw [hu]

/-- A report of a unit that is not ACTIVE is judged by the unit's state alone. -/
theorem report_arrival {s : State} {b : Bank} {k : UnitKind} {kind : Byte} {f : Frame} {u : UnitRec} (hs : s.inReset = false)
    (hb : s.bank = some b) (hkind : b.kindAt (srcOf f) = k) (hu : recAt s.units (srcOf f) = some u) (hidle : u.state ≠ .active)
    (hk : k.reports.map FrameKind.code = some kind.toNat) (hf : wfFromUnit kind f = true) (dt : Time) :
    frameArrival s dt kind f =
      concluded (s.advance dt) (reportArrives (loopHeard (s.advance dt)) b (srcOf f) f.payload) := by
  obtain ⟨hv, hsrc, hd⟩ := wfFromUnit_valid hf
  have h13 : kind ≠ 13 := by rintro rfl; cases k <;> simp [UnitKind.reports, FrameKind.code] at hk
  have h14 : kind ≠ 14 := by rintro rfl; cases k <;> simp [UnitKind.reports, FrameKind.code] at hk
  have hn : k ≠ .none := by rintro rfl; simp [UnitKind.reports] at hk
  have hpurged : purgedFor (s.advance dt) kind f = s.advance dt :=
    purgedFor_idle (by rw [unitActive_of (s := s.advance dt) hu, decide_eq_false hidle]) kind
  rw [frameArrival, arrival_awake hs, frameArrives, if_pos hv, hpurged, frameTreated, if_neg hsrc, if_neg (not_not.2 hd),
    loopHeard_bank, advance_bank, hb]
  dsimp only
  rw [if_neg (by rw [hkind]; exact hn), if_neg h13, if_neg h14, hkind, if_pos hk]

/-- Settles O16. -/
theorem uncountedReports : Obligations.UncountedReports := by
  unfold Obligations.UncountedReports
  intro dt f s b u k kind c hs hb hkind hu hc hf heard probing probe
  have hreport : k.reports.map FrameKind.code = some kind.toNat ∧ exec c s = .next (frameArrival s dt kind f) := by
    simp only [List.mem_cons, List.not_mem_nil, or_false, Prod.mk.injEq] at hc
    rcases hc with ⟨rfl, rfl, rfl⟩ | ⟨rfl, rfl, rfl⟩ | ⟨rfl, rfl, rfl⟩ | ⟨rfl, rfl, rfl⟩ | ⟨rfl, rfl, rfl⟩ <;> exact ⟨rfl, rfl⟩
  obtain ⟨hk, hexec⟩ := hreport
  have hheard : recAt heard.units (srcOf f) = some u := by simpa [heard] using hu
  refine ⟨fun hstate => ?_, fun hstate => ⟨?_, fun hroom => ?_⟩⟩
  · have hidle : u.state ≠ .active := by rcases hstate with h | h | h <;> simp [h]
    rw [hexec, report_arrival hs hb hkind hu hidle hk hf]
    unfold reportArrives
    rw [hheard]
    rcases hstate with h | h | h <;> simp only [h] <;> rfl
  · rw [hexec, report_arrival hs hb hkind hu (by simp [hstate]) hk hf]
    unfold reportArrives
    rw [hheard]
    simp only [hstate]
    unfold enterProbing modifyUnit
    rw [hheard]
    dsimp only
    rw [hstate, if_neg (by decide), show heard.units = s.units by simp [heard]]
    rfl
  · have hlength : probing.outQueue.length < 24 := calc
      probing.outQueue.length ≤ heard.outQueue.length + 1 := raise_outQueue _ _ _ _
      _ ≤ s.outQueue.length + 1 + 1 := Nat.add_le_add_right (loopHeard_outQueue (s.advance dt)) 1
      _ < 24 := hroom
    refine ⟨place_onItsWay hlength, ?_⟩
    have hrec : recAt probing.units (srcOf f) = some (probingRec u) := by
      simp only [probing, raise_same, recAt_modifyRec_self, hu, Option.map_some]
      rfl
    exact place_probe_self hlength hrec

/-! ### Identity (R25) -/

theorem identMatches_iff {e : RosterEntry} {bs : List Byte} :
    identMatches e bs = true ↔ byteAt bs 0 = e.kind ∧ (e.serial = 0 ∨ identSerial bs = e.serial) := by
  simp [identMatches]

/-- An IDENT from a rostered address, under a bank (R6, R25). -/
theorem exec_ident {dt : Time} {f : Frame} {s : State} {b : Bank} (hs : s.inReset = false) (hb : s.bank = some b)
    (hf : wfFromUnit 13 f = true) (hk : b.kindAt (srcOf f) ≠ .none) :
    exec (.ident dt f) s =
      .next (finish (s.advance dt) (identArrives (loopHeard (s.advance dt)) b (srcOf f) f.payload)) := by
  obtain ⟨hv, hsrc, hd⟩ := wfFromUnit_valid hf
  refine (next_awake (e := fun t => frameArrives t 13 f) rfl hs).trans (congrArg _ ?_)
  unfold frameArrives
  rw [if_pos hv, purgedFor_other (.inl (by decide)), frameTreated, if_neg hsrc, if_neg (not_not.2 hd), loopHeard_bank,
    advance_bank, hb]
  dsimp only
  rw [if_neg hk, if_pos rfl]
  rfl

/-- What an end of an arrival leaves of a unit that waits for no probe. -/
theorem finish_unit {old x : State} {a : Nat} {u : UnitRec} (hu : recAt x.units a = some u) (hp : u.probed = false) :
    recAt (finish old x).units a = some u := (finish_concluded old x).unit hu hp

/-- Settles O17. -/
theorem identIsJudged : Obligations.IdentIsJudged := by
  unfold Obligations.IdentIsJudged
  intro dt f s b u hs hb hf hk hu a e serial agrees heard judged left timer
  have hheard : recAt heard.units a = some u := by simpa [heard] using hu
  have hmatch : identMatches e f.payload = true ↔ agrees := identMatches_iff
  have hunits : heard.units = s.units := by simp [heard]
  have hnow : heard.now = s.now + dt := by simp [heard]
  have hexec : ∀ (m : Bool) (x : UnitState) (y : Option Time), identMatches e f.payload = m →
      (if m then UnitState.active else .mismatch) = x →
      (if m && UnitKind.ofByte e.kind ≠ .mt then some ((s.now + dt).plus (e.timeout.toNat * 10)) else none) = y →
      (u.state = .probing ∨ u.state = .absent) → exec (.ident dt f) s = .next (left x y) := by
    intro m x y hm hx hy hstate
    have hprobed : u.probed = true := by simpa [UnitRec.probed] using hstate
    have hident : identified e (heard.after (reportTimeout b a)) f.payload = fun v => judged v x y := by
      funext v
      unfold identified State.after
      rw [hm, hx, hnow]
      simp only [judged, ← hy]
      rfl
    rw [exec_ident hs hb hf hk]
    unfold identArrives modifyUnit
    rw [hheard]
    dsimp only
    rw [if_pos hprobed, hm, hx, hunits, hident]
    rfl
  have hrec : ∀ x y, (judged u x y).probed = false → recAt (left x y).units a = some (judged u x y) := by
    intro x y hp
    refine finish_unit ?_ hp
    simp only [raise_same, recAt_modifyRec_self, hu, a, Option.map_some]
  refine ⟨fun hstate hagrees => ⟨hexec true _ _ (hmatch.2 hagrees) rfl ?_ hstate, hrec _ _ rfl⟩,
    fun hstate hagrees => ⟨hexec false _ _ (Bool.eq_false_iff.2 fun h => hagrees (hmatch.1 h)) rfl rfl hstate, hrec _ _ rfl⟩, fun hstate => ?_⟩
  · show (if true && UnitKind.ofByte e.kind ≠ .mt then _ else _) = if UnitKind.ofByte e.kind = .mt then _ else _
    by_cases hmt : UnitKind.ofByte e.kind = .mt <;> simp [hmt]
  · have hprobed : u.probed = false := by rcases hstate with h | h | h <;> simp [UnitRec.probed, h]
    refine ⟨?_, finish_unit hheard hprobed⟩
    rw [exec_ident hs hb hf hk]
    unfold identArrives
    rw [hheard]
    dsimp only
    rw [hprobed, if_neg Bool.false_ne_true]

/-! ### Probe windows (R23, R24) -/

theorem windowEnd_probing {g : State → OutFrame → State} {s : State} {a : Nat} {u : UnitRec} (hu : recAt s.units a = some u)
    (hstate : u.state = .probing) (hcount : u.probeCount < 2) :
    windowEnd g s a = g (modifyUnit s a fun v => { v with probeWindow := none, probeCount := u.probeCount + 1 })
      { kind := .identProbe, dest := a } := by
  unfold windowEnd
  rw [hu]
  dsimp only
  rw [hstate]
  dsimp only
  rw [if_pos (by omega)]

theorem windowEnd_third {g : State → OutFrame → State} {s : State} {a : Nat} {u : UnitRec} (hu : recAt s.units a = some u)
    (hstate : u.state = .probing) (hcount : 2 ≤ u.probeCount) :
    windowEnd g s a = raise (modifyUnit s a fun v =>
        { v with state := .absent, probeWindow := none, probeCount := 3, reprobe := some (s.after Config.reprobeTime),
                 started := true }) .unitState a (unitChange .probing .absent) := by
  unfold windowEnd
  rw [hu]
  dsimp only
  rw [hstate]
  dsimp only
  rw [if_neg (by omega)]

theorem windowEnd_absent {g : State → OutFrame → State} {s : State} {a : Nat} {u : UnitRec} (hu : recAt s.units a = some u)
    (hstate : u.state = .absent) : windowEnd g s a = modifyUnit s a fun v => { v with probeWindow := none } := by
  unfold windowEnd
  rw [hu]
  dsimp only
  rw [hstate]

/-- Settles O18. -/
theorem probeTimersProbeAgain : Obligations.ProbeTimersProbeAgain := by
  unfold Obligations.ProbeTimersProbeAgain
  intro dt a s u e hs hu due probe made
  have hdue : due.units = s.units := by simp [due]
  have hroom : ∀ g, (made g).outQueue.length = s.outQueue.length := fun g => by simp [made, due]
  have hwindow : u.probeWindow = some e → exec (.probeWindowExpiry dt a) s = .next (finish due (windowEnd place due a)) := by
    intro he
    rw [next_awake (e := probeExpires a) rfl hs]
    have hbind : (recAt (s.advance dt).units a).bind UnitRec.probeWindow = some e := by
      show (recAt s.units a).bind _ = _
      rw [hu]
      exact he
    unfold probeExpires
    rw [hbind]
  have hmade : ∀ g, modifyUnit due a g = made g := fun g => by rw [modifyUnit, hdue]
  have hdueu : recAt due.units a = some u := by rw [hdue, hu]
  refine ⟨fun he hstate hcount => ?_, fun he hstate hcount => ?_, fun he hstate => ?_, fun he => ?_⟩
  · intro counted
    refine ⟨?_, fun hlength => ?_⟩
    · rw [hwindow he, windowEnd_probing hdueu hstate hcount, hmade]
    · have hlength' : counted.outQueue.length < 24 := (hroom _).trans_lt hlength
      refine ⟨place_onItsWay hlength', place_probe_self hlength' (u := { u with probeWindow := none, probeCount := u.probeCount + 1 }) ?_⟩
      simp only [counted, made, recAt_modifyRec_self, hu, Option.map_some]
  · intro absent lost
    refine ⟨?_, ?_⟩
    · rw [hwindow he, windowEnd_third hdueu hstate hcount, hmade]
      rfl
    · simp only [lost, made, raise_same, recAt_modifyRec_self, hu, Option.map_some]
  · rw [hwindow he, windowEnd_absent hdueu hstate, hmade]
  · intro timed
    refine ⟨?_, fun hlength => place_onItsWay ((hroom _).trans_lt hlength)⟩
    rw [next_awake (e := reprobeExpires a) rfl hs]
    have hbind : (recAt (s.advance dt).units a).bind UnitRec.reprobe = some e := by
      show (recAt s.units a).bind _ = _
      rw [hu]
      exact he
    unfold reprobeExpires
    rw [hbind]
    dsimp only
    unfold modifyUnit
    rw [show ((s.advance dt).warp e).units = s.units from hdue]
    rfl

end Sys2Proof.Machine
end

section
/-! PROOF. Line characters: how they are read and assembled, and what one does on a line (R106 to R111). -/

namespace Sys2Proof.Machine

/-! ### Reading a character (R106, R107) -/

theorem two_marks_iff : ∀ e : BitVec 3, 2 ≤ (List.ofFn fun i : Fin 3 => e.getLsbD i).count true ↔ majority e = true := by
  decide

theorem disagrees_iff : ∀ e : BitVec 3, disagrees e = true ↔ ¬(e = 0 ∨ e = 7) := by
  decide

theorem dataValue_lt (l : List (BitVec 3)) : dataValue l < 2 ^ l.length := by
  induction l with
  | nil => exact Nat.one_pos
  | cons x l ih =>
    have hx : (majority x).toNat ≤ 1 := Bool.toNat_le _
    rw [dataValue, List.length_cons, Nat.pow_succ]
    omega

/-- The data elements are the bits of the value, the least significant first (13.3). -/
theorem dataValue_testBit (l : List (BitVec 3)) (i : Nat) (hi : i < l.length) : (dataValue l).testBit i = majority l[i] := by
  induction l generalizing i with
  | nil => exact absurd hi (Nat.not_lt_zero i)
  | cons x l ih =>
    have hbit : dataValue (x :: l) = Nat.bit (majority x) (dataValue l) := by
      rw [dataValue, Nat.bit_val, Nat.add_comm]
    rw [hbit]
    cases i with
    | zero => exact Nat.testBit_bit_zero _ _
    | succ i => rw [Nat.testBit_bit_succ, ih i (by simpa using hi)]; rfl

/-! ### Assembly (R108, R109) -/

theorem characterSound_iff (c : Character) :
    characterSound c = true ↔ c.noise = false ∧ c.framing = false ∧ c.brk = false ∧ c.value / 16 + c.value % 16 = 15 := by
  have hlow : c.value / 16 = 15 - c.value % 16 ↔ c.value / 16 + c.value % 16 = 15 := by omega
  simp only [characterSound, Bool.and_eq_true, Bool.not_eq_true', decide_eq_true_eq, hlow, and_assoc]

theorem headerCode_eq (c : Character) :
    headerCode c = if characterSound c = true ∧ c.markBit = true ∧ c.value % 16 ≤ 4 then some (c.value % 16) else none := by
  simp only [headerCode, Bool.and_eq_true, decide_eq_true_eq, and_assoc]

theorem dataState_eq (c : Character) :
    dataState c = if characterSound c = true ∧ c.markBit = false ∧ 1 ≤ c.value % 16 ∧ c.value % 16 ≤ 3 then
      some (Instrument.ofCode (c.value % 16)) else none := by
  simp only [dataState, Bool.and_eq_true, Bool.not_eq_true', decide_eq_true_eq, and_assoc]

/-- A valid header is taken wherever the receiver stands; what was begun is discarded (R109). -/
theorem assemble_header {c : Character} {h : Nat} (hc : headerCode c = some h) (r : Receiver) :
    assemble r c = { assembleHunt c with discarded := decide (r ≠ .hunt) } := by
  cases r with
  | hunt =>
    show assembleHunt c = _
    have hd : (assembleHunt c).discarded = false := by
      unfold assembleHunt
      rw [hc]
      dsimp only
      split <;> rfl
    rw [show decide (Receiver.hunt ≠ .hunt) = (assembleHunt c).discarded by rw [hd]; rfl]
  | assemble h' got =>
    unfold assemble
    rw [hc]
    simp

theorem assembleHunt_header {c : Character} {h : Nat} (hc : headerCode c = some h) :
    assembleHunt c = if h ≤ 1 then { receiver := .hunt, message := some (.stroke h) } else { receiver := .assemble h [] } := by
  unfold assembleHunt
  rw [hc]

/-- What a data character does to a message that was begun (R109). -/
theorem assemble_data {c : Character} {x : Instrument} (hc : headerCode c = none) (hx : dataState c = some x) (h : Nat)
    (got : List Instrument) :
    assemble (.assemble h got) c =
      if got.length + 1 < dataNeeded h then { receiver := .assemble h (got ++ [x]) }
      else { receiver := .hunt, message := some (messageOf h (got ++ [x])) } := by
  unfold assemble
  rw [hc, hx]

/-- Settles O34. -/
theorem charactersAreAssembled : Obligations.CharactersAreAssembled := by
  unfold Obligations.CharactersAreAssembled
  refine ⟨?_, ?_⟩
  · intro x d hd mark agree all
    have hmark : ∀ e, mark e ↔ majority e = true := two_marks_iff
    have hall : sampleSets x = all := rfl
    refine ⟨fun hstart => ?_, fun hstart => ?_⟩
    · rw [readCharacter, if_pos ((hmark _).1 hstart)]
    · rw [hmark] at hstart
      refine ⟨_, if_neg hstart, ?_, fun i => ?_, (hmark _).symm, ?_, ?_, ?_⟩
      · have hlt := dataValue_lt x.data
        rwa [show x.data.length = 8 by rw [hd, List.length_ofFn]] at hlt
      · have hi : (i : Nat) < x.data.length := by
          rw [hd, List.length_ofFn]
          exact i.2
        have hget : x.data[(i : Nat)] = d i := by
          simp only [hd, List.getElem_ofFn]
        rw [hmark, ← hget]
        exact (Bool.eq_iff_iff.1 (dataValue_testBit _ _ hi))
      · simp only [hall, List.any_eq_true, disagrees_iff, agree]
      · simp only [hall, List.all_eq_true, hmark, Bool.not_eq_true, Bool.not_eq_true']
      · simp only [Bool.and_eq_true, Bool.not_eq_true', hmark, Bool.not_eq_true]
  · intro r c sound header data begun o
    have hheader : header ↔ characterSound c = true ∧ c.markBit = true ∧ c.value % 16 ≤ 4 := by
      rw [characterSound_iff]
    have hdata : data ↔ characterSound c = true ∧ c.markBit = false ∧ 1 ≤ c.value % 16 ∧ c.value % 16 ≤ 3 := by
      rw [characterSound_iff]
    have hcode : header → headerCode c = some (c.value % 16) := fun h => by rw [headerCode_eq, if_pos (hheader.1 h)]
    have hnone : ¬ header → headerCode c = none := fun h => by rw [headerCode_eq, if_neg (mt hheader.2 h)]
    have hdnone : ¬ data → dataState c = none := fun h => by rw [dataState_eq, if_neg (mt hdata.2 h)]
    have hstate : data → headerCode c = none ∧ dataState c = some (Instrument.ofCode (c.value % 16)) := fun h => by
      refine ⟨hnone fun hh => ?_, by rw [dataState_eq, if_pos (hdata.1 h)]⟩
      have h1 := (hheader.1 hh).2.1
      rw [(hdata.1 h).2.1] at h1
      cases h1
    refine ⟨fun h hle => ?_, fun h hle => ?_, fun h hr => ?_, fun h hn k got hr => ?_, fun h ch hr hch => ?_, fun h hr => ?_,
      fun h x hr => ?_⟩
    · show assemble r c = _
      rw [assemble_header (hcode h), assembleHunt_header (hcode h), if_pos hle]
    · show assemble r c = _
      rw [assemble_header (hcode h), assembleHunt_header (hcode h), if_neg (by omega)]
    · show assemble r c = _
      rw [hr, assemble, assembleHunt, hnone h]
    · show assemble r c = _
      rw [hr, assemble, hnone h, hdnone hn]
    · show assemble r c = _
      have hneeded : ¬ ([] : List Instrument).length + 1 < dataNeeded (2 + ch) := by
        rw [dataNeeded, if_neg (by omega), if_pos (by omega)]
        simp
      rw [hr, assemble_data (hstate h).1 (hstate h).2, if_neg hneeded, messageOf, if_neg (by omega), if_pos (by omega),
        Nat.add_sub_cancel_left]
      rfl
    · show assemble r c = _
      rw [hr, assemble_data (hstate h).1 (hstate h).2]
      rfl
    · show assemble r c = _
      rw [hr, assemble_data (hstate h).1 (hstate h).2]
      rfl

/-! ### What a character does on a line (R105 to R111) -/

theorem modifyLine_congr {s : State} {l : Line} {f g : LineRec → LineRec} (h : f (s.line l) = g (s.line l)) :
    modifyLine s l f = modifyLine s l g := by
  cases l
  · exact congrArg (fun r => { s with lineA := r }) h
  · exact congrArg (fun r => { s with lineB := r }) h

@[simp] theorem advance_line (s : State) (dt : Time) (l : Line) : (s.advance dt).line l = s.line l := by cases l <;> rfl

theorem searching_iff (r : LineRec) (markBefore : Bool) :
    searching r markBefore = true ↔ r.settings.isSome = true ∧ (markBefore = true ∨ r.markHold = false) := by
  simp [searching]

/-- A character that a receiver which searches reads, and that completes no message (R107, R109). -/
theorem lineReads_incomplete {s : State} {l : Line} {markBefore : Bool} {x : LineSamples} {c : Character}
    (hs : searching (s.line l) markBefore = true) (hc : readCharacter x = some c)
    (hm : (assemble (s.line l).receiver c).message = none) :
    lineReads l markBefore x s =
      arbiters (characterTaken (modifyLine s l fun r => { r with markHold := c.framing || c.brk }) l c) := by
  unfold lineReads
  rw [if_pos hs, hc]
  dsimp only
  rw [if_neg (by rw [characterCompletes, modifyLine_line]; simp [hm])]

/-- A character that completes a message (R109, R111). -/
theorem lineReads_complete {s : State} {l : Line} {markBefore : Bool} {x : LineSamples} {c : Character}
    (hs : searching (s.line l) markBefore = true) (hc : readCharacter x = some c)
    (hm : (assemble (s.line l).receiver c).message.isSome = true) :
    lineReads l markBefore x s =
      finish s (characterReceived (modifyLine s l fun r => { r with markHold := c.framing || c.brk }) l c) := by
  unfold lineReads
  rw [if_pos hs, hc]
  dsimp only
  rw [if_pos (by rw [characterCompletes, modifyLine_line]; exact hm)]

/-- What one character's assembly makes of its line's record: the discard run counts, and LINK_NOISY tells at eight (R109,
R110). -/
theorem characterTaken_eq (s : State) (l : Line) (c : Character) :
    let o := assemble (s.line l).receiver c
    let run := if o.discarded then min 8 ((s.line l).discardRun + 1) else (s.line l).discardRun
    let taken := modifyLine s l fun r => { r with
      receiver := o.receiver, gapStart := if o.receiver = .hunt then none else some s.now, discardRun := run,
      noisyReported := (s.line l).noisyReported || (o.discarded && run == 8) }
    characterTaken s l c =
      if o.discarded && run == 8 && !(s.line l).noisyReported then raise taken .linkNoisy l.code 0 else taken := by
  intro o run taken
  unfold characterTaken
  dsimp only
  by_cases hd : o.discarded = true
  · rw [if_pos hd, hd, Bool.true_and]
    have hrun : run = min 8 ((s.line l).discardRun + 1) := if_pos hd
    unfold discardCounted
    dsimp only
    rw [← hrun]
    have heq : (decide (run = 8)) = (run == 8) := rfl
    by_cases hn : (run == 8 && !(s.line l).noisyReported) = true
    · rw [if_pos hn, if_pos (show (decide (run = 8) && _) = true from hn), ← raise_modifyLine, modifyLine_modifyLine]
      congr 1
      refine modifyLine_congr ?_
      simp only [Bool.and_eq_true, beq_iff_eq] at hn
      simp only [hn.1, hd, hn.2, Bool.or_true, beq_self_eq_true, Bool.and_self, decide_true]
      rfl
    · rw [if_neg hn, if_neg (show ¬ (decide (run = 8) && _) = true from hn), modifyLine_modifyLine]
      refine modifyLine_congr ?_
      have hnoisy : ((s.line l).noisyReported || decide (run = 8) && !(s.line l).noisyReported) =
          ((s.line l).noisyReported || (o.discarded && run == 8)) := by
        rw [hd, heq]
        cases (s.line l).noisyReported <;> simp
      simp only [hnoisy]
      rfl
  · have hd' : o.discarded = false := by simpa using hd
    have hrun : run = (s.line l).discardRun := if_neg hd
    rw [if_neg hd, hd', Bool.false_and, Bool.false_and, if_neg Bool.false_ne_true]
    refine modifyLine_congr ?_
    simp only [hrun, hd', Bool.false_and, Bool.or_false]
    rfl

/-- Settles O35. -/
theorem lineCharacterIsTaken : Obligations.LineCharacterIsTaken := by
  unfold Obligations.LineCharacterIsTaken
  intro dt l markBefore x s hs now receiver searches
  have hsearch : searches ↔ searching ((s.advance dt).line l) markBefore = true := by
    rw [searching_iff, advance_line]
  have hexec : exec (.lineCharacter dt l markBefore x) s = .next (lineReads l markBefore x (s.advance dt)) :=
    next_awake (e := lineReads l markBefore x) rfl hs
  have hreceiver : ((s.advance dt).line l).receiver = receiver := by rw [advance_line]
  have hmessage : ∀ (m : LineMsg) (c : Character), searches → readCharacter x = some c → (c.framing || c.brk) = false →
      (assemble receiver c).message.isSome = true → charactersToCome receiver m = [c] →
      exec (.lineCharacter dt l markBefore x) s = .next (finish (s.advance dt) (messageReceived (s.advance dt) l m)) := by
    intro m c h hx hclean hm hcome
    have hset : ((s.advance dt).line l).settings.isSome = true := by rw [advance_line]; exact h.1
    rw [hexec, lineReads_complete (hsearch.1 h) hx (by rw [hreceiver]; exact hm), messageReceived, if_pos hset, hreceiver, hcome,
      hclean]
    rfl
  have hsound : ∀ n mark, n ≤ 15 → characterSound (soundCharacter n mark) = true := fun n mark hn => by
    rw [characterSound_iff]
    refine ⟨rfl, rfl, rfl, ?_⟩
    show ((15 - n % 16) * 16 + n % 16) / 16 + ((15 - n % 16) * 16 + n % 16) % 16 = 15
    omega
  have hlow : ∀ n mark, n ≤ 15 → (soundCharacter n mark).value % 16 = n := fun n mark hn => by
    show ((15 - n % 16) * 16 + n % 16) % 16 = n
    omega
  have hstate : ∀ far : Instrument, far ≠ .unknown → headerCode (soundCharacter far.code false) = none ∧
      ∃ y, dataState (soundCharacter far.code false) = some y := by
    intro far hfar
    cases far
    case unknown => exact absurd rfl hfar
    all_goals exact ⟨rfl, _, rfl⟩
  refine ⟨fun h => ?_, fun h hx => ?_, fun c h hx hm => ?_, fun ch h hx => ?_, fun ch far h hfar hr hx => ?_,
    fun far0 far1 h hfar hr hx => ?_⟩
  · rw [hexec, lineReads, if_neg (mt hsearch.2 h)]
  · rw [hexec, lineReads, if_pos (hsearch.1 h), hx]
  · intro o run noisy taken
    rw [hexec, lineReads_incomplete (hsearch.1 h) hx (by rw [hreceiver]; exact hm), characterTaken_eq]
    have hline : ((modifyLine (s.advance dt) l fun r => { r with markHold := c.framing || c.brk }).line l) =
        { s.line l with markHold := c.framing || c.brk } := by rw [modifyLine_line, advance_line]
    have hnow : (modifyLine (s.advance dt) l fun r => { r with markHold := c.framing || c.brk }).now = now := by simp [now]
    rw [hline, hnow, modifyLine_modifyLine]
  · have hh : headerCode (soundCharacter ch true) = some ch.val := by
      rw [headerCode_eq, if_pos ⟨hsound ch true (by omega), rfl, by rw [hlow ch true (by omega)]; omega⟩, hlow ch true (by omega)]
    have hm : (assemble receiver (soundCharacter ch true)).message.isSome = true := by
      rw [assemble_header hh, assembleHunt_header hh, if_pos (by omega)]
      rfl
    have hcome : charactersToCome receiver (.stroke ch) = [soundCharacter ch true] := by
      unfold charactersToCome
      split <;> simp_all [messageCharacters]
    rw [hmessage (.stroke ch) _ h hx rfl hm hcome]
    exact (next_awake (e := fun t => finish t (messageReceived t l (.stroke ch))) rfl hs).symm
  · obtain ⟨hh, y, hy⟩ := hstate far hfar
    have hm : (assemble receiver (soundCharacter far.code false)).message.isSome = true := by
      rw [hr, assemble_data hh hy, if_neg]
      · rfl
      · simp only [dataNeeded, List.length_nil]
        split <;> [omega; split <;> omega]
    have hcome : charactersToCome receiver (.instr ch far) = [soundCharacter far.code false] := by
      rw [hr]
      simp [charactersToCome, messageCharacters]
    rw [hmessage (.instr ch far) _ h hx rfl hm hcome]
    exact (next_awake (e := fun t => finish t (messageReceived t l (.instr ch far))) rfl hs).symm
  · obtain ⟨hh, y, hy⟩ := hstate far1 hfar
    have hm : (assemble receiver (soundCharacter far1.code false)).message.isSome = true := by
      rw [hr, assemble_data hh hy]
      rfl
    have hcome : charactersToCome receiver (.status far0 far1) = [soundCharacter far1.code false] := by
      rw [hr]
      simp [charactersToCome, messageCharacters]
    rw [hmessage (.status far0 far1) _ h hx rfl hm hcome]
    exact (next_awake (e := fun t => finish t (messageReceived t l (.status far0 far1))) rfl hs).symm

end Sys2Proof.Machine
end

section
/-! PROOF. What every end of an arrival keeps: one rule over the operations that the end is made of, and with it the events
that the end raises (R96, R144, R155, R178). -/

namespace Sys2Proof.Machine

theorem foldl_keeps {α : Type} {P : State → Prop} {f : State → α → State} (hf : ∀ s x, P s → P (f s x)) (l : List α) {s : State}
    (h : P s) : P (l.foldl f s) := by
  induction l generalizing s with
  | nil => exact h
  | cons x l ih => exact ih (hf s x h)

/-! ### The end of an arrival, operation by operation -/

/-- The events that the end of an arrival raises of its own: those of LE, and those of the end of STARTING. -/
def endEvents : List EventKind := [.strokeLoss, .lampFault, .lampRecovered, .start]

/-- A property that the placing of what changed keeps. -/
structure PlaceKeeps (P : State → Prop) : Prop where
  outputs : ∀ s os, P s → P { s with outputs := os }
  placed : ∀ s b a f, s.bank = some b → stateCommand s b a = some f → P s → P (place s f)
  instr : ∀ s l c x, P s → P (placeLine s l (.instr c x))
  arbiters : ∀ s, P s → P (arbiters s)

/-- A property that LE's readings keep: they tell events and write levers. -/
structure ReadKeeps (P : State → Prop) : Prop where
  tell : ∀ s k o d, k ∈ endEvents → P s → P (raise s k o d)
  levers : ∀ s ls, P s → P { s with levers := ls }

/-- A property that each operation of the end of an arrival keeps. -/
structure EndKeeps (P : State → Prop) : Prop extends PlaceKeeps P, ReadKeeps P where
  lamps : ∀ s ps, P s → P { s with lamps := ps }
  begin_running : ∀ s, P s → P { s with part := .running, startTimer := none }

section
variable {P : State → Prop}

theorem ReadKeeps.strokeTest (h : ReadKeeps P) (b : Bank) (ended : List (Nat × Position)) (s : State) (n : Nat) (hs : P s) :
    P (strokeTest b ended s n) := by
  unfold Machine.strokeTest
  split
  · split
    · split
      · exact h.tell _ _ _ _ (by simp [endEvents]) (h.levers s _ hs)
      · exact hs
    · exact hs
  · exact hs

theorem ReadKeeps.leverRounds (h : ReadKeeps P) (b : Bank) (ended : List (Nat × Position)) (k : Nat) {s : State} (hs : P s) :
    ∀ y ∈ leverRounds b ended k s, P y := by
  induction k generalizing s with
  | zero => exact fun y hy => List.mem_singleton.1 hy ▸ h.levers s _ hs
  | succ k ih =>
    intro y hy
    have hread : P (decideAll b s) := h.levers s _ hs
    unfold Machine.leverRounds at hy
    dsimp only at hy
    split at hy
    · exact List.mem_singleton.1 hy ▸ hread
    · rcases List.mem_cons.1 hy with rfl | hy
      · exact hread
      · exact ih (s := strokeTests b ended (decideAll b s)) (foldl_keeps (h.strokeTest b ended) _ hread) y hy

theorem ReadKeeps.concludeLevers (h : ReadKeeps P) (ended : List (Nat × Position)) {s : State} (hs : P s) :
    P (concludeLevers ended s) := by
  have hall : ∀ y ∈ leverReadings ended s, P y := by
    unfold leverReadings
    split
    · exact h.leverRounds _ ended _ (h.levers s _ hs)
    · exact fun y hy => List.mem_singleton.1 hy ▸ hs
  exact hall _ (getLastD_mem (leverReadings_read ended s).1 s)

theorem EndKeeps.raiseAlarm (h : EndKeeps P) {s : State} (p : Nat) (x : LampState) (a : Alarm) {k : Option EventKind}
    (hk : ∀ e, k = some e → e = .lampFault ∨ e = .lampRecovered) (hs : P s) : P (raiseAlarm s p x a k) := by
  cases k with
  | none => exact hs
  | some e => rcases hk e rfl with rfl | rfl <;> exact h.tell _ _ _ _ (by simp [endEvents]) hs

theorem alarmAgree_kinds (a : Alarm) (x : LampState) (e : EventKind) (h : (alarmAgree a x).2 = some e) :
    e = .lampFault ∨ e = .lampRecovered := by
  unfold alarmAgree at h
  cases a <;> cases x <;> simp at h <;> simp [← h]

theorem EndKeeps.alarmsAgree (h : EndKeeps P) {s : State} (hs : P s) : P (alarmsAgree s) :=
  foldl_keeps (fun x p hx => h.raiseAlarm _ _ _ (alarmAgree_kinds p.2.alarm p.2.state) (h.lamps x _ hx)) _ hs

theorem EndKeeps.startingChecked (h : EndKeeps P) {s : State} (hs : P s) : P (startingChecked s) := by
  unfold Machine.startingChecked
  split
  · exact h.tell _ _ _ _ (by simp [endEvents]) (h.alarmsAgree (h.begin_running s hs))
  · exact hs

theorem PlaceKeeps.instrPlaced (h : PlaceKeeps P) (old : State) (b : Bank) {s : State} (hs : P s) : P (instrPlaced old b s) := by
  refine foldl_keeps (fun x p hx => ?_) s.sections hs
  split
  · split
    · exact hx
    · exact h.instr x _ _ _ hx
  · exact hx

/-- Placing commands keeps the bank. -/
theorem commandPlaced_bank (start : State) (stage : List State) (b : Bank) (k : UnitKind) (s : State) (a : Nat) :
    (commandPlaced start stage b k s a).bank = s.bank := by
  unfold commandPlaced
  split
  · split
    · exact State.bank_of _ _ (by simp)
    · rfl
  · rfl

theorem PlaceKeeps.commandsPlaced (h : PlaceKeeps P) (start : State) (stage : List State) {b : Bank} (k : UnitKind) {s : State}
    (hb : s.bank = some b) (hs : P s) :
    P (commandsPlaced start stage b k s) ∧ (commandsPlaced start stage b k s).bank = some b := by
  refine foldl_keeps (P := fun x => P x ∧ x.bank = some b) (fun x a hx => ?_) addresses ⟨hs, hb⟩
  refine ⟨?_, (commandPlaced_bank start stage b k x a).trans hx.2⟩
  unfold commandPlaced
  split
  · split
    · next f hf => exact h.placed x b a f hx.2 hf hx.1
    · exact hx.1
  · exact hx.1

theorem PlaceKeeps.settle (h : PlaceKeeps P) (start : State) (stage : List State) {s : State} (hs : P s) :
    P (settle start stage s) := by
  unfold Machine.settle
  split
  · next b hb =>
    have hbank : (Machine.instrPlaced start b s).bank = some b :=
      (State.bank_of _ _ (by rw [(instrPlaced_settled start b s).rest])).trans hb
    obtain ⟨hlocks, hlbank⟩ := h.commandsPlaced start (stage ++ [s]) .lfu hbank (h.instrPlaced start b hs)
    obtain ⟨hrepeaters, hrbank⟩ := h.commandsPlaced start [Machine.commandsPlaced start (stage ++ [s]) b .lfu
      (Machine.instrPlaced start b s)] .iu hlbank hlocks
    exact (h.commandsPlaced start _ .du (s := modesComputed b _) hrbank (h.outputs _ _ hrepeaters)).1
  · exact hs

theorem PlaceKeeps.settlePass (h : PlaceKeeps P) (pass : List State) {s : State} (hs : P s) : P (settlePass pass s) := by
  unfold Machine.settlePass
  split
  · next start stage b hb =>
    obtain ⟨hlocks, hlbank⟩ := h.commandsPlaced start stage .lfu (s := modesComputed b s) hb (h.outputs s _ hs)
    exact (h.commandsPlaced start stage .du hlbank hlocks).1
  · exact hs

theorem EndKeeps.readings (h : EndKeeps P) (ended : List (Nat × Position)) {s : State} (d : State) (hs : P s) :
    P ((readingsWith ended s).getLastD d) := by
  have hfirst := h.concludeLevers ended hs
  rw [readingsWith_last]
  split
  · exact hfirst
  · exact h.concludeLevers [] (h.startingChecked hfirst)

theorem EndKeeps.startingEnded (h : EndKeeps P) {s : State} (hs : P s) : P (startingEnded s) := by
  unfold Machine.startingEnded
  dsimp only
  split
  · exact hs
  · exact h.settle _ _ (h.concludeLevers [] (h.startingChecked hs))

/-- What each operation of the end of an arrival keeps, the whole end keeps. -/
theorem EndKeeps.finishWith (h : EndKeeps P) (ended : List (Nat × Position)) (pass : List State) (old : State) {s : State} (hs : P s) :
    P (finishWith ended pass old s) :=
  h.arbiters _ (h.startingEnded (h.settle _ _ (h.settlePass _ (h.readings ended s hs))))

end

/-! ### The events of some kinds -/

/-- Between `s` and `t` the events of the kinds `ks` that joined the queue are `new`, in their order; others may have joined
among them (R178). -/
def Tells (ks : List EventKind) (s t : State) (new : List (EventKind × Nat × Nat)) : Prop :=
  t.now = s.now ∧ ∃ all, t.events.map ungapped = queueWith s.events t.now all ∧ ofKinds ks all = new

theorem Tells.joined {ks : List EventKind} {s t : State} {new : List (EventKind × Nat × Nat)} (h : Tells ks s t new) :
    ∃ all, EventsJoined s t all ∧ ofKinds ks all = new := by
  obtain ⟨-, all, hall, hnew⟩ := h
  exact ⟨all, .inl hall, hnew⟩

theorem Tells.refl (ks : List EventKind) (s : State) : Tells ks s s [] := ⟨rfl, [], by rw [queueWith_nil], rfl⟩

theorem Tells.congr {ks : List EventKind} {s t t' : State} {new : List (EventKind × Nat × Nat)} (h : Tells ks s t new)
    (he : t'.events = t.events) (hnow : t'.now = t.now) : Tells ks s t' new := by
  obtain ⟨hn, all, hall, hnew⟩ := h
  exact ⟨hnow.trans hn, all, by rw [he, hnow, hall], hnew⟩

/-- One more event joins, and the FRAME_DROPPED of its notice perhaps. -/
theorem Tells.raise {ks : List EventKind} (hks : .frameDropped ∉ ks) {s t : State} {new : List (EventKind × Nat × Nat)}
    (h : Tells ks s t new) (k : EventKind) (o d : Nat) :
    Tells ks s (raise t k o d) (new ++ ofKinds ks [(k, o, d)]) := by
  obtain ⟨hn, all, hall, hnew⟩ := h
  have hnow : (Machine.raise t k o d).now = t.now := by simp only [raise_same]
  refine ⟨hnow.trans hn, ?_⟩
  have hdropped : ∀ a c, ofKinds ks [(EventKind.frameDropped, a, c)] = [] := fun a c => by simp [ofKinds, hks]
  rcases raise_events t k o d with he | ⟨hempty, -, a, he⟩
  · refine ⟨all ++ [(k, o, d)], ?_, ?_⟩
    · rw [he, hall, hnow, ← queueWith_concat]
    · rw [← hnew]
      exact List.filter_append ..
  · have hnil : s.events = [] ∧ all = [] := by
      have h0 : queueWith s.events t.now all = [] := by rw [← hall, hempty]; rfl
      by_cases ha : all = []
      · subst ha
        rw [queueWith_nil, List.map_eq_nil_iff] at h0
        exact ⟨h0, rfl⟩
      · exact absurd h0 (queueWith_ne_nil _ _ ha)
    refine ⟨[(k, o, d), (.frameDropped, a, FrameKind.eventNotice.code)], ?_, ?_⟩
    · rw [he, hnil.1, hnow]
    · rw [← hnew, hnil.2]
      show ofKinds ks ([(k, o, d)] ++ [(.frameDropped, a, _)]) = _
      rw [show ofKinds ks ([(k, o, d)] ++ [(EventKind.frameDropped, a, FrameKind.eventNotice.code)]) =
        ofKinds ks [(k, o, d)] ++ ofKinds ks [(.frameDropped, a, FrameKind.eventNotice.code)] from List.filter_append ..,
        hdropped, List.append_nil]
      rfl

theorem Tells.other {ks : List EventKind} (hks : .frameDropped ∉ ks) {s t : State} {new : List (EventKind × Nat × Nat)}
    (h : Tells ks s t new) {k : EventKind} (hk : k ∉ ks) (o d : Nat) : Tells ks s (Machine.raise t k o d) new := by
  have h' := h.raise hks k o d
  rwa [show ofKinds ks [(k, o, d)] = [] by simp [ofKinds, hk], List.append_nil] at h'

theorem Tells.raiseAll {ks : List EventKind} (hks : .frameDropped ∉ ks) {s t : State} {new : List (EventKind × Nat × Nat)}
    (h : Tells ks s t new) (es : List (EventKind × Nat × Nat)) : Tells ks s (Machine.raiseAll t es) (new ++ ofKinds ks es) := by
  induction es generalizing t new with
  | nil =>
    rw [show ofKinds ks [] = [] from rfl, List.append_nil]
    exact h
  | cons x es ih =>
    have h' := ih (h.raise hks x.1 x.2.1 x.2.2)
    rwa [List.append_assoc, show ofKinds ks [(x.1, x.2.1, x.2.2)] ++ ofKinds ks es = ofKinds ks (x :: es) from
      (List.filter_append [x] es).symm] at h'

/-- Events of other kinds than those of a list tell nothing of these. -/
theorem ofKinds_nil {ks : List EventKind} {es : List (EventKind × Nat × Nat)} (h : ∀ x ∈ es, x.1 ∉ ks) : ofKinds ks es = [] := by
  unfold ofKinds
  rw [List.filter_eq_nil_iff]
  intro x hx
  simpa using h x hx

/-- The kinds that placing a frame or a line message may tell of, and the end of an arrival with it. -/
def placingEvents : List EventKind := [.frameDropped, .unitState, .strokeDropped]

theorem Tells.queueJoined {ks : List EventKind} {s t : State} {new : List (EventKind × Nat × Nat)} (h : Tells ks s t new)
    (q : List OutFrame) : Tells ks s (Machine.queueJoined t q) new := by
  obtain ⟨q', n, x, p, u, r, hj⟩ := queueJoined_form t q
  exact h.congr (by rw [hj]) (by rw [hj])

theorem Tells.arbiters {ks : List EventKind} {s t : State} {new : List (EventKind × Nat × Nat)} (h : Tells ks s t new) :
    Tells ks s (Machine.arbiters t) new := h.congr (by simp) (by simp)

theorem Tells.modifyUnit {ks : List EventKind} {s t : State} {new : List (EventKind × Nat × Nat)} (h : Tells ks s t new)
    (a : Nat) (f : UnitRec → UnitRec) : Tells ks s (Machine.modifyUnit t a f) new := h.congr rfl rfl

theorem Tells.restartDue {ks : List EventKind} {s t : State} {new : List (EventKind × Nat × Nat)} (h : Tells ks s t new)
    (d : Bool) : Tells ks s { t with restartDue := d } new := h.congr rfl rfl

section
variable {ks : List EventKind} {s : State} {new : List (EventKind × Nat × Nat)} (hks : ∀ k ∈ placingEvents, k ∉ ks)
include hks

theorem Tells.windowEnd {g : State → OutFrame → State} (hg : ∀ t f, Tells ks s t new → Tells ks s (g t f) new) {t : State}
    (h : Tells ks s t new) (a : Nat) : Tells ks s (Machine.windowEnd g t a) new := by
  unfold Machine.windowEnd
  split
  · split
    · split
      · exact hg _ _ (h.modifyUnit a _)
      · exact (h.modifyUnit a _).other (hks .frameDropped (by simp [placingEvents]))
          (hks .unitState (by simp [placingEvents])) _ _
    · exact h.modifyUnit a _
    · exact h
  · exact h

theorem Tells.placeFuel (k : Nat) {t : State} (h : Tells ks s t new) (f : OutFrame) : Tells ks s (Machine.placeFuel k t f) new := by
  have hdrop := hks .frameDropped (by simp [placingEvents])
  have hx : ∀ {t : State} (h : Tells ks s t new) (q : List OutFrame) (d : Bool) (x : OutFrame), Tells ks s
      (Machine.raise { Machine.queueJoined t q with restartDue := d } .frameDropped x.dest x.kind.code) new :=
    fun h q d x => ((h.queueJoined q).restartDue d).other hdrop hdrop _ _
  induction k generalizing t f with
  | zero =>
    unfold Machine.placeFuel
    dsimp only
    split
    · exact h.queueJoined _
    · split <;> exact hx h _ _ _
  | succ k ih =>
    unfold Machine.placeFuel
    dsimp only
    split
    · exact h.queueJoined _
    · split
      · exact Tells.windowEnd hks (fun _ _ h => ih h _) (hx h _ _ _) _
      · exact hx h _ _ _

theorem Tells.place {t : State} (h : Tells ks s t new) (f : OutFrame) : Tells ks s (Machine.place t f) new :=
  h.placeFuel hks 3 f

theorem Tells.placeLine {t : State} (h : Tells ks s t new) (l : Line) (m : LineMsg) : Tells ks s (Machine.placeLine t l m) new := by
  unfold Machine.placeLine
  dsimp only
  have hq : ∀ q, Tells ks s (modifyLine t l fun x => { x with queue := q }) new := fun q => h.congr (by simp) (by simp)
  split
  · exact (hq _).other (hks .frameDropped (by simp [placingEvents])) (hks .strokeDropped (by simp [placingEvents])) _ _
  · exact hq _

/-- The end of an arrival tells of nothing but its own kinds of events. -/
theorem Tells.placeKeeps : PlaceKeeps fun t => Tells ks s t new where
  outputs _ _ h := h.congr rfl rfl
  placed _ _ _ _ _ _ h := h.place hks _
  instr _ _ _ _ h := h.placeLine hks _ _
  arbiters _ h := h.arbiters

theorem Tells.endKeeps (hend : ∀ k ∈ endEvents, k ∉ ks) : EndKeeps fun t => Tells ks s t new where
  toPlaceKeeps := Tells.placeKeeps hks
  tell _ _ _ _ hk h := h.other (hks .frameDropped (by simp [placingEvents])) (hend _ hk) _ _
  levers _ _ h := h.congr rfl rfl
  lamps _ _ h := h.congr rfl rfl
  begin_running _ h := h.congr rfl rfl

theorem Tells.finishWith (hend : ∀ k ∈ endEvents, k ∉ ks) {t : State} (h : Tells ks s t new) (ended : List (Nat × Position))
    (pass : List State) (old : State) : Tells ks s (Machine.finishWith ended pass old t) new :=
  (Tells.endKeeps hks hend).finishWith ended pass old h

end

end Sys2Proof.Machine
end

section
/-! PROOF. The link of a line (R110, R112, R113, R124, R134). -/

namespace Sys2Proof.Machine

theorem raise_line (s : State) (k : EventKind) (o d : Nat) (l : Line) : (raise s k o d).line l = s.line l :=
  State.line_of _ _ (by simp) (by simp) l

theorem raiseAll_line (s : State) (es : List (EventKind × Nat × Nat)) (l : Line) : (raiseAll s es).line l = s.line l :=
  State.line_of _ _ (by simp) (by simp) l

theorem raiseAll_modifyLine (s : State) (l : Line) (f : LineRec → LineRec) (es : List (EventKind × Nat × Nat)) :
    raiseAll (modifyLine s l f) es = modifyLine (raiseAll s es) l f := by
  induction es generalizing s with
  | nil => rfl
  | cons x es ih =>
    show raiseAll (raise (modifyLine s l f) _ _ _) es = modifyLine (raiseAll (raise s _ _ _) es) l f
    rw [raise_modifyLine, ih]

/-! ### A valid message (R112) -/

/-- The line's record after a valid message, and whether the link comes UP with it (R110, R112). -/
theorem linkHeard_up {s : State} {l : Line} (h : (s.line l).link = .up) :
    linkHeard s l = modifyLine s l fun r => { r with
      discardRun := 0, noisyReported := false, linkTimer := some (s.after (s.line l).timeout) } := by
  unfold linkHeard
  dsimp only
  rw [h]
  exact modifyLine_modifyLine _ _ _ _

theorem linkHeard_first {s : State} {l : Line} (h : (s.line l).link = .down)
    (hf : ∀ t, (s.line l).firstHeard = some t → (s.line l).timeout ≤ s.now.since t) :
    linkHeard s l = modifyLine s l fun r => { r with discardRun := 0, noisyReported := false, firstHeard := some s.now } := by
  unfold linkHeard
  dsimp only
  rw [h]
  cases hx : (s.line l).firstHeard with
  | none => exact modifyLine_modifyLine _ _ _ _
  | some t =>
    dsimp only
    rw [if_neg (by have := hf t hx; omega)]
    exact modifyLine_modifyLine _ _ _ _

theorem linkHeard_second {s : State} {l : Line} {t : Time} (h : (s.line l).link = .down) (hf : (s.line l).firstHeard = some t)
    (ht : s.now.since t < (s.line l).timeout) :
    linkHeard s l = raise (modifyLine s l fun r => { r with
      discardRun := 0, noisyReported := false, link := .up, firstHeard := none,
      linkTimer := some (s.after (s.line l).timeout) }) .linkUp l.code 0 := by
  unfold linkHeard
  dsimp only
  rw [h, hf]
  dsimp only
  rw [if_pos ht, modifyLine_modifyLine]

/-- The timeout of a line that has its rate. -/
theorem timeout_of {r : LineRec} {x : LineSettings} (h : r.settings = some x) : r.timeout = x.linkTimeout.toNat * 100 := by
  rw [LineRec.timeout, h]
  rfl

/-! ### Strokes never come with an own state -/

theorem takeYoungestStroke_mem {q kept : List LineMsg} {c : Nat} (h : takeYoungestStroke q = some (c, kept)) :
    ∀ m ∈ kept, m ∈ q := by
  induction q generalizing kept c with
  | nil => cases h
  | cons x q ih =>
    unfold takeYoungestStroke at h
    split at h
    · next c' kept' hrest =>
      cases h
      intro m hm
      rcases List.mem_cons.1 hm with rfl | hm
      · exact List.mem_cons_self
      · exact List.mem_cons_of_mem _ (ih hrest m hm)
    · split at h
      · cases h
        exact fun m hm => List.mem_cons_of_mem _ hm
      · cases h

/-- A message that joins a queue, and what stood there, are all that it then holds. -/
theorem lineJoin_mem {link : Link} {q : List LineMsg} {m w : LineMsg} (hm : m.isStroke = false)
    (h : w ∈ (lineJoin link q m).1) : w = m ∨ w ∈ q := by
  have hstate : (∃ c x, m = .instr c x) ∨ ∃ x y, m = .status x y := by
    cases m with
    | stroke c => cases hm
    | instr c x => exact .inl ⟨c, x, rfl⟩
    | status x y => exact .inr ⟨x, y, rfl⟩
  rw [lineJoin_of_state hstate] at h
  split at h
  · obtain ⟨v, hv, hw⟩ := List.mem_map.1 h
    split at hw
    · exact .inl hw.symm
    · exact .inr (hw ▸ hv)
  · split at h
    · rcases List.mem_append.1 h with h | h
      · exact .inr h
      · exact .inl (List.mem_singleton.1 h)
    · split at h
      · next hyoung =>
        rcases List.mem_append.1 h with h | h
        · exact .inr (takeYoungestStroke_mem hyoung _ h)
        · exact .inl (List.mem_singleton.1 h)
      · exact .inr h

/-- The arbiter of a line takes from its queue (R114). -/
theorem lineArbiter_mem {r : LineRec} {w : LineMsg} (h : w ∈ r.arbiter.queue) : w ∈ r.queue := by
  unfold LineRec.arbiter at h
  split at h
  · split at h
    · next m rest htake =>
      obtain ⟨older, younger, hq, rfl, -, -⟩ := takeMessage_split htake
      rw [hq]
      rcases List.mem_append.1 h with h | h
      · exact List.mem_append_left _ h
      · exact List.mem_append_right _ (List.mem_cons_of_mem m h)
    · exact h
  · exact h

/-- The transmit queue of a line holds no stroke. -/
def Strokeless (l : Line) (s : State) : Prop := ∀ c, LineMsg.stroke c ∉ (s.line l).queue

theorem Strokeless.of_line {l : Line} {s t : State} (h : Strokeless l s) (hl : t.line l = s.line l) : Strokeless l t := by
  unfold Strokeless
  rwa [hl]

theorem placeLine_queue (s : State) (l k : Line) (m : LineMsg) :
    ((placeLine s l m).line k).queue = if k = l then (lineJoin (s.line l).link (s.line l).queue m).1 else (s.line k).queue := by
  have hq : ∀ q, ((modifyLine s l fun x => { x with queue := q }).line k).queue = if k = l then q else (s.line k).queue := by
    intro q
    split
    · next h => rw [h, modifyLine_line]
    · next h => rw [modifyLine_other _ _ _ _ h]
  unfold placeLine
  dsimp only
  split
  · rw [raise_line, hq]
  · rw [hq]

/-- No end of an arrival places a stroke. -/
theorem Strokeless.endKeeps (l : Line) : EndKeeps (Strokeless l) where
  tell _ _ _ _ _ h := h.of_line (raise_line _ _ _ _ l)
  levers _ _ h := h.of_line (State.line_of _ _ rfl rfl l)
  lamps _ _ h := h.of_line (State.line_of _ _ rfl rfl l)
  begin_running _ h := h.of_line (State.line_of _ _ rfl rfl l)
  outputs _ _ h := h.of_line (State.line_of _ _ rfl rfl l)
  placed _ _ _ _ _ _ h := h.of_line (State.line_of _ _ (by simp) (by simp) l)
  instr s k c x h := by
    intro d hd
    rw [placeLine_queue] at hd
    split at hd
    · next hl =>
      rcases lineJoin_mem rfl hd with hd | hd
      · cases hd
      · exact h d (hl ▸ hd)
    · exact h d hd
  arbiters s h := by
    intro d hd
    rw [arbiters_line] at hd
    exact h d (lineArbiter_mem hd)

/-! ### The link goes DOWN (R112, R113, R124, R134) -/

/-- The events of a link that goes DOWN, the oldest stroke first (R112, R113). -/
def linkLostEvents (l : Line) (q : List LineMsg) : List (EventKind × Nat × Nat) :=
  (.linkDown, l.code, 0) :: (strokesOf q).map fun c => (.strokeDropped, l.code, c)

theorem linkLost_eq (s : State) (b : Bank) (l : Line) :
    linkLost s (some b) l =
      { raiseAll (modifyLine s l fun r => { r with
            link := .down, linkTimer := none, firstHeard := none,
            queue := r.queue.filter fun m => !m.isStroke }) (linkLostEvents l (s.line l).queue) with
        sections := s.sections.map fun p =>
          if (b.sectionEntry p.1).lineOf = l then (p.1, { p.2 with far := .unknown }) else p,
        incoming := invalidated b l s.incoming, here := invalidated b l s.here } := by
  unfold linkLost recognisersInvalidated farLost linkLostEvents
  dsimp only
  simp only [raiseAll_same, raise_same, modifyLine_same]
  rfl

/-- The link after its loss, the end of the arrival included. -/
theorem linkLost_line (s : State) (b : Bank) (l : Line) :
    (linkLost s (some b) l).line l = { s.line l with
      link := .down, linkTimer := none, firstHeard := none, queue := (s.line l).queue.filter fun m => !m.isStroke } := by
  rw [linkLost_eq]
  exact (State.line_of (raiseAll (modifyLine s l _) (linkLostEvents l (s.line l).queue)) _ rfl rfl l).trans
    ((raiseAll_line _ _ _).trans (modifyLine_line _ _ _))

/-- Settles O36. -/
theorem linkRule : Obligations.LinkRule := by
  unfold Obligations.LinkRule
  refine ⟨fun s l x hx => ?_, ?_⟩
  · intro r timeout clean
    have htimeout : (s.line l).timeout = timeout := timeout_of hx
    refine ⟨fun h => ?_, fun h hf => ?_, fun t h hf ht => ?_, fun t h hf ht => ?_⟩
    · rw [linkHeard_up h, htimeout]
      exact modifyLine_congr rfl
    · rw [linkHeard_first h fun t ht => by rw [show (s.line l).firstHeard = none from hf] at ht; cases ht]
      exact modifyLine_congr rfl
    · rw [linkHeard_first h fun u hu => ?_]
      · exact modifyLine_congr rfl
      · rw [show (s.line l).firstHeard = some t from hf] at hu
        cases hu
        rw [htimeout]
        exact ht
    · rw [linkHeard_second h hf (by rw [htimeout]; exact ht), htimeout]
      congr 1
      exact modifyLine_congr rfl
  · intro dt l s b e hs hb he due strokes down told invalid x
    have hline : due.line l = s.line l := State.line_of _ _ (by simp [due]) (by simp [due]) l
    have hevents : linkLostEvents l (due.line l).queue = (.linkDown, l.code, 0) :: strokes.map fun c => (.strokeDropped, l.code, c) := by
      rw [hline]
      rfl
    have hdown : (modifyLine due l fun r => { r with
        link := .down, linkTimer := none, firstHeard := none, queue := r.queue.filter fun m => !m.isStroke }) = down := by
      refine modifyLine_congr ?_
      have hfilter : (fun m : LineMsg => !m.isStroke) = fun m => match m with | .stroke _ => false | _ => true := by
        funext m
        cases m <;> rfl
      rw [hfilter, hline] <;> rfl
    have hinvalid : ∀ rs, invalidated b l rs = invalid rs := by
      intro rs
      simp only [invalidated, invalid, Bool.and_eq_true, decide_eq_true_eq]
    have hx : linkLost due (some b) l = x := by
      rw [linkLost_eq, hevents, hdown, hinvalid, hinvalid]
      simp only [x, told, due, State.warp_same, State.advance_same]
    have hraised : Raised due x ((.linkDown, l.code, 0) :: strokes.map fun c => (.strokeDropped, l.code, c)) := by
      have hstart : Raised due down [] := .of_same (by simp [down]) (by simp [down])
      exact (hstart.raiseAll _).congr rfl rfl rfl
    have hxline : x.line l = { s.line l with
        link := .down, linkTimer := none, firstHeard := none, queue := (s.line l).queue.filter fun m => !m.isStroke } := by
      rw [← hx, linkLost_line, hline]
    refine ⟨?_, hraised.joined, (Strokeless.endKeeps l).finishWith [] [] due fun c hc => ?_, ?_⟩
    · rw [next_awake (e := linkExpires l) rfl hs]
      have htimer : ((s.advance dt).line l).linkTimer = some e := by rw [advance_line]; exact he
      unfold linkExpires
      rw [htimer]
      dsimp only
      rw [advance_bank, hb, hx]
    · rw [hxline] at hc
      exact absurd (List.mem_filter.1 hc).2 (by simp [LineMsg.isStroke])
    · obtain ⟨q, m, hend⟩ := (finish_concluded due x).line l
      rw [hend, hxline]

end Sys2Proof.Machine
end

section
/-! PROOF. Messages on a line: the characters of one, and what STROKE, INSTR and STATUS bring (R109, R111, R119, R134, R135,
R140, R143). -/

namespace Sys2Proof.Machine

/-! ### The characters of a message (R108, R109) -/

/-- A line's record with what its characters move as it stands in another (R107, R109, R110). -/
def LineRec.readAs (r x : LineRec) : LineRec :=
  { r with receiver := x.receiver, gapStart := x.gapStart, discardRun := x.discardRun, noisyReported := x.noisyReported,
           markHold := x.markHold }

/-- What characters of a line that complete no message have done: the receiver, its gap timer, the discard run and the wait
for mark have moved, and LINK_NOISY may be told (R107, R109, R110). -/
def LineReads (l : Line) (s t : State) : Prop :=
  ∃ (r : LineRec) (es : List (EventKind × Nat × Nat)), t = raiseAll (modifyLine s l fun _ => r) es ∧
    r = (s.line l).readAs r ∧ ∀ e ∈ es, e.1 = .linkNoisy

theorem LineReads.modify (l : Line) (s : State) {f : LineRec → LineRec} (h : f (s.line l) = (s.line l).readAs (f (s.line l))) :
    LineReads l s (modifyLine s l f) :=
  ⟨f (s.line l), [], show modifyLine s l f = modifyLine s l fun _ => f (s.line l) from modifyLine_congr rfl, h, by simp⟩

theorem raiseAll_append (s : State) (es es' : List (EventKind × Nat × Nat)) :
    raiseAll s (es ++ es') = raiseAll (raiseAll s es) es' := List.foldl_append ..

theorem LineReads.raise {l : Line} {s t : State} (h : LineReads l s t) (o d : Nat) :
    LineReads l s (Machine.raise t .linkNoisy o d) := by
  obtain ⟨r, es, rfl, hr, hes⟩ := h
  refine ⟨r, es ++ [(.linkNoisy, o, d)], ?_, hr, fun e he => ?_⟩
  · rw [raiseAll_append]
    rfl
  rcases List.mem_append.1 he with he | he
  · exact hes e he
  · rw [List.mem_singleton.1 he]

theorem LineReads.line {l : Line} {s t : State} (h : LineReads l s t) : t.line l = (s.line l).readAs (t.line l) := by
  obtain ⟨r, es, rfl, hr, -⟩ := h
  rw [raiseAll_line, modifyLine_line]
  exact hr

theorem LineReads.trans {l : Line} {s t x : State} (h : LineReads l s t) (h' : LineReads l t x) : LineReads l s x := by
  have hline := h.line
  obtain ⟨r, es, rfl, hr, hes⟩ := h
  obtain ⟨r', es', rfl, hr', hes'⟩ := h'
  refine ⟨r', es ++ es', ?_, ?_, fun e he => ?_⟩
  · rw [← raiseAll_modifyLine, raiseAll_append, modifyLine_modifyLine]
  · rw [hline] at hr'
    exact hr'
  · rcases List.mem_append.1 he with he | he
    · exact hes e he
    · exact hes' e he

theorem LineReads.same {l : Line} {s t : State} (h : LineReads l s t) :
    t.now = s.now ∧ t.active = s.active ∧ t.incoming = s.incoming ∧ t.here = s.here ∧ t.sections = s.sections ∧
    t.exchanges = s.exchanges ∧ t.tracks = s.tracks := by
  obtain ⟨r, es, rfl, -, -⟩ := h
  simp

theorem LineReads.tells {l : Line} {s t : State} (h : LineReads l s t) {ks : List EventKind} (hk : .linkNoisy ∉ ks)
    (hd : .frameDropped ∉ ks) : Tells ks s t [] := by
  obtain ⟨r, es, rfl, -, hes⟩ := h
  have hstart : Tells ks s (modifyLine s l fun _ => r) [] := (Tells.refl ks s).congr (by simp) (by simp)
  have hall := hstart.raiseAll hd es
  rwa [ofKinds_nil fun x hx => by rw [hes x hx]; exact hk] at hall

theorem characterTaken_cases (s : State) (l : Line) (c : Character) :
    ∃ r : LineRec, r = (s.line l).readAs r ∧ r.receiver = (assemble (s.line l).receiver c).receiver ∧
      r.gapStart = (if (assemble (s.line l).receiver c).receiver = .hunt then none else some s.now) ∧
      (characterTaken s l c = modifyLine s l (fun _ => r) ∨
       characterTaken s l c = raise (modifyLine s l fun _ => r) .linkNoisy l.code 0) := by
  have h := characterTaken_eq s l c
  dsimp only at h
  generalize hrun : (if (assemble (s.line l).receiver c).discarded = true then min 8 ((s.line l).discardRun + 1)
    else (s.line l).discardRun) = run at h
  refine ⟨{ s.line l with
    receiver := (assemble (s.line l).receiver c).receiver,
    gapStart := if (assemble (s.line l).receiver c).receiver = .hunt then none else some s.now, discardRun := run,
    noisyReported := (s.line l).noisyReported || ((assemble (s.line l).receiver c).discarded && run == 8) }, rfl, rfl, rfl, ?_⟩
  rw [h]
  split
  · exact .inr (congrArg (raise · .linkNoisy l.code 0) (modifyLine_congr rfl))
  · exact .inl (modifyLine_congr rfl)

theorem characterTaken_reads (s : State) (l : Line) (c : Character) : LineReads l s (characterTaken s l c) := by
  obtain ⟨r, hr, -, -, h | h⟩ := characterTaken_cases s l c
  · rw [h]
    exact .modify l s hr
  · rw [h]
    exact (LineReads.modify l s hr).raise _ _

theorem characterTaken_line (s : State) (l : Line) (c : Character) :
    ((characterTaken s l c).line l).receiver = (assemble (s.line l).receiver c).receiver ∧
    ((characterTaken s l c).line l).gapStart =
      if (assemble (s.line l).receiver c).receiver = .hunt then none else some s.now := by
  obtain ⟨r, -, hr, hg, h | h⟩ := characterTaken_cases s l c
  · rw [h, modifyLine_line]
    exact ⟨hr, hg⟩
  · rw [h, raise_line, modifyLine_line]
    exact ⟨hr, hg⟩

/-- A message handed on: the characters of it and of what they discarded have been read, and the receiver is in HUNT. -/
def Completes (l : Line) (s : State) (m : LineMsg) (t : State) : Prop :=
  ∃ read, LineReads l s read ∧ (read.line l).receiver = .hunt ∧ (read.line l).gapStart = none ∧ t = messageHanded read l m

theorem Completes.after {l : Line} {s t x : State} {m : LineMsg} (h : LineReads l s t) (h' : Completes l t m x) :
    Completes l s m x := by
  obtain ⟨read, hread, hr⟩ := h'
  exact ⟨read, h.trans hread, hr⟩

theorem characterReceived_completes {s : State} {l : Line} {c : Character} {m : LineMsg}
    (h : (assemble (s.line l).receiver c).message = some m) (hh : (assemble (s.line l).receiver c).receiver = .hunt) :
    Completes l s m (characterReceived s l c) := by
  obtain ⟨hr, hg⟩ := characterTaken_line s l c
  refine ⟨characterTaken s l c, characterTaken_reads s l c, hr.trans hh, hg.trans (if_pos hh), ?_⟩
  unfold characterReceived characterCompletes
  rw [h]

theorem characterReceived_incomplete {s : State} {l : Line} {c : Character}
    (h : (assemble (s.line l).receiver c).message = none) : characterReceived s l c = characterTaken s l c := by
  unfold characterReceived characterCompletes
  rw [h]

theorem headerCode_sound {n : Nat} (h : n ≤ 4) : headerCode (soundCharacter n true) = some n := by
  have hn : n = 0 ∨ n = 1 ∨ n = 2 ∨ n = 3 ∨ n = 4 := by omega
  rcases hn with rfl | rfl | rfl | rfl | rfl <;> rfl

theorem dataState_sound {x : Instrument} (h : x ≠ .unknown) :
    headerCode (soundCharacter x.code false) = none ∧ dataState (soundCharacter x.code false) = some x := by
  cases x
  case unknown => exact absurd rfl h
  all_goals exact ⟨rfl, rfl⟩

/-- The header of an INSTR or a STATUS begins the message, wherever the receiver stood. -/
theorem header_begins {s : State} {l : Line} {n : Nat} (h2 : 2 ≤ n) (h4 : n ≤ 4) :
    LineReads l s (characterReceived s l (soundCharacter n true)) ∧
    ((characterReceived s l (soundCharacter n true)).line l).receiver = .assemble n [] := by
  have hasm : assemble (s.line l).receiver (soundCharacter n true) =
      { receiver := .assemble n [], discarded := decide ((s.line l).receiver ≠ .hunt) } := by
    rw [assemble_header (headerCode_sound h4), assembleHunt_header (headerCode_sound h4), if_neg (by omega)]
  rw [characterReceived_incomplete (by rw [hasm])]
  exact ⟨characterTaken_reads _ _ _, (characterTaken_line _ _ _).1.trans (by rw [hasm])⟩

theorem stroke_completes (s : State) (l : Line) (ch : Fin 2) :
    Completes l s (.stroke ch) (characterReceived s l (soundCharacter ch true)) := by
  have hasm : assemble (s.line l).receiver (soundCharacter ch true) =
      { receiver := .hunt, discarded := decide ((s.line l).receiver ≠ .hunt), message := some (.stroke ch) } := by
    rw [assemble_header (headerCode_sound (by omega)), assembleHunt_header (headerCode_sound (by omega)), if_pos (by omega)]
  exact characterReceived_completes (by rw [hasm]) (by rw [hasm])

theorem instr_completes {s : State} {l : Line} {ch : Fin 2} {x : Instrument} (hx : x ≠ .unknown)
    (hr : (s.line l).receiver = .assemble (2 + ch) []) :
    Completes l s (.instr ch x) (characterReceived s l (soundCharacter x.code false)) := by
  obtain ⟨hh, hd⟩ := dataState_sound hx
  have hasm : assemble (s.line l).receiver (soundCharacter x.code false) =
      { receiver := .hunt, message := some (.instr ch x) } := by
    rw [hr, assemble_data hh hd]
    have hch : ch.val = 0 ∨ ch.val = 1 := by omega
    rcases hch with hch | hch <;> rw [hch] <;> rfl
  exact characterReceived_completes (by rw [hasm]) (by rw [hasm])

theorem status_completes {s : State} {l : Line} {x y : Instrument} (hy : y ≠ .unknown)
    (hr : (s.line l).receiver = .assemble 4 [x]) :
    Completes l s (.status x y) (characterReceived s l (soundCharacter y.code false)) := by
  obtain ⟨hh, hd⟩ := dataState_sound hy
  have hasm : assemble (s.line l).receiver (soundCharacter y.code false) =
      { receiver := .hunt, message := some (.status x y) } := by
    rw [hr, assemble_data hh hd]
    rfl
  exact characterReceived_completes (by rw [hasm]) (by rw [hasm])

theorem status_goes_on {s : State} {l : Line} {x : Instrument} (hx : x ≠ .unknown)
    (hr : (s.line l).receiver = .assemble 4 []) :
    LineReads l s (characterReceived s l (soundCharacter x.code false)) ∧
    ((characterReceived s l (soundCharacter x.code false)).line l).receiver = .assemble 4 [x] := by
  obtain ⟨hh, hd⟩ := dataState_sound hx
  have hasm : assemble (s.line l).receiver (soundCharacter x.code false) = { receiver := .assemble 4 [x] } := by
    rw [hr, assemble_data hh hd]
    rfl
  rw [characterReceived_incomplete (by rw [hasm])]
  exact ⟨characterTaken_reads _ _ _, (characterTaken_line _ _ _).1.trans (by rw [hasm])⟩

/-! ### A message received (R105, R111; log entry 17) -/

/-- The messages that a line carries, no far state UNKNOWN. -/
inductive Carried : LineMsg → Prop where
  | stroke (ch : Fin 2) : Carried (.stroke ch)
  | instr (ch : Fin 2) {x : Instrument} (hx : x ≠ .unknown) : Carried (.instr ch x)
  | status {x y : Instrument} (hx : x ≠ .unknown) (hy : y ≠ .unknown) : Carried (.status x y)

/-- The characters still to come of a message complete it. -/
theorem characters_complete {m : LineMsg} (hm : Carried m) (s : State) (l : Line) :
    Completes l s m ((charactersToCome (s.line l).receiver m).foldl (fun s c => characterReceived s l c) s) := by
  cases hm with
  | stroke ch =>
    have hcome : charactersToCome (s.line l).receiver (.stroke ch) = [soundCharacter ch true] := by
      unfold charactersToCome
      split <;> simp_all [messageCharacters]
    rw [hcome]
    exact stroke_completes s l ch
  | @instr ch x hx =>
    have hwhole : Completes l s (.instr ch x) ((messageCharacters (.instr ch x)).foldl (fun s c => characterReceived s l c) s) := by
      obtain ⟨hreads, hr⟩ := header_begins (s := s) (l := l) (n := 2 + ch) (by omega) (by omega)
      exact (instr_completes hx hr).after hreads
    have hcome : charactersToCome (s.line l).receiver (.instr ch x) = messageCharacters (.instr ch x) ∨
        (s.line l).receiver = .assemble (2 + ch) [] ∧
          charactersToCome (s.line l).receiver (.instr ch x) = [soundCharacter x.code false] := by
      cases hr : (s.line l).receiver with
      | hunt => exact .inl rfl
      | assemble h got =>
        cases got with
        | nil =>
          by_cases hh : h = 2 + ch
          · exact .inr ⟨by rw [hh], by rw [hh]; exact if_pos rfl⟩
          · exact .inl (if_neg hh)
        | cons y got => cases got <;> exact .inl rfl
    rcases hcome with hcome | ⟨hr, hcome⟩
    · rw [hcome]
      exact hwhole
    · rw [hcome]
      exact instr_completes hx hr
  | @status x y hx hy =>
    have hdata : ∀ t : State, (t.line l).receiver = .assemble 4 [] → Completes l t (.status x y)
        ([soundCharacter x.code false, soundCharacter y.code false].foldl (fun s c => characterReceived s l c) t) := by
      intro t ht
      obtain ⟨hreads, hr⟩ := status_goes_on hx ht
      exact (status_completes hy hr).after hreads
    have hwhole : Completes l s (.status x y) ((messageCharacters (.status x y)).foldl (fun s c => characterReceived s l c) s) := by
      obtain ⟨hreads, hr⟩ := header_begins (s := s) (l := l) (n := 4) (by omega) (by omega)
      exact (hdata _ hr).after hreads
    cases hr : (s.line l).receiver with
    | hunt => exact hwhole
    | assemble h got =>
      cases got with
      | nil =>
        by_cases hh : h = 4
        · rw [hh] at hr ⊢
          exact hdata s hr
        · rw [show charactersToCome (.assemble h []) (.status x y) = messageCharacters (.status x y) from if_neg hh]
          exact hwhole
      | cons z got =>
        cases got with
        | nil =>
          by_cases hh : h = 4 ∧ z = x
          · obtain ⟨rfl, rfl⟩ := hh
            rw [show charactersToCome (.assemble 4 [z]) (.status z y) = [soundCharacter y.code false] from if_pos ⟨rfl, rfl⟩]
            exact status_completes hy hr
          · rw [show charactersToCome (.assemble h [z]) (.status x y) = messageCharacters (.status x y) from if_neg hh]
            exact hwhole
        | cons w got => exact hwhole

theorem LineReads.mark (l : Line) (s : State) (m : Bool) : LineReads l s (modifyLine s l fun r => { r with markHold := m }) :=
  .modify l s rfl

/-- A message that a line with its rate receives is handed on with its receiver in HUNT (R105, R111). -/
theorem messageReceived_completes {m : LineMsg} (hm : Carried m) {s : State} {l : Line}
    (h : (s.line l).settings.isSome = true) : Completes l s m (messageReceived s l m) := by
  unfold messageReceived
  rw [if_pos h]
  have hreceiver : (s.line l).receiver = ((modifyLine s l fun r => { r with markHold := false }).line l).receiver := by
    rw [modifyLine_line]
  rw [hreceiver]
  exact (characters_complete hm _ l).after (.mark l s false)

theorem linkHeard_line (s : State) (l : Line) :
    ((linkHeard s l).line l).receiver = (s.line l).receiver ∧ ((linkHeard s l).line l).gapStart = (s.line l).gapStart ∧
    ((linkHeard s l).line l).discardRun = 0 ∧ ((linkHeard s l).line l).noisyReported = false := by
  unfold linkHeard
  dsimp only
  split
  · simp only [modifyLine_line, and_self]
  · simp only [modifyLine_line, and_self]
  · split
    · rw [raise_line]
      simp only [modifyLine_line, and_self]
    · simp only [modifyLine_line, and_self]

theorem place_line (s : State) (f : OutFrame) (l : Line) : (place s f).line l = s.line l :=
  State.line_of _ _ (by simp) (by simp) l

/-- Handing a message on touches its line by the link rule alone. -/
theorem messageHanded_line (s : State) (l : Line) (m : LineMsg) : (messageHanded s l m).line l = (linkHeard s l).line l := by
  have hfar : ∀ (t : State) b ch x, (farOnChannel t b l ch x).line l = t.line l := fun t b ch x =>
    State.line_of _ _ (by simp) (by simp) l
  unfold messageHanded
  dsimp only
  split
  · split
    · exact State.line_of _ _ (by simp) (by simp) l
    · exact hfar _ _ _ _
    · exact (hfar _ _ _ _).trans (hfar _ _ _ _)
  · rfl

/-! ### STROKE (R119, R120) -/

theorem exec_strokeMessage {dt : Time} {l : Line} {ch : Fin 2} {s : State} (hs : s.inReset = false) :
    exec (.strokeMessage dt l ch) s = .next (finish (s.advance dt) (messageReceived (s.advance dt) l (.stroke ch))) :=
  next_awake (e := fun t => finish t (messageReceived t l (.stroke ch))) rfl hs

/-- A STROKE whose line is in HUNT is handed on as it comes (R109, R111). -/
theorem messageReceived_stroke_hunt {s : State} {l : Line} (ch : Fin 2) (hset : (s.line l).settings.isSome = true)
    (hr : (s.line l).receiver = .hunt) (hg : (s.line l).gapStart = none) :
    messageReceived s l (.stroke ch) = messageHanded (modifyLine s l fun r => { r with markHold := false }) l (.stroke ch) := by
  have hasm : assemble .hunt (soundCharacter ch true) = { receiver := .hunt, message := some (.stroke ch) } := by
    rw [assemble_header (headerCode_sound (by omega)), assembleHunt_header (headerCode_sound (by omega)), if_pos (by omega)]
    rfl
  have hquiet : ∀ t : State, (t.line l).receiver = .hunt → (t.line l).gapStart = none →
      characterReceived t l (soundCharacter ch true) = messageHanded t l (.stroke ch) := by
    intro t hr hg
    have htaken : characterTaken t l (soundCharacter ch true) = t := by
      rw [characterTaken_eq, hr, hasm]
      dsimp only
      rw [if_neg (by simp)]
      refine (modifyLine_congr (g := id) ?_).trans (by cases l <;> rfl)
      simp only [Bool.false_and, Bool.or_false, if_true, Bool.false_eq_true, if_false, id]
      rw [← hr, ← hg]
    unfold characterReceived characterCompletes
    rw [htaken, hr, hasm]
  unfold messageReceived
  rw [if_pos hset, hr]
  exact hquiet _ (by rw [modifyLine_line]; exact hr) (by rw [modifyLine_line]; exact hg)

theorem linkHeard_outQueue (s : State) (l : Line) : (linkHeard s l).outQueue.length ≤ s.outQueue.length + 1 := by
  have hm : ∀ (t : State) f, (modifyLine t l f).outQueue = t.outQueue := fun t f => by simp
  unfold linkHeard
  dsimp only
  split
  · simp only [hm]
    exact Nat.le_succ _
  · simp only [hm]
    exact Nat.le_succ _
  · split
    · exact (raise_outQueue _ _ _ _).trans (by simp only [hm]; exact le_rfl)
    · simp only [hm]
      exact Nat.le_succ _

/-- A STROKE handed on reaches no recogniser of this end, and no section's instruments. -/
theorem messageHanded_stroke (s : State) (l : Line) (ch : Nat) :
    (messageHanded s l (.stroke ch)).here = s.here ∧ (messageHanded s l (.stroke ch)).sections = s.sections := by
  unfold messageHanded
  dsimp only
  split
  · refine ⟨?_, by simp⟩
    unfold incomingStroke
    split
    · exact (show (ringBell (linkHeard s l) _ _).here = s.here by simp)
    · simp
  · simp

/-- Settles O37. -/
theorem strokeMessageIsTaken : Obligations.StrokeMessageIsTaken := by
  unfold Obligations.StrokeMessageIsTaken
  intro dt l ch s hs now quiet heard
  have hnow : ∀ f : OutFrame, (place heard f).now = now := fun f => by simp [heard, quiet, now]
  have hbank : quiet.bank = s.bank := State.bank_of _ _ (by simp [quiet])
  refine ⟨fun hset => ?_, fun hset hr hg => ?_, fun hset => ?_⟩
  · rw [exec_strokeMessage hs, messageReceived, if_neg (by rw [advance_line, hset]; simp)]
  · have hreceived : messageReceived (s.advance dt) l (.stroke ch) = messageHanded quiet l (.stroke ch) :=
      messageReceived_stroke_hunt ch (by rwa [advance_line]) (by rwa [advance_line]) (by rwa [advance_line])
    refine ⟨fun b n a c hb hn ha => ?_, fun b hb hn => ?_⟩
    · intro ring rung
      refine ⟨?_, fun hroom => place_onItsWay ?_⟩
      · rw [exec_strokeMessage hs, hreceived]
        unfold messageHanded
        rw [hbank, hb]
        dsimp only
        unfold incomingStroke ringBell strokeTaken modifyRecogniser
        rw [hn]
        dsimp only
        rw [ha]
        dsimp only
        have hincoming : (place heard ring).incoming = s.incoming := by simp [heard, quiet]
        rw [show place (linkHeard quiet l) _ = rung from rfl, show rung.incoming = s.incoming from hincoming,
          show rung.now = now from hnow ring]
      · have hq : quiet.outQueue = s.outQueue := by simp [quiet]
        have hle := linkHeard_outQueue quiet l
        rw [hq] at hle
        exact hle.trans_lt hroom
    · rw [exec_strokeMessage hs, hreceived]
      unfold messageHanded
      rw [hbank, hb]
      dsimp only
      unfold incomingStroke
      rw [hn]
  · obtain ⟨read, hread, hr, hg, hx⟩ := messageReceived_completes (.stroke ch) (s := s.advance dt) (l := l) (by rwa [advance_line])
    refine ⟨_, exec_strokeMessage hs, ?_⟩
    obtain ⟨q, m, hend⟩ := (finish_concluded (s.advance dt) (messageReceived (s.advance dt) l (.stroke ch))).line l
    obtain ⟨h1, h2, h3, h4⟩ := linkHeard_line read l
    obtain ⟨-, -, -, hhere, hsections, hexchanges, -⟩ := hread.same
    rw [hend, hx, messageHanded_line]
    refine ⟨h1.trans hr, h2.trans hg, h3, h4, ?_, ?_, ?_⟩
    · simp only [finish_same]
      exact (messageHanded_stroke read l ch).1.trans hhere
    · simp only [finish_same]
      exact (messageHanded_stroke read l ch).2.trans hsections
    · simp only [finish_same, messageHanded_same]
      exact hexchanges

end Sys2Proof.Machine
end

section
/-! PROOF. Far states by message, and the single-line conflict (R134, R135, R140, R143). -/

namespace Sys2Proof.Machine

/-- A section's record after a message carries a far state for it (R134, R135, R140, R143). -/
def farRec (e : SectionEntry) (far : Instrument) (r : SectionRec) : SectionRec :=
  if r.far = far then r
  else if e.dir = .single ∧ r.own = .clear ∧ far = .clear ∧ e.senior ≠ 1 then withdrawn (farWritten far r)
  else farWritten far r

/-- The event of the single-line conflict, where a far CLEAR meets an own CLEAR (R143). -/
def farConflict (b : Bank) (n : Nat) (far : Instrument) (r : SectionRec) : List (EventKind × Nat × Nat) :=
  if r.far ≠ .clear ∧ far = .clear ∧ (b.sectionEntry n).dir = .single ∧ r.own = .clear then
    [((if (b.sectionEntry n).senior = 1 then EventKind.conflictHeld else .conflictWithdrawn), n, 0)]
  else []

theorem modifyRec_congr {α : Type} {rs : Recs α} {n : Nat} {x : α} {f g : α → α} (hx : recAt rs n = some x) (h : f x = g x) :
    ∀ m, recAt (modifyRec rs n f) m = recAt (modifyRec rs n g) m := by
  intro m
  rw [recAt_modifyRec, recAt_modifyRec]
  split
  · next hm => rw [hm, hx, Option.map_some, Option.map_some, h]
  · rfl

/-- What a far state's arrival makes of a section that has a record (R134, R135, R143). -/
theorem farArrives_eq {s : State} {b : Bank} {n : Nat} {far : Instrument} {r : SectionRec} (hr : recAt s.sections n = some r) :
    (∀ m, recAt (farArrives s b n far).sections m =
      if m = n then some (farRec (b.sectionEntry n) far r) else recAt s.sections m) ∧
    ∃ t, farArrives s b n far = raiseAll t (farConflict b n far r) ∧ t.events = s.events ∧ t.now = s.now := by
  have hmod : ∀ f : SectionRec → SectionRec, ∀ m, recAt (modifySection s n f).sections m =
      if m = n then some (f r) else recAt s.sections m := by
    intro f m
    rw [modifySection_sections, recAt_modifyRec]
    split
    · next hm => rw [hm, hr, Option.map_some]
    · rfl
  unfold farArrives
  rw [hr]
  dsimp only
  by_cases hfar : r.far = far
  · rw [if_pos hfar]
    refine ⟨fun m => ?_, s, ?_, rfl, rfl⟩
    · rw [farRec, if_pos hfar]
      split
      · next hm => rw [hm, hr]
      · rfl
    · rw [farConflict, if_neg]
      · rfl
      · rintro ⟨hx, hy, -⟩
        exact hx (hfar.trans hy)
  · rw [if_neg hfar]
    by_cases hmeets : (b.sectionEntry n).dir = .single ∧ r.own = .clear ∧ far = .clear
    · obtain ⟨hdir, hown, rfl⟩ := hmeets
      rw [if_pos (by simp [hdir, hown])]
      have hconflict : farConflict b n .clear r =
          [((if (b.sectionEntry n).senior = 1 then EventKind.conflictHeld else .conflictWithdrawn), n, 0)] :=
        if_pos ⟨hfar, rfl, hdir, hown⟩
      by_cases hsenior : (b.sectionEntry n).senior = 1
      · rw [if_pos hsenior]
        refine ⟨fun m => ?_, modifySection s n (farWritten .clear), ?_, rfl, rfl⟩
        · have hrec : farRec (b.sectionEntry n) .clear r = farWritten .clear r := by
            rw [farRec, if_neg hfar, if_neg (fun h => h.2.2.2 hsenior)]
          rw [hrec]
          simp only [raise_same]
          exact hmod _ m
        · rw [hconflict, if_pos hsenior]
          rfl
      · rw [if_neg hsenior]
        refine ⟨fun m => ?_, modifySection (modifySection s n (farWritten .clear)) n withdrawn, ?_, rfl, rfl⟩
        · have hrec : farRec (b.sectionEntry n) .clear r = withdrawn (farWritten .clear r) := by
            rw [farRec, if_neg hfar, if_pos ⟨hdir, hown, rfl, hsenior⟩]
          rw [hrec]
          simp only [raise_same]
          rw [modifySection_sections, recAt_modifyRec, hmod]
          split <;> rfl
        · rw [hconflict, if_neg hsenior]
          rfl
    · rw [if_neg (by simpa [and_assoc] using hmeets)]
      refine ⟨fun m => ?_, modifySection s n (farWritten far), ?_, rfl, rfl⟩
      · have hrec : farRec (b.sectionEntry n) far r = farWritten far r := by
          rw [farRec, if_neg hfar, if_neg (fun h => hmeets ⟨h.1, h.2.1, h.2.2.1⟩)]
        rw [hrec]
        exact hmod _ m
      · rw [farConflict, if_neg]
        · rfl
        · rintro ⟨-, hx, hdir, hown⟩
          exact hmeets ⟨hdir, hown, hx⟩

theorem farArrives_absent {s : State} {b : Bank} {n : Nat} {far : Instrument} (hr : recAt s.sections n = none) :
    farArrives s b n far = s := by
  unfold farArrives
  rw [hr]

/-- The conflict's events on a channel of a line, where the link is UP (R143). -/
def channelConflict (b : Bank) (l : Line) (rs : Recs SectionRec) (ch : Nat) (far : Instrument) : List (EventKind × Nat × Nat) :=
  match b.sectionAt l ch with
  | some n => ((recAt rs n).map (farConflict b n far)).getD []
  | none => []

/-- The kinds of the single-line conflict (R143). -/
def conflictKinds : List EventKind := [.conflictHeld, .conflictWithdrawn]

theorem ofKinds_farConflict (b : Bank) (n : Nat) (far : Instrument) (r : SectionRec) :
    ofKinds conflictKinds (farConflict b n far r) = farConflict b n far r := by
  unfold farConflict
  split
  · split <;> rfl
  · rfl

/-- A far state on a channel of a line whose link is UP: its section's record and its event (R134, R143). -/
theorem farOnChannel_up {s₀ s : State} {b : Bank} {l : Line} {ch : Nat} {far : Instrument} {new : List (EventKind × Nat × Nat)}
    (hup : (s.line l).link = .up) (ht : Tells conflictKinds s₀ s new) :
    Tells conflictKinds s₀ (farOnChannel s b l ch far) (new ++ channelConflict b l s.sections ch far) ∧
    ∀ m, recAt (farOnChannel s b l ch far).sections m =
      if b.sectionAt l ch = some m then (recAt s.sections m).map (farRec (b.sectionEntry m) far) else recAt s.sections m := by
  unfold farOnChannel channelConflict
  rw [if_pos hup]
  cases hn : b.sectionAt l ch with
  | none => exact ⟨by simpa using ht, fun m => by simp⟩
  | some n =>
    dsimp only
    cases hr : recAt s.sections n with
    | none =>
      rw [farArrives_absent hr]
      refine ⟨by simpa using ht, fun m => ?_⟩
      split
      · next hm =>
        cases hm
        rw [hr]
        rfl
      · rfl
    | some r =>
      obtain ⟨hrecs, t, hx, he, hnow⟩ := farArrives_eq (b := b) (far := far) hr
      refine ⟨?_, fun m => ?_⟩
      · rw [hx]
        have hall := (ht.congr he hnow).raiseAll (by decide) (farConflict b n far r)
        rwa [ofKinds_farConflict] at hall
      · rw [hrecs]
        by_cases hm : m = n
        · subst hm
          rw [if_pos rfl, if_pos rfl, hr]
          rfl
        · rw [if_neg hm, if_neg (fun h => hm (Option.some.inj h).symm)]

theorem farOnChannel_down {s : State} {l : Line} (h : (s.line l).link ≠ .up) (b : Bank) (ch : Nat) (far : Instrument) :
    farOnChannel s b l ch far = s := if_neg h

/-- When the link is UP after the link rule on a valid message (R112). -/
theorem linkHeard_link (s : State) (l : Line) :
    ((linkHeard s l).line l).link = .up ↔
      (s.line l).link = .up ∨ ∃ t, (s.line l).firstHeard = some t ∧ s.now.since t < (s.line l).timeout := by
  cases hlink : (s.line l).link with
  | up => simp [linkHeard_up hlink, hlink]
  | down =>
    by_cases hf : ∃ t, (s.line l).firstHeard = some t ∧ s.now.since t < (s.line l).timeout
    · obtain ⟨t, ht, hlt⟩ := hf
      rw [linkHeard_second hlink ht hlt, raise_line, modifyLine_line]
      exact ⟨fun _ => .inr ⟨t, ht, hlt⟩, fun _ => rfl⟩
    · rw [linkHeard_first hlink fun t ht => by by_contra hlt; exact hf ⟨t, ht, by omega⟩, modifyLine_line]
      simp only [hlink, hf, reduceCtorEq, or_self]

theorem linkHeard_tells {ks : List EventKind} {s₀ s : State} {new : List (EventKind × Nat × Nat)} (h : Tells ks s₀ s new)
    (hd : .frameDropped ∉ ks) (hk : .linkUp ∉ ks) (l : Line) : Tells ks s₀ (linkHeard s l) new := by
  have hm : ∀ f, Tells ks s₀ (modifyLine s l f) new := fun f => h.congr (by simp) (by simp)
  unfold linkHeard
  dsimp only
  simp only [modifyLine_modifyLine]
  split
  · exact hm _
  · exact hm _
  · split
    · exact (hm _).other hd hk _ _
    · exact hm _

theorem sectionAt_channel {b : Bank} {l : Line} {ch n : Nat} (h : b.sectionAt l ch = some n) :
    (b.sectionEntry n).channel.toNat = ch := by
  have := List.find?_some h
  simp only [decide_eq_true_eq] at this
  exact this.2

/-- Settles O38. -/
theorem farStatesAreTaken : Obligations.FarStatesAreTaken := by
  unfold Obligations.FarStatesAreTaken
  intro dt l s b x hs hb hx now r up taken received conflict
  have htaken : ∀ n far y, taken n far y = farRec (b.sectionEntry n) far y := by
    intro n far y
    unfold farRec
    by_cases hfar : y.far = far
    · simp only [taken, if_pos hfar]
    · simp only [taken, if_neg hfar]
      have hconsumed : (y.consumed && !decide (far = .blocked ∨ far = .onLine)) = (y.consumed && far ≠ .blocked && far ≠ .onLine) := by
        cases far <;> simp
      have hdisagrees : disagrees140 y.commutator .blocked = !decide (y.commutator = .unknown ∨ y.commutator = .blocked) := by
        unfold disagrees140
        cases y.commutator <;> rfl
      split
      · simp only [withdrawn, farWritten, hconsumed, hdisagrees]
      · simp only [farWritten, hconsumed]
  have hconflict : ∀ (ch : Fin 2) far, up → channelConflict b l s.sections ch far = conflict ch far := by
    intro ch far hup
    simp only [channelConflict, conflict, hup, true_and]
    cases b.sectionAt l ch with
    | none => rfl
    | some n => cases hy : recAt s.sections n <;> simp only [hy] <;> rfl
  have hdown : ∀ (ch : Fin 2) far, ¬ up → conflict ch far = [] := by
    intro ch far hup
    simp only [conflict, hup, false_and, if_false]
    cases b.sectionAt l ch with
    | none => rfl
    | some n =>
      dsimp only
      cases recAt s.sections n <;> rfl
  have hmessage : ∀ m : LineMsg, Carried m → ∃ heard, heard.bank = some b ∧ heard.sections = s.sections ∧
      ((heard.line l).link = .up ↔ up) ∧ Tells conflictKinds (s.advance dt) heard [] ∧
      ∀ y, (∀ read : State, linkHeard read l = heard → read.bank = some b → messageHanded read l m = y) →
        messageReceived (s.advance dt) l m = y ∧
        (y.line l = heard.line l → y.incoming = heard.incoming → y.here = heard.here → y.exchanges = heard.exchanges →
          y.tracks = heard.tracks → received (finish (s.advance dt) y)) := by
    intro m hm
    obtain ⟨read, hread, hr, hg, hreceived⟩ := messageReceived_completes hm (s := s.advance dt) (l := l)
      (by rw [advance_line, hx]; rfl)
    obtain ⟨hnow, hactive, hincoming, hhere, hsections, hexchanges, htracks⟩ := hread.same
    have hbank : read.bank = some b := (State.bank_of _ _ hactive).trans hb
    have hlink : ((linkHeard read l).line l).link = .up ↔ up := by
      rw [linkHeard_link, hread.line]
      have htimeout : ((s.line l).readAs (read.line l)).timeout = x.linkTimeout.toNat * 100 := timeout_of hx
      rw [advance_line, htimeout, hnow]
      rfl
    refine ⟨linkHeard read l, (State.bank_of _ _ (by simp)).trans hbank, by simpa using hsections, hlink,
      linkHeard_tells (hread.tells (by decide) (by decide)) (by decide) (by decide) l, fun y hy => ?_⟩
    have hyread := hy read rfl hbank
    refine ⟨hreceived.trans hyread, fun h1 h2 h3 h4 h5 => ?_⟩
    obtain ⟨q, w, hend⟩ := (finish_concluded (s.advance dt) y).line l
    obtain ⟨hl1, hl2, hl3, hl4⟩ := linkHeard_line read l
    rw [h1] at hend
    refine ⟨?_, ?_, ?_, ?_, ?_, ?_, ?_, ?_, ?_⟩
    · rw [hend]
      exact hl1.trans hr
    · rw [hend]
      exact hl2.trans hg
    · rw [hend]
      exact hl3
    · rw [hend]
      exact hl4
    · rw [hend]
      exact hlink
    · simp only [finish_same, h2, linkHeard_same]
      exact hincoming
    · simp only [finish_same, h3, linkHeard_same]
      exact hhere
    · simp only [finish_same, h4, linkHeard_same]
      exact hexchanges
    · simp only [finish_same, h5, linkHeard_same]
      exact htracks
  have hkinds : ∀ k ∈ placingEvents, k ∉ conflictKinds := by decide
  have hends : ∀ k ∈ endEvents, k ∉ conflictKinds := by decide
  refine ⟨fun ch far hfar => ?_, fun far0 far1 hfar0 hfar1 => ?_⟩
  · obtain ⟨heard, hbank, hsections, hlink, htells, hy⟩ := hmessage (.instr ch far) (.instr ch hfar)
    obtain ⟨hreceived, hrest⟩ := hy (farOnChannel heard b l ch far) fun read hread hb => by
      unfold messageHanded
      rw [hb, hread]
    have hexec : exec (.instrMessage dt l ch far) s = .next (finish (s.advance dt) (farOnChannel heard b l ch far)) := by
      rw [next_awake (e := fun t => finish t (messageReceived t l (.instr ch far))) rfl hs, hreceived]
    have hrec := hrest (State.line_of _ _ (by simp) (by simp) l) (by simp) (by simp) (by simp) (by simp)
    by_cases hup : up
    · obtain ⟨htold, hrecs⟩ := farOnChannel_up (b := b) (ch := ch) (far := far) (hlink.2 hup) htells
      obtain ⟨all, hall, hnew⟩ := (htold.finishWith hkinds hends [] [] (s.advance dt)).joined
      refine ⟨_, all, hexec, hrec, hall, ?_, fun n y hn => ?_⟩
      · rw [hsections, List.nil_append, hconflict ch far hup] at hnew
        exact hnew
      · simp only [finish_same, hrecs, hsections, hn, Option.map_some, hup, true_and, htaken]
        split <;> rfl
    · rw [farOnChannel_down (mt hlink.1 hup)] at hexec hrec
      obtain ⟨all, hall, hnew⟩ := (htells.finishWith hkinds hends [] [] (s.advance dt)).joined
      refine ⟨_, all, hexec, hrec, hall, hnew.trans (hdown ch far hup).symm, fun n y hn => ?_⟩
      simp only [finish_same, hsections, hn, hup, false_and, if_false]
  · obtain ⟨heard, hbank, hsections, hlink, htells, hy⟩ := hmessage (.status far0 far1) (.status hfar0 hfar1)
    let first := farOnChannel heard b l 0 far0
    have hfirst : first.line l = heard.line l := State.line_of _ _ (by simp [first]) (by simp [first]) l
    obtain ⟨hreceived, hrest⟩ := hy (farOnChannel first b l 1 far1) fun read hread hb => by
      unfold messageHanded
      rw [hb, hread]
    have hexec : exec (.statusMessage dt l far0 far1) s = .next (finish (s.advance dt) (farOnChannel first b l 1 far1)) := by
      rw [next_awake (e := fun t => finish t (messageReceived t l (.status far0 far1))) rfl hs, hreceived]
    have hrec := hrest ((State.line_of _ _ (by simp) (by simp) l).trans hfirst) (by simp [first]) (by simp [first])
      (by simp [first]) (by simp [first])
    by_cases hup : up
    · obtain ⟨htold0, hrecs0⟩ := farOnChannel_up (b := b) (ch := 0) (far := far0) (hlink.2 hup) htells
      obtain ⟨htold, hrecs⟩ := farOnChannel_up (b := b) (s := first) (ch := 1) (far := far1) (by rw [hfirst]; exact hlink.2 hup) htold0
      have hdistinct : ∀ n, b.sectionAt l 0 = some n → b.sectionAt l 1 ≠ some n := fun n h0 h1 => by
        have := (sectionAt_channel h0).symm.trans (sectionAt_channel h1)
        cases this
      have hlater : channelConflict b l first.sections 1 far1 = channelConflict b l s.sections 1 far1 := by
        unfold channelConflict
        cases h1 : b.sectionAt l 1 with
        | none => rfl
        | some n =>
          dsimp only
          rw [hrecs0, if_neg (fun h0 => hdistinct n h0 h1), hsections]
      obtain ⟨all, hall, hnew⟩ := (htold.finishWith hkinds hends [] [] (s.advance dt)).joined
      refine ⟨_, all, hexec, hrec, hall, ?_, fun n y hn => ?_⟩
      · rw [hlater, hsections, List.nil_append] at hnew
        rw [← hconflict 0 far0 hup, ← hconflict 1 far1 hup]
        exact hnew
      · simp only [finish_same, hrecs, hup, true_and, htaken]
        rw [hrecs0, hsections, hn]
        by_cases h0 : b.sectionAt l 0 = some n
        · rw [if_pos h0, if_pos h0, if_neg (hdistinct n h0)]
          rfl
        · rw [if_neg h0, if_neg h0]
          split <;> rfl
    · have hnone : farOnChannel first b l 1 far1 = heard := by
        rw [farOnChannel_down (by rw [hfirst]; exact mt hlink.1 hup)]
        exact farOnChannel_down (mt hlink.1 hup) b 0 far0
      rw [hnone] at hexec hrec
      obtain ⟨all, hall, hnew⟩ := (htells.finishWith hkinds hends [] [] (s.advance dt)).joined
      refine ⟨_, all, hexec, hrec, hall, ?_, fun n y hn => ?_⟩
      · rw [hdown 0 far0 hup, hdown 1 far1 hup]
        exact hnew
      · simp only [finish_same, hsections, hn, hup, false_and, if_false]

end Sys2Proof.Machine
end

section
/-! PROOF. The completion of a bell code (R123, R125, R126, R128). -/

namespace Sys2Proof.Machine

/-! ### Raising, and what it changes places with -/

theorem raise_modifyExchange (s : State) (n : Nat) (f : Exchange → Exchange) (k : EventKind) (o d : Nat) :
    raise (modifyExchange s n f) k o d = modifyExchange (raise s k o d) n f := by
  rw [raise_alike (s := s) (t := modifyExchange s n f) ⟨rfl, rfl, rfl, rfl, rfl, rfl, rfl, rfl, rfl⟩, ← toldAs_raise s k o d]
  rfl

theorem raise_setObstruction (s : State) (l : Line) (v : Bool) (k : EventKind) (o d : Nat) :
    raise (setObstruction s l v) k o d = setObstruction (raise s k o d) l v := by
  rw [raise_alike (s := s) (by cases l <;> constructor <;> rfl), ← toldAs_raise s k o d]
  cases l <;> rfl

theorem setObstruction_other (s : State) {l m : Line} (h : m ≠ l) (v : Bool) :
    (setObstruction s l v).obstruction m = s.obstruction m := by
  cases l <;> cases m
  case a.a => exact absurd rfl h
  case b.b => exact absurd rfl h
  all_goals rfl

theorem raise_obstruction (s : State) (k : EventKind) (o d : Nat) (l : Line) : (raise s k o d).obstruction l = s.obstruction l :=
  State.obstruction_of _ _ (by simp) (by simp) l

theorem raiseAll_obstruction (s : State) (es : List (EventKind × Nat × Nat)) (l : Line) :
    (raiseAll s es).obstruction l = s.obstruction l :=
  State.obstruction_of _ _ (by simp) (by simp) l

/-! ### A valid code, in one form -/

/-- The code repeats an awaiting record of the other origin (R126). -/
abbrev repeats (y : Exchange) (o : Origin) (groups : List Nat) : Prop :=
  y.awaiting = true ∧ y.origin ≠ some o ∧ y.pattern = groups

/-- The code misrepeats it (R126). -/
abbrev misrepeats (y : Exchange) (o : Origin) (groups : List Nat) : Prop :=
  y.awaiting = true ∧ y.origin ≠ some o ∧ y.pattern ≠ groups

/-- The repetition acknowledges a removal that they sent (R128). -/
abbrev clearsObstruction (y : Exchange) (o : Origin) (groups : List Nat) : Prop :=
  repeats y o groups ∧ y.origin = some .theySent ∧ y.cls = some .obstructionRemoved

/-- The code is an incoming OBSTRUCTION (R128). -/
abbrev setsObstruction (b : Bank) (x : Side) (groups : List Nat) : Prop := x = .incoming ∧ (codeClass b groups).1 = .obstruction

/-- What a valid code makes of its section's exchange record `y` (R126). -/
def codeExchange (b : Bank) (now : Time) (o : Origin) (groups : List Nat) (y z : Exchange) : Exchange :=
  if repeats y o groups then acknowledgedExchange now z
  else newExchange b now o groups (if misrepeats y o groups then .misrepeated else .awaiting)

/-- The line's obstruction flag after a valid code, where it moves (R128). -/
def codeObstruction (b : Bank) (x : Side) (groups : List Nat) (y : Exchange) (stood : Bool) : Option Bool :=
  if setsObstruction b x groups then if stood then none else some true
  else if clearsObstruction y (sideOrigin x) groups then some false else none

/-- The events of a valid code, in their order (R125, R126, R128). -/
def codeEvents (b : Bank) (x : Side) (n : Nat) (groups : List Nat) (y : Exchange) (stood : Bool) :
    List (EventKind × Nat × Nat) :=
  let line := (b.sectionEntry n).lineOf
  [(sideEvent x, n, patternCode groups)] ++
    (if (b.bellEntry groups).isNone then [(.codeUnknown, n, patternCode groups)] else []) ++
    (if clearsObstruction y (sideOrigin x) groups then [(.obstructionCleared, line.code, n)] else []) ++
    (if misrepeats y (sideOrigin x) groups then [(.codeMisrepeated, n, patternCode groups)] else []) ++
    (if y.awaiting = true ∧ y.origin = some (sideOrigin x) then [(.codeUnrepeated, n, patternCode y.pattern)] else []) ++
    (if setsObstruction b x groups ∧ stood = false then [(.obstructionSet, line.code, n)] else [])

/-- The obstruction flag of a line, where it moves. -/
def obstructionMoved (s : State) (l : Line) : Option Bool → State
  | some v => setObstruction s l v
  | none => s

theorem raiseAll_obstructionMoved (s : State) (l : Line) (v : Option Bool) (es : List (EventKind × Nat × Nat)) :
    raiseAll (obstructionMoved s l v) es = obstructionMoved (raiseAll s es) l v := by
  induction es generalizing s with
  | nil => rfl
  | cons x es ih =>
    have hx : raise (obstructionMoved s l v) x.1 x.2.1 x.2.2 = obstructionMoved (raise s x.1 x.2.1 x.2.2) l v := by
      cases v with
      | none => rfl
      | some v => exact raise_setObstruction _ _ _ _ _ _
    show raiseAll (raise (obstructionMoved s l v) _ _ _) es = obstructionMoved (raiseAll (raise s _ _ _) es) l v
    rw [hx, ih]

theorem raiseAll_modifyExchange (s : State) (n : Nat) (f : Exchange → Exchange) (es : List (EventKind × Nat × Nat)) :
    raiseAll (modifyExchange s n f) es = modifyExchange (raiseAll s es) n f := by
  induction es generalizing s with
  | nil => rfl
  | cons x es ih =>
    show raiseAll (raise (modifyExchange s n f) _ _ _) es = modifyExchange (raiseAll (raise s _ _ _) es) n f
    rw [raise_modifyExchange, ih]

theorem modifyExchange_obstruction (s : State) (n : Nat) (f : Exchange → Exchange) (l : Line) :
    (modifyExchange s n f).obstruction l = s.obstruction l := by cases l <;> rfl

/-- A record that is not repeated and not misrepeated, and was awaiting, was of the code's own origin. -/
theorem unrepeated_iff {y : Exchange} {o : Origin} {groups : List Nat} (h : ¬ repeats y o groups) (h' : ¬ misrepeats y o groups) :
    y.awaiting = true ∧ y.origin = some o ↔ y.awaiting = true := by
  refine ⟨And.left, fun ha => ⟨ha, ?_⟩⟩
  by_contra ho
  by_cases hp : y.pattern = groups
  · exact h ⟨ha, ho, hp⟩
  · exact h' ⟨ha, ho, hp⟩

/-- What a valid code's judgement against its section's record comes to (R126, R128). -/
theorem exchangeJudged_eq {s : State} {b : Bank} {n : Nat} {o : Origin} {groups : List Nat} {y : Exchange}
    (hy : recAt s.exchanges n = some y) :
    exchangeJudged s b n o groups =
      raiseAll (obstructionMoved (modifyExchange s n (codeExchange b s.now o groups y)) (b.sectionEntry n).lineOf
          (if clearsObstruction y o groups then some false else none))
        ((if clearsObstruction y o groups then [(.obstructionCleared, (b.sectionEntry n).lineOf.code, n)] else []) ++
          (if misrepeats y o groups then [(.codeMisrepeated, n, patternCode groups)] else []) ++
          (if y.awaiting = true ∧ y.origin = some o then [(.codeUnrepeated, n, patternCode y.pattern)] else [])) := by
  unfold exchangeJudged
  rw [hy]
  dsimp only
  by_cases hr : repeats y o groups
  · obtain ⟨ha, ho, hp⟩ := hr
    have hmis : ¬ misrepeats y o groups := fun h => h.2.2 hp
    have hun : ¬ (y.awaiting = true ∧ y.origin = some o) := fun h => ho h.2
    have hx : codeExchange b s.now o groups y = acknowledgedExchange s.now := by
      funext z
      exact if_pos ⟨ha, ho, hp⟩
    rw [if_pos (by simp [ha, ho]), if_pos hp, if_neg hmis, if_neg hun, hx]
    unfold removalAcknowledged
    by_cases hc : y.origin = some .theySent ∧ y.cls = some .obstructionRemoved
    · have hclears : clearsObstruction y o groups := ⟨⟨ha, ho, hp⟩, hc⟩
      rw [if_pos hclears, if_pos hclears, if_pos (by simpa using hc)]
      rfl
    · have hclears : ¬ clearsObstruction y o groups := fun h => hc h.2
      rw [if_neg hclears, if_neg hclears, if_neg (by simpa using hc)]
      rfl
  · have hclears : ¬ clearsObstruction y o groups := fun h => hr h.1
    rw [if_neg hclears, if_neg hclears]
    by_cases hm : misrepeats y o groups
    · obtain ⟨ha, ho, hp⟩ := hm
      have hun : ¬ (y.awaiting = true ∧ y.origin = some o) := fun h => ho h.2
      have hx : codeExchange b s.now o groups y = fun _ => newExchange b s.now o groups .misrepeated := by
        funext z
        rw [codeExchange, if_neg hr, if_pos ⟨ha, ho, hp⟩]
      rw [if_pos (by simp [ha, ho]), if_neg hp, if_pos ⟨ha, ho, hp⟩, if_neg hun, hx]
      exact (raise_modifyExchange _ _ _ _ _ _).symm
    · have hx : codeExchange b s.now o groups y = fun _ => newExchange b s.now o groups .awaiting := by
        funext z
        rw [codeExchange, if_neg hr, if_neg hm]
      have hun := unrepeated_iff hr hm
      have hnot : ¬ (y.awaiting && decide (y.origin ≠ some o)) = true := by
        simp only [Bool.and_eq_true, decide_eq_true_eq]
        exact fun h => h.2 (hun.2 h.1).2
      rw [if_neg hnot, if_neg hm, hx]
      by_cases ha : y.awaiting = true
      · rw [if_pos ha, if_pos (hun.2 ha)]
        exact (raise_modifyExchange _ _ _ _ _ _).symm
      · rw [if_neg ha, if_neg (mt hun.1 ha)]
        rfl

/-- A valid code's completion (R125, R126, R128). -/
theorem codeCompleted_valid {s : State} {b : Bank} {x : Side} {n : Nat} {r : Recogniser} {y : Exchange} (hv : r.invalid = false)
    (hy : recAt s.exchanges n = some y) :
    codeCompleted s b x n r =
      raiseAll (obstructionMoved (modifyExchange (modifyRecogniser s x n fun _ => {}) n
          (codeExchange b s.now (sideOrigin x) r.groups y)) (b.sectionEntry n).lineOf
          (codeObstruction b x r.groups y (s.obstruction (b.sectionEntry n).lineOf)))
        (codeEvents b x n r.groups y (s.obstruction (b.sectionEntry n).lineOf)) := by
  have hobstruction : ∀ (t : State), obstructionJudged t b n x r.groups =
      raiseAll (obstructionMoved t (b.sectionEntry n).lineOf
          (if setsObstruction b x r.groups ∧ t.obstruction (b.sectionEntry n).lineOf = false then some true else none))
        (if setsObstruction b x r.groups ∧ t.obstruction (b.sectionEntry n).lineOf = false then
          [(.obstructionSet, (b.sectionEntry n).lineOf.code, n)] else []) := by
    intro t
    unfold obstructionJudged
    by_cases hset : setsObstruction b x r.groups
    · rw [if_pos (by simpa using hset)]
      dsimp only
      cases ho : t.obstruction (b.sectionEntry n).lineOf with
      | true => rw [if_pos rfl, if_neg (by simp), if_neg (by simp)]; rfl
      | false => rw [if_neg (by simp), if_pos ⟨hset, rfl⟩, if_pos ⟨hset, rfl⟩]; rfl
    · rw [if_neg (by simpa using hset), if_neg (fun h => hset h.1), if_neg (fun h => hset h.1)]
      rfl
  let told : List (EventKind × Nat × Nat) := [(sideEvent x, n, patternCode r.groups)] ++
    (if (b.bellEntry r.groups).isNone then [(.codeUnknown, n, patternCode r.groups)] else [])
  let idle := modifyRecogniser s x n fun _ => {}
  have hknown : (if (b.bellEntry r.groups).isNone then
      raise (raise idle (sideEvent x) n (patternCode r.groups)) .codeUnknown n (patternCode r.groups)
      else raise idle (sideEvent x) n (patternCode r.groups)) = raiseAll idle told := by
    simp only [told]
    split <;> rfl
  have hy' : recAt (raiseAll idle told).exchanges n = some y := by simpa [idle] using hy
  have hnow : (raiseAll idle told).now = s.now := by simp [idle]
  have hstood : ∀ M : State, M.obstruction (b.sectionEntry n).lineOf = s.obstruction (b.sectionEntry n).lineOf →
      setsObstruction b x r.groups → ∀ es, (raiseAll (obstructionMoved M (b.sectionEntry n).lineOf none) es).obstruction
        (b.sectionEntry n).lineOf = s.obstruction (b.sectionEntry n).lineOf := fun M hM _ es =>
    (raiseAll_obstruction _ _ _).trans hM
  have hM : (modifyExchange idle n (codeExchange b s.now (sideOrigin x) r.groups y)).obstruction (b.sectionEntry n).lineOf =
      s.obstruction (b.sectionEntry n).lineOf := by
    rw [modifyExchange_obstruction]
    exact State.obstruction_of _ _ (by simp [idle]) (by simp [idle]) _
  unfold codeCompleted
  dsimp only
  rw [hv, if_neg Bool.false_ne_true, hknown, exchangeJudged_eq hy', hnow, ← raiseAll_modifyExchange, ← raiseAll_obstructionMoved,
    ← raiseAll_append, hobstruction]
  unfold codeEvents codeObstruction
  by_cases hset : setsObstruction b x r.groups
  · have hclears : ¬ clearsObstruction y (sideOrigin x) r.groups := by
      rintro ⟨⟨-, ho, -⟩, hthey, -⟩
      rw [hset.1] at ho
      exact ho hthey
    rw [if_neg hclears, if_neg hclears, hstood _ hM hset, if_pos hset]
    rw [← raiseAll_obstructionMoved]
    dsimp only
    rw [if_neg hclears]
    cases s.obstruction (b.sectionEntry n).lineOf with
    | true =>
      have hno : ¬ (setsObstruction b x r.groups ∧ true = false) := fun h => Bool.noConfusion h.2
      rw [if_neg hno, if_neg hno, if_pos rfl, List.append_nil, List.append_nil, List.nil_append]
      simp only [told, List.append_assoc]
      rfl
    | false =>
      have hyes : setsObstruction b x r.groups ∧ false = false := ⟨hset, rfl⟩
      rw [if_pos hyes, if_pos hyes, if_neg Bool.false_ne_true, List.append_nil, List.nil_append]
      rw [← raiseAll_append]
      simp only [told, List.append_assoc]
      rfl
  · have hno : ∀ v : Bool, ¬ (setsObstruction b x r.groups ∧ v = false) := fun v h => hset h.1
    rw [if_neg (hno _), if_neg (hno _), if_neg hset]
    dsimp only
    rw [if_neg (hno _), List.append_nil]
    simp only [told, List.append_assoc]
    rfl

/-! ### The arrival -/

/-- What a code's completion writes: its section's recogniser and exchange record, and its line's obstruction flag. -/
theorem codeWritten_form (s : State) (x : Side) (n : Nat) (f : Exchange → Exchange) (l : Line) (v : Option Bool)
    (es : List (EventKind × Nat × Nat)) :
    ∃ i h z oa ob v' q n' y p, raiseAll (obstructionMoved (modifyExchange (modifyRecogniser s x n fun _ => {}) n f) l v) es =
      { s with incoming := i, here := h, exchanges := z, obstructionA := oa, obstructionB := ob, events := v', outQueue := q,
               seq := n', sending := y, pendingReturns := p } := by
  obtain ⟨v', q, n', y, p, hform⟩ :=
    raiseAll_form (obstructionMoved (modifyExchange (modifyRecogniser s x n fun _ => {}) n f) l v) es
  rw [hform]
  cases x <;> cases v <;> cases l <;> exact ⟨_, _, _, _, _, _, _, _, _, _, rfl⟩

theorem State.recognisers_of (s t : State) (hi : t.incoming = s.incoming) (hh : t.here = s.here) (x : Side) :
    t.recognisers x = s.recognisers x := by
  cases x
  · exact hi
  · exact hh

theorem modifyRecogniser_other (s : State) {x z : Side} (h : z ≠ x) (n : Nat) (f : Recogniser → Recogniser) :
    (modifyRecogniser s x n f).recognisers z = s.recognisers z := by
  cases x <;> cases z
  case incoming.incoming => exact absurd rfl h
  case here.here => exact absurd rfl h
  all_goals rfl

theorem obstructionMoved_same (s : State) (l : Line) (v : Option Bool) :
    (obstructionMoved s l v).incoming = s.incoming ∧ (obstructionMoved s l v).here = s.here ∧
    (obstructionMoved s l v).exchanges = s.exchanges ∧ (obstructionMoved s l v).events = s.events ∧
    (obstructionMoved s l v).outQueue = s.outQueue ∧ (obstructionMoved s l v).now = s.now := by
  cases v <;> simp [obstructionMoved]

theorem obstructionMoved_self (s : State) (l : Line) (v : Option Bool) :
    (obstructionMoved s l v).obstruction l = v.getD (s.obstruction l) := by
  cases v with
  | none => rfl
  | some v => exact setObstruction_obstruction s l v

theorem obstructionMoved_other (s : State) {l m : Line} (h : m ≠ l) (v : Option Bool) :
    (obstructionMoved s l v).obstruction m = s.obstruction m := by
  cases v with
  | none => rfl
  | some v => exact setObstruction_other s h v

/-- The kinds of events that a code's completion may raise (R123, R125, R126, R128). -/
def codeKinds : List EventKind := [.codeInvalid, .codeUnknown, .codeReceived, .codeSent, .codeMisrepeated, .codeUnrepeated,
  .obstructionSet, .obstructionCleared]

theorem ofKinds_self {ks : List EventKind} {es : List (EventKind × Nat × Nat)} (h : ∀ e ∈ es, e.1 ∈ ks) : ofKinds ks es = es := by
  unfold ofKinds
  rw [List.filter_eq_self]
  intro e he
  simpa using h e he

theorem codeEvents_kinds (b : Bank) (x : Side) (n : Nat) (groups : List Nat) (y : Exchange) (stood : Bool) :
    ∀ e ∈ codeEvents b x n groups y stood, e.1 ∈ codeKinds := by
  have hone : ∀ (p : Prop) [Decidable p] (k : EventKind) (o d : Nat), k ∈ codeKinds →
      ∀ e ∈ (if p then [(k, o, d)] else []), e.1 ∈ codeKinds := by
    intro p _ k o d hk e he
    split at he
    · rw [List.mem_singleton.1 he]
      exact hk
    · cases he
  intro e he
  simp only [codeEvents, List.mem_append] at he
  rcases he with ((((he | he) | he) | he) | he) | he
  · rw [List.mem_singleton.1 he]
    show sideEvent x ∈ codeKinds
    cases x <;> decide
  all_goals exact hone _ _ _ _ (by decide) e he

/-- Settles O33. -/
theorem codeCompletes : Obligations.CodeCompletes := by
  unfold Obligations.CodeCompletes
  intro dt n side s b r e y hs hb hr he hy due origin entry cls train awaiting replaced reps line clears code
  have horigin : origin = sideOrigin side := by cases side <;> rfl
  have hawaiting : awaiting ↔ y.awaiting = true := by simp [awaiting, Exchange.awaiting]
  have hreps : reps ↔ repeats y (sideOrigin side) r.groups := by
    simp only [reps, repeats, hawaiting, horigin]
  have hclears : clears ↔ clearsObstruction y (sideOrigin side) r.groups := by
    simp only [clears, clearsObstruction, hreps]
  have hmis : awaiting ∧ y.origin ≠ some origin ∧ y.pattern ≠ r.groups ↔ misrepeats y (sideOrigin side) r.groups := by
    simp only [misrepeats, hawaiting, horigin]
  have hclass : codeClass b r.groups = (cls, train) := by
    have hentry : b.bellEntry r.groups = entry := rfl
    simp only [codeClass, cls, train, hentry]
    cases entry <;> rfl
  have hsets : setsObstruction b side r.groups ↔ side = .incoming ∧ cls = .obstruction := by
    simp only [setsObstruction, hclass]
  have hnew : ∀ st, newExchange b due.now (sideOrigin side) r.groups st = replaced st := by
    intro st
    simp only [newExchange, replaced, hclass, horigin]
  have hdue : due.exchanges = s.exchanges ∧ due.incoming = s.incoming ∧ due.here = s.here := by simp [due]
  obtain ⟨hdex, hdin, hdhere⟩ := hdue
  have hrecog : ∀ z, due.recognisers z = s.recognisers z := State.recognisers_of s due hdin hdhere
  have hobs : ∀ l, due.obstruction l = s.obstruction l := State.obstruction_of s due (by simp [due]) (by simp [due])
  have hexec : exec (.endTimerExpiry dt n side) s = .next (finish due (codeCompleted due b side n r)) := by
    rw [next_awake (e := codeEnds n side) rfl hs]
    have hr' : recAt ((s.advance dt).recognisers side) n = some r := by
      rw [State.recognisers_of s (s.advance dt) rfl rfl]
      exact hr
    unfold codeEnds
    rw [hr', advance_bank, hb]
    dsimp only
    rw [he]
  have hfinal : ∀ x, ∀ z, (finish due x).recognisers z = x.recognisers z := fun x =>
    State.recognisers_of x (finish due x) (by simp) (by simp)
  have hfobs : ∀ x, ∀ l, (finish due x).obstruction l = x.obstruction l := fun x =>
    State.obstruction_of x (finish due x) (by simp) (by simp)
  have hfex : ∀ x, (finish due x).exchanges = x.exchanges := fun x => by simp
  cases hinv : r.invalid with
  | true =>
    have hx : codeCompleted due b side n r = raiseAll (modifyRecogniser due side n fun _ => {}) [(.codeInvalid, n, side.code)] := by
      unfold codeCompleted
      dsimp only
      rw [hinv, if_pos rfl]
      rfl
    have hstart : Raised due (modifyRecogniser due side n fun _ => {}) [] := .of_same (by simp) (by simp)
    refine ⟨codeCompleted due b side n r, _, [(.codeInvalid, n, side.code)], hexec, finish_concluded _ _, rfl, ?_, ?_, ?_, ?_, ?_,
      ?_, ?_, ?_, fun h => by cases h⟩
    · obtain ⟨v', q, n', y', p, hform⟩ := raiseAll_form (modifyRecogniser due side n fun _ => {}) [(.codeInvalid, n, side.code)]
      rw [hx, hform]
      cases side <;> exact ⟨_, _, _, _, _, _, _, _, _, _, rfl⟩
    · rw [hx]
      exact (hstart.raiseAll _).joined
    · rw [if_pos rfl]
      rfl
    · rw [hfinal, hx, State.recognisers_of (modifyRecogniser due side n fun _ => {}) _ (by simp) (by simp),
        modifyRecogniser_recognisers, hrecog]
    · intro z hz
      rw [hfinal, hx, State.recognisers_of (modifyRecogniser due side n fun _ => {}) _ (by simp) (by simp),
        modifyRecogniser_other _ hz, hrecog]
    · intro m _
      rw [hfex, hx]
      simp [hdex]
    · intro z _
      rw [hfobs, hx, raiseAll_obstruction, State.obstruction_of due (modifyRecogniser due side n fun _ => {}) (by simp) (by simp), hobs]
    · intro _
      refine ⟨by rw [hfex, hx]; simp [hdex], ?_⟩
      rw [hfobs, hx, raiseAll_obstruction, State.obstruction_of due (modifyRecogniser due side n fun _ => {}) (by simp) (by simp), hobs]
  | false =>
    have hx := codeCompleted_valid (s := due) (b := b) (x := side) (n := n) hinv (by rw [hdex]; exact hy)
    generalize hf : codeExchange b due.now (sideOrigin side) r.groups y = f at hx
    generalize hv : codeObstruction b side r.groups y (due.obstruction (b.sectionEntry n).lineOf) = v at hx
    generalize hes : codeEvents b side n r.groups y (due.obstruction (b.sectionEntry n).lineOf) = es at hx
    let idle := modifyExchange (modifyRecogniser due side n fun _ => {}) n f
    have hidle : ∀ l, idle.obstruction l = s.obstruction l := fun l => by
      rw [modifyExchange_obstruction, State.obstruction_of due (modifyRecogniser due side n fun _ => {}) (by simp) (by simp), hobs]
    obtain ⟨hmi, hmh, hmx, hme, hmq, hmn⟩ := obstructionMoved_same idle line v
    have hstart : Raised due (obstructionMoved idle line v) [] := .of_same (hme.trans (by simp [idle])) (hmq.trans (by simp [idle]))
    have hxrec : ∀ z, (codeCompleted due b side n r).recognisers z = (modifyRecogniser due side n fun _ => {}).recognisers z := by
      intro z
      have hraised : (raiseAll (obstructionMoved idle line v) es).recognisers z = (obstructionMoved idle line v).recognisers z :=
        State.recognisers_of _ _ (by simp) (by simp) z
      rw [hx]
      exact hraised.trans ((State.recognisers_of idle _ hmi hmh z).trans (State.recognisers_of _ _ rfl rfl z))
    have hxex : (codeCompleted due b side n r).exchanges = modifyRec s.exchanges n f := by
      rw [hx]
      simp only [raiseAll_same]
      refine hmx.trans ?_
      show modifyRec (modifyRecogniser due side n fun _ => {}).exchanges n f = _
      rw [show (modifyRecogniser due side n fun _ => {}).exchanges = s.exchanges by simp [hdex]]
    have hself : recAt (modifyRec s.exchanges n f) n = some (f y) := by rw [recAt_modifyRec_self, hy, Option.map_some]
    refine ⟨codeCompleted due b side n r, _, es, hexec, finish_concluded _ _, rfl, ?_, ?_, ?_, ?_, ?_, ?_, ?_,
      Bool.noConfusion, fun _ => ⟨fun h => ?_, fun ha ho hp => ?_, fun h => ?_, ?_⟩⟩
    · rw [hx]
      exact codeWritten_form due side n f _ v es
    · rw [hx]
      exact (hstart.raiseAll es).joined
    · rw [if_neg Bool.false_ne_true]
      have hkinds := codeEvents_kinds b side n r.groups y (due.obstruction (b.sectionEntry n).lineOf)
      rw [hes] at hkinds
      refine (ofKinds_self hkinds).trans ?_
      have hcleared : (if clearsObstruction y (sideOrigin side) r.groups then [(EventKind.obstructionCleared, line.code, n)] else []) =
          if clears then [(.obstructionCleared, line.code, n)] else [] := if_congr hclears.symm rfl rfl
      have hmisrepeated : (if misrepeats y (sideOrigin side) r.groups then [(EventKind.codeMisrepeated, n, code)] else []) =
          if awaiting ∧ y.origin ≠ some origin ∧ y.pattern ≠ r.groups then [(.codeMisrepeated, n, code)] else [] :=
        if_congr hmis.symm rfl rfl
      have hunrepeated : (if y.awaiting = true ∧ y.origin = some (sideOrigin side) then
            [(EventKind.codeUnrepeated, n, patternCode y.pattern)] else []) =
          if awaiting ∧ y.origin = some origin then [(.codeUnrepeated, n, patternCode y.pattern)] else [] :=
        if_congr (by rw [hawaiting, horigin]) rfl rfl
      have hset : (if setsObstruction b side r.groups ∧ s.obstruction line = false then
            [(EventKind.obstructionSet, line.code, n)] else []) =
          if side = .incoming ∧ cls = .obstruction ∧ s.obstruction line = false then [(.obstructionSet, line.code, n)] else [] :=
        if_congr (by rw [hsets, and_assoc]) rfl rfl
      rw [← hes, hobs]
      unfold codeEvents
      dsimp only
      rw [hcleared, hmisrepeated, hunrepeated, hset]
      cases side <;> rfl
    · rw [hfinal, hxrec, modifyRecogniser_recognisers, hrecog]
    · intro z hz
      rw [hfinal, hxrec, modifyRecogniser_other _ hz, hrecog]
    · intro m hm
      rw [hfex, hxex, recAt_modifyRec, if_neg hm]
    · intro z hz
      rw [hfobs, hx, raiseAll_obstruction, obstructionMoved_other _ hz]
      exact hidle z
    · rw [hfex, hxex, hself, ← hf, codeExchange, if_pos (hreps.1 h)]
      rfl
    · have hm := hmis.1 ⟨ha, ho, hp⟩
      rw [hfex, hxex, hself, ← hf, codeExchange, if_neg (fun h => hm.2.2 h.2.2), if_pos hm, hnew]
    · have hno : ¬ repeats y (sideOrigin side) r.groups ∧ ¬ misrepeats y (sideOrigin side) r.groups := by
        rw [hawaiting, horigin] at h
        rcases h with h | h
        · exact ⟨fun hr => h hr.1, fun hr => h hr.1⟩
        · exact ⟨fun hr => hr.2.1 h, fun hr => hr.2.1 h⟩
      rw [hfex, hxex, hself, ← hf, codeExchange, if_neg hno.1, if_neg hno.2, hnew]
    · rw [hfobs, hx, raiseAll_obstruction, obstructionMoved_self, hidle, ← hv, hobs]
      unfold codeObstruction
      by_cases hset : side = .incoming ∧ cls = .obstruction
      · rw [if_pos (hsets.2 hset), if_pos hset]
        cases s.obstruction (b.sectionEntry n).lineOf <;> rfl
      · rw [if_neg (mt hsets.1 hset), if_neg hset]
        by_cases hc : clears
        · rw [if_pos (hclears.1 hc), if_pos hc]
          rfl
        · rw [if_neg (mt hclears.2 hc), if_neg hc]
          rfl

end Sys2Proof.Machine
end

section
/-! PROOF. What a bank that passes CHECK_BANK satisfies (R19, R37, R102, R103, R118, R164). -/

namespace Sys2Proof.Machine

/-! ### Checks that find nothing -/

theorem firstOf_none {c : Option CheckFailure} {cs : List (Option CheckFailure)} (h : firstOf (c :: cs) = none) :
    c = none ∧ firstOf cs = none := by
  have hall := List.findSome?_eq_none_iff.1 h
  exact ⟨hall c List.mem_cons_self, List.findSome?_eq_none_iff.2 fun x hx => hall x (List.mem_cons_of_mem c hx)⟩

theorem firstOver_none {ns : List Nat} {f : Nat → Option CheckFailure} (h : firstOver ns f = none) : ∀ n ∈ ns, f n = none :=
  List.findSome?_eq_none_iff.1 h

theorem faultIf_none {p : Bool} {f : CheckFailure} (h : faultIf p f = none) : p = false := by
  cases p
  · rfl
  · cases h

/-! ### The roster (R19) -/

/-- No assignment that ROSTER_DUP looks at occurs twice (R19). -/
theorem duplicated_none {l : List (UnitKind × Nat × Nat)} {seen : List (UnitKind × Nat)} (h : duplicated seen l = none) :
    (l.map fun x => (x.1, x.2.1)).Nodup ∧ ∀ x ∈ l, (x.1, x.2.1) ∉ seen := by
  induction l generalizing seen with
  | nil => exact ⟨List.nodup_nil, fun _ hx => by cases hx⟩
  | cons x l ih =>
    obtain ⟨k, n, a⟩ := x
    unfold duplicated at h
    split at h
    · cases h
    · next hnot =>
      obtain ⟨hnodup, hnone⟩ := ih h
      have hseen : (k, n) ∉ seen := by simpa using hnot
      refine ⟨?_, fun x hx => ?_⟩
      · rw [List.map_cons, List.nodup_cons]
        refine ⟨fun hmem => ?_, hnodup⟩
        obtain ⟨y, hy, hyx⟩ := List.mem_map.1 hmem
        exact hnone y hy (hyx ▸ List.mem_cons_self)
      · rcases List.mem_cons.1 hx with rfl | hx
        · exact hseen
        · exact fun hs => hnone x hx (List.mem_cons_of_mem _ hs)

/-- What the checks of the roster leave (R19). -/
structure RosterChecked (b : Bank) : Prop where
  nodup : (addresses.flatMap fun a => (b.assignedChannels a).map fun p => (b.kindAt a, p.2)).Nodup
  terminal : (addresses.filter fun a => b.kindAt a = .mt).length = 1

theorem checkRoster_none {b : Bank} (h : checkRoster b = none) : RosterChecked b := by
  obtain ⟨-, h⟩ := firstOf_none h
  obtain ⟨hdup, h⟩ := firstOf_none h
  have hone := faultIf_none (firstOf_none h).1
  refine ⟨?_, by simpa using hone⟩
  have := (duplicated_none hdup).1
  unfold assignments at this
  rwa [List.map_flatMap, show (fun a => ((b.assignedChannels a).map fun p => (b.kindAt a, p.2, a)).map fun x => (x.1, x.2.1)) =
      fun a => (b.assignedChannels a).map fun p => (b.kindAt a, p.2) from funext fun a => List.map_map ..] at this

/-- An object is served by one channel of one unit of its kind (R19). -/
theorem RosterChecked.served_once {b : Bank} (h : RosterChecked b) {a a' c c' n : Nat} (hk : b.kindAt a = b.kindAt a')
    (ha : a ∈ addresses) (ha' : a' ∈ addresses) (hc : (c, n) ∈ b.assignedChannels a) (hc' : (c', n) ∈ b.assignedChannels a') :
    a = a' ∧ c = c' := by
  obtain ⟨hown, hapart⟩ := List.nodup_flatMap.1 h.nodup
  have haa : a = a' := by
    by_contra hne
    have : Std.Symm (Function.onFun List.Disjoint fun a => (b.assignedChannels a).map fun p => (b.kindAt a, p.2)) :=
      ⟨fun _ _ (hxy : List.Disjoint _ _) => hxy.symm⟩
    have hdisjoint : List.Disjoint _ _ := hapart.forall ha ha' hne
    exact hdisjoint (List.mem_map_of_mem (f := fun p => (b.kindAt a, p.2)) hc)
      (hk ▸ List.mem_map_of_mem (f := fun p => (b.kindAt a', p.2)) hc')
  subst haa
  have := List.inj_on_of_nodup_map (hown a ha) hc hc' rfl
  exact ⟨rfl, congrArg Prod.fst this⟩

theorem RosterChecked.channels_nodup {b : Bank} (h : RosterChecked b) {a : Nat} (ha : a ∈ addresses) :
    ((b.assignedChannels a).map Prod.snd).Nodup := by
  have hown := (List.nodup_flatMap.1 h.nodup).1 a ha
  rw [show (fun p : Nat × Nat => (b.kindAt a, p.2)) = Prod.mk (b.kindAt a) ∘ Prod.snd from rfl, ← List.map_map] at hown
  exact hown.of_map _

theorem mem_objects {b : Bank} {k : UnitKind} {n : Nat} (h : b.defined k n = true) : n ∈ b.objects k := by
  have hrange : 1 ≤ n ∧ n ≤ k.objects := by
    unfold Bank.defined Bank.assignment at h
    by_contra hn
    rw [if_neg hn] at h
    cases h
  exact List.mem_filter.2 ⟨List.mem_range'_1.2 (by omega), h⟩

/-! ### The other tables -/

theorem checkTiming_none {t : Timing} (h : checkTiming t = none) : t.tg.toNat < t.te.toNat := by
  obtain ⟨-, h⟩ := firstOf_none h
  obtain ⟨-, h⟩ := firstOf_none h
  obtain ⟨-, h⟩ := firstOf_none h
  simpa using faultIf_none (firstOf_none h).1

theorem checkTrack_none {b : Bank} {t : Nat} (h : checkTrack b t = none) :
    (b.trackEntry t).d.toNat < (b.trackEntry t).p.toNat ∧ 1 ≤ (b.trackEntry t).fmin.toNat ∧ (b.trackEntry t).k.toNat ≤ 4 := by
  have hfaulty := faultIf_none (firstOf_none h).1
  unfold thresholdsFaulty at hfaulty
  simp only [Bool.or_eq_false_iff, decide_eq_false_iff_not, Nat.not_le, Nat.not_lt] at hfaulty
  obtain ⟨⟨⟨⟨⟨⟨⟨hp, hfmin⟩, -⟩, -⟩, -⟩, -⟩, hk⟩, -⟩ := hfaulty
  refine ⟨hp, ?_, hk⟩
  by_contra hzero
  exact hfmin (BitVec.eq_of_toNat_eq (by simpa using Nat.lt_one_iff.1 (Nat.not_le.1 hzero)))

/-- What the checks of a lever's lists leave (R100, R102). -/
theorem checkLever_none {b : Bank} {n : Nat} (h : checkLever b n = none) :
    rangeFaulty 16 (b.leverEntry n).reverseList = false ∧
    (LeverKind.ofByte (b.leverEntry n).kind = .signal → (b.leverEntry n).normalList.count = 0) := by
  obtain ⟨-, h⟩ := firstOf_none h
  obtain ⟨hrange, h⟩ := firstOf_none h
  obtain ⟨-, h⟩ := firstOf_none h
  obtain ⟨-, h⟩ := firstOf_none h
  obtain ⟨-, h⟩ := firstOf_none h
  obtain ⟨-, h⟩ := firstOf_none h
  have hsignal := faultIf_none (firstOf_none h).1
  refine ⟨faultIf_none hrange, fun hkind => ?_⟩
  simpa [hkind] using hsignal

/-- An entry that a checked range covers stands in the pool (R100). -/
theorem covered_index {b : Bank} {limit : Nat} {r : ListRange} (h : rangeFaulty limit r = false) {p : Nat × PoolEntry}
    (hp : p ∈ b.covered r) : p.1 < 512 ∧ p.2 = b.pool.getD p.1 default := by
  obtain ⟨i, hi, rfl⟩ := List.mem_map.1 hp
  rw [List.mem_range'_1] at hi
  refine ⟨?_, rfl⟩
  simp only [rangeFaulty, Bool.or_eq_false_iff, decide_eq_false_iff_not, Bool.and_eq_false_iff, Nat.not_lt] at h
  rcases h.2 with hzero | hend
  · have hcount : r.count = 0 := by simpa using hzero
    rw [hcount] at hi
    simp at hi
    omega
  · dsimp only
    omega

/-- The lever that LEVER_NORMAL of a pool entry names is defined (R95, R101). -/
theorem checkPoolEntry_none {b : Bank} {i : Nat} (h : checkPoolEntry b i = none) (hkind : (b.pool.getD i default).kind = 1) :
    b.defined .lfu (b.pool.getD i default).object.toNat = true := by
  obtain ⟨-, h⟩ := firstOf_none h
  have hnamed := (firstOf_none h).1
  rw [Option.map_eq_none_iff, List.find?_eq_none] at hnamed
  have := hnamed (.lfu, (b.pool.getD i default).object.toNat) (by rw [named, if_pos (.inl hkind)]; exact List.mem_singleton.2 rfl)
  simpa using this

/-- Where a reverse list covers LEVER_NORMAL of another lever, that one's covers LEVER_NORMAL of the first (R103). -/
theorem checkReciprocal_none {b : Bank} {n : Nat} (h : checkReciprocal b n = none) {p : Nat × PoolEntry}
    (hp : p ∈ b.covered (b.leverEntry n).reverseList) (hkind : p.2.kind = 1) :
    ∃ q ∈ b.covered (b.leverEntry p.2.object.toNat).reverseList, q.2.kind = 1 ∧ q.2.object.toNat = n := by
  unfold checkReciprocal at h
  rw [Option.map_eq_none_iff, List.find?_eq_none] at h
  have hcovers : coversNormal b p.2.object.toNat n = true := by simpa [hkind] using h p hp
  obtain ⟨q, hq, hqn⟩ := List.any_eq_true.1 hcovers
  refine ⟨q, hq, ?_⟩
  simpa using hqn

/-- Settles O45. -/
theorem checkedBankIsSound : Obligations.CheckedBankIsSound := by
  unfold Obligations.CheckedBankIsSound
  intro b h
  obtain ⟨hroster, h⟩ := firstOf_none h
  obtain ⟨-, h⟩ := firstOf_none h
  obtain ⟨-, h⟩ := firstOf_none h
  obtain ⟨htiming, h⟩ := firstOf_none h
  obtain ⟨-, h⟩ := firstOf_none h
  obtain ⟨htracks, h⟩ := firstOf_none h
  obtain ⟨-, h⟩ := firstOf_none h
  obtain ⟨-, h⟩ := firstOf_none h
  obtain ⟨-, h⟩ := firstOf_none h
  obtain ⟨hpool, hlocking⟩ := firstOf_none (firstOf_none h).1
  obtain ⟨hlevers, hlocking⟩ := firstOf_none hlocking
  obtain ⟨-, hlocking⟩ := firstOf_none hlocking
  have hreciprocal := (firstOf_none hlocking).1
  have hchecked := checkRoster_none hroster
  have htrack : ∀ t, b.defined .tu t = true → _ := fun t ht => checkTrack_none (firstOver_none htracks t (mem_objects ht))
  have hlever : ∀ l, b.defined .lfu l = true → _ := fun l hl => checkLever_none (firstOver_none hlevers l (mem_objects hl))
  refine ⟨⟨fun a ha _ => hchecked.channels_nodup ha, fun t ht => (htrack t ht).1⟩, hchecked.terminal,
    checkTiming_none htiming, fun a c a' c' n hk ha ha' hc hc' => hchecked.served_once hk ha ha' hc hc',
    fun t ht => (htrack t ht).2, fun l hl => (hlever l hl).2, fun l hl p hp hkind => ⟨?_, ?_⟩⟩
  · obtain ⟨hindex, hentry⟩ := covered_index (hlever l hl).1 hp
    rw [hentry] at hkind ⊢
    exact checkPoolEntry_none (firstOver_none hpool p.1 (List.mem_range.2 hindex)) hkind
  · exact checkReciprocal_none (firstOver_none hreciprocal l (mem_objects hl)) hp hkind

end Sys2Proof.Machine
end

section
/-! PROOF. Table entries: the layouts of 13.1 read back what was loaded (R163, R180). -/

namespace Sys2Proof.Machine

/-! ### Numbers in fields -/

/-- Digits in base `b`, the highest first, as one number. -/
def digitsValue (b : Nat) (ds : List Nat) : Nat := ds.foldl (fun acc d => acc * b + d) 0

theorem digitsValue_concat (b : Nat) (ds : List Nat) (d : Nat) : digitsValue b (ds ++ [d]) = digitsValue b ds * b + d := by
  simp [digitsValue]

/-- The `k` lowest digits of a number in base `b`, the highest first. -/
def digitsOf (b k n : Nat) : List Nat := (List.range k).map fun i => n / b ^ (k - 1 - i) % b

theorem digitsOf_succ (b k n : Nat) : digitsOf b (k + 1) n = digitsOf b k (n / b) ++ [n % b] := by
  unfold digitsOf
  rw [List.range_succ, List.map_append, List.map_singleton]
  congr 1
  · refine List.map_congr_left fun i hi => ?_
    have hk : k + 1 - 1 - i = (k - 1 - i) + 1 := by
      have := List.mem_range.1 hi
      omega
    rw [hk, Nat.pow_succ, Nat.mul_comm, Nat.div_div_eq_div_mul]
  · simp

theorem digitsValue_digitsOf (b k n : Nat) : digitsValue b (digitsOf b k n) = n % b ^ k := by
  induction k generalizing n with
  | zero => simp [digitsOf, digitsValue, Nat.mod_one]
  | succ k ih =>
    rw [digitsOf_succ, digitsValue_concat, ih, Nat.pow_succ, Nat.mul_comm (b ^ k) b, Nat.mod_mul, Nat.mul_comm b]
    exact Nat.add_comm _ _

theorem digitsOf_digitsValue {b : Nat} {ds : List Nat} (h : ∀ d ∈ ds, d < b) : digitsOf b ds.length (digitsValue b ds) = ds := by
  induction ds using List.reverseRecOn with
  | nil => rfl
  | append_singleton ds d ih =>
    have hd : d < b := h d (by simp)
    have hpos : 0 < b := by omega
    rw [List.length_append, List.length_singleton, digitsOf_succ, digitsValue_concat, Nat.mul_add_mod_self_right,
      Nat.mod_eq_of_lt hd, Nat.mul_comm, Nat.mul_add_div hpos, Nat.div_eq_of_lt hd, Nat.add_zero,
      ih fun x hx => h x (List.mem_append_left _ hx)]

theorem digitsValue_lt {b : Nat} {ds : List Nat} (h : ∀ d ∈ ds, d < b) : digitsValue b ds < b ^ ds.length := by
  have hround := digitsValue_digitsOf b ds.length (digitsValue b ds)
  rw [digitsOf_digitsValue h] at hround
  rcases Nat.eq_zero_or_pos b with rfl | hb
  · cases ds with
    | nil => simp [digitsValue]
    | cons d ds => exact absurd (h d (by simp)) (Nat.not_lt_zero _)
  · rw [hround]
    exact Nat.mod_lt _ (Nat.pow_pos hb)

theorem foldl_toNat {w : Nat} (m : Nat) (l : List (BitVec w)) :
    l.foldl (fun acc x => acc * m + x.toNat) 0 = digitsValue m (l.map BitVec.toNat) := by
  rw [digitsValue, List.foldl_map]

/-- The sixteen fields of 7 bits hold the 14 bytes that they are packed in (13.1). -/
theorem packChannels_unpackChannels {bs : List Byte} (h : bs.length = 14) : packChannels (unpackChannels bs) = bs := by
  let n := digitsValue 256 (bs.map BitVec.toNat)
  have hbyte : ∀ d ∈ bs.map BitVec.toNat, d < 256 := by
    intro d hd
    obtain ⟨x, -, rfl⟩ := List.mem_map.1 hd
    exact x.isLt
  have hlength : (bs.map BitVec.toNat).length = 14 := by rw [List.length_map, h]
  have hn : n < 256 ^ 14 := hlength ▸ digitsValue_lt hbyte
  have hfields : (unpackChannels bs).map BitVec.toNat = digitsOf 128 16 n := by
    unfold unpackChannels digitsOf
    rw [foldl_toNat, List.map_map]
    refine List.map_congr_left fun i _ => ?_
    simp only [Function.comp, BitVec.toNat_ofNat, Nat.pow_mul, n]
  have hvalue : (unpackChannels bs).foldl (fun acc c => acc * 128 + c.toNat) 0 = n := by
    rw [foldl_toNat, hfields, digitsValue_digitsOf, Nat.mod_eq_of_lt]
    exact hn
  have hback : (packChannels (unpackChannels bs)).map BitVec.toNat = bs.map BitVec.toNat := by
    unfold packChannels
    rw [hvalue, List.map_map, ← digitsOf_digitsValue hbyte, hlength]
    refine List.map_congr_left fun i _ => ?_
    simp only [Function.comp, BitVec.toNat_ofNat, Nat.pow_mul, n]
  exact List.map_injective_iff.2 (fun _ _ => BitVec.eq_of_toNat_eq) hback

theorem extractLsb'_append_high {n : Nat} (v : BitVec n) (x : Byte) (k : Nat) :
    (v ++ x).extractLsb' (k + 8) 8 = v.extractLsb' k 8 := by
  rw [BitVec.extractLsb'_append_eq_of_le (Nat.le_add_left 8 k), Nat.add_sub_cancel]

theorem be16_append (x y : Byte) : be16 (x ++ y) = [x, y] := by
  unfold be16
  rw [BitVec.extractLsb'_append_eq_left, BitVec.extractLsb'_append_eq_right]

theorem be32_append (x y z w : Byte) : be32 (x ++ y ++ z ++ w) = [x, y, z, w] := by
  unfold be32
  rw [extractLsb'_append_high _ w 16, extractLsb'_append_high _ w 8, extractLsb'_append_high _ w 0,
    BitVec.extractLsb'_append_eq_right, extractLsb'_append_high _ z 8, extractLsb'_append_high _ z 0,
    BitVec.extractLsb'_append_eq_right, BitVec.extractLsb'_append_eq_left, BitVec.extractLsb'_append_eq_right]

/-! ### One entry of each table -/

theorem roster_roundTrip {bs : List Byte} (h : bs.length = 20) :
    ∃ e, RosterEntry.decode bs = some e ∧ e.encode = bs ∧ e.channels.length = 16 := by
  obtain _ | ⟨k, _ | ⟨s3, _ | ⟨s2, _ | ⟨s1, _ | ⟨s0, _ | ⟨t, rest⟩⟩⟩⟩⟩⟩ := bs <;> simp only [List.length_cons, List.length_nil] at h <;>
    try omega
  have hrest : rest.length = 14 := by omega
  refine ⟨{ kind := k, serial := s3 ++ s2 ++ s1 ++ s0, timeout := t, channels := unpackChannels rest }, ?_, ?_, ?_⟩
  · rw [RosterEntry.decode, if_neg (by omega), List.take_of_length_le (by omega)]
  · simp only [RosterEntry.encode, be32_append, packChannels_unpackChannels hrest]
    rfl
  · simp [unpackChannels]

theorem track_roundTrip {bs : List Byte} (h : bs.length = 14) :
    ∃ e, TrackEntry.decode bs = some e ∧ e.encode = bs ∧ e.neighbours.length = 3 := by
  match bs, h with
  | [f1, f0, p1, p0, d1, d0, k, n1, n0, dl, pr, x, y, z], _ =>
    exact ⟨_, rfl, by simp only [TrackEntry.encode, be16_append]; rfl, rfl⟩

theorem lever_roundTrip {bs : List Byte} (h : bs.length = 10) :
    ∃ e, LeverEntry.decode bs = some e ∧ e.encode = bs ∧ e.approach.length = 2 := by
  match bs, h with
  | [k, r1, r0, rc, n1, n0, nc, x, y, t], _ =>
    exact ⟨_, rfl, by simp only [LeverEntry.encode, ListRange.encode, be16_append]; rfl, rfl⟩

theorem section_roundTrip {bs : List Byte} (h : bs.length = 13) :
    ∃ e, SectionEntry.decode bs = some e ∧ e.encode = bs ∧ e.arrivals.length = 3 := by
  match bs, h with
  | [l, c, d, s, x, a0, a1, a2, r1, r0, rc, w1, w0], _ =>
    exact ⟨_, rfl, by simp only [SectionEntry.encode, ListRange.encode, be16_append]; rfl, rfl⟩

theorem lamp_roundTrip {bs : List Byte} (h : bs.length = 4) : ∃ e, LampEntry.decode bs = some e ∧ e.encode = bs := by
  match bs, h with
  | [o1, o0, s1, s0], _ => exact ⟨_, rfl, by simp only [LampEntry.encode, be16_append]; rfl⟩

theorem diagram_roundTrip {bs : List Byte} (h : bs.length = 3) : ∃ e, DiagramEntry.decode bs = some e ∧ e.encode = bs := by
  match bs, h with
  | [s, o, g], _ => exact ⟨_, rfl, rfl⟩

theorem pool_roundTrip {bs : List Byte} (h : bs.length = 4) : ∃ e, PoolEntry.decode bs = some e ∧ e.encode = bs := by
  match bs, h with
  | [k, o, s, p], _ => exact ⟨_, rfl, rfl⟩

theorem bell_roundTrip {bs : List Byte} (h : bs.length = 4) : ∃ e, BellEntry.decode bs = some e ∧ e.encode = bs := by
  match bs, h with
  | [p1, p0, c, t], _ => exact ⟨_, rfl, by simp only [BellEntry.encode, be16_append]; rfl⟩

theorem lineSettings_roundTrip {bs : List Byte} (h : bs.length = 4) : ∃ e, LineSettings.decode bs = some e ∧ e.encode = bs := by
  match bs, h with
  | [r1, r0, x, l], _ => exact ⟨_, rfl, by simp only [LineSettings.encode, be16_append]; rfl⟩

theorem timing_roundTrip {bs : List Byte} (h : bs.length = 4) : ∃ e, Timing.decode bs = some e ∧ e.encode = bs := by
  match bs, h with
  | [g, e1, e0, r], _ => exact ⟨_, rfl, by simp only [Timing.encode, be16_append]; rfl⟩

/-! ### Entries by number -/

theorem entryAt_setEntry_self {α : Type} [Inhabited α] {l : List α} {i : Nat} (h : 1 ≤ i ∧ i ≤ l.length) (x : α) :
    entryAt (setEntry l i x) i = x := by
  have hi : i ≠ 0 := by omega
  rw [entryAt, if_neg hi, setEntry, if_neg hi, List.getD_eq_getElem?_getD, List.getElem?_set_self (by omega), Option.getD_some]

theorem entryAt_setEntry_other {α : Type} [Inhabited α] {l : List α} {i j : Nat} (h : j ≠ i) (x : α) :
    entryAt (setEntry l i x) j = entryAt l j := by
  rw [setEntry]
  by_cases hi : i = 0
  · rw [if_pos hi]
  · rw [if_neg hi, entryAt, entryAt]
    by_cases hj : j = 0
    · rw [if_pos hj, if_pos hj]
    · rw [if_neg hj, if_neg hj, List.getD_eq_getElem?_getD, List.getD_eq_getElem?_getD, List.getElem?_set_ne (by omega)]

theorem setEntry_length {α : Type} (l : List α) (i : Nat) (x : α) : (setEntry l i x).length = l.length := by
  unfold setEntry
  split
  · rfl
  · exact List.length_set

theorem mem_setEntry {α : Type} {l : List α} {i : Nat} {x y : α} (h : y ∈ setEntry l i x) : y ∈ l ∨ y = x := by
  unfold setEntry at h
  split at h
  · exact .inl h
  · exact List.mem_or_eq_of_mem_set h

/-! ### The bank with an entry written -/

/-- The lists of a bank have the places of 13.1. -/
structure BankFormed (b : Bank) : Prop where
  roster : b.roster.length = 31
  channels : ∀ e ∈ b.roster, e.channels.length = 16
  tracks : b.tracks.length = 24
  neighbours : ∀ e ∈ b.tracks, e.neighbours.length = 3
  levers : b.levers.length = 48
  approach : ∀ e ∈ b.levers, e.approach.length = 2
  sections : b.sections.length = 4
  arrivals : ∀ e ∈ b.sections, e.arrivals.length = 3
  lamps : b.lamps.length = 16
  diagram : b.diagram.length = 64
  pool : b.pool.length = 512
  bells : b.bells.length = 32
  groups : b.groups.length = 5

theorem wf_iff (b : Bank) : b.wf = true ↔ BankFormed b := by
  unfold Bank.wf
  simp only [Bool.and_eq_true, beq_iff_eq, List.all_eq_true]
  exact ⟨fun ⟨⟨⟨⟨⟨⟨⟨⟨⟨⟨⟨⟨h1, h2⟩, h3⟩, h4⟩, h5⟩, h6⟩, h7⟩, h8⟩, h9⟩, h10⟩, h11⟩, h12⟩, h13⟩ =>
    ⟨h1, h2, h3, h4, h5, h6, h7, h8, h9, h10, h11, h12, h13⟩,
    fun ⟨h1, h2, h3, h4, h5, h6, h7, h8, h9, h10, h11, h12, h13⟩ =>
    ⟨⟨⟨⟨⟨⟨⟨⟨⟨⟨⟨⟨h1, h2⟩, h3⟩, h4⟩, h5⟩, h6⟩, h7⟩, h8⟩, h9⟩, h10⟩, h11⟩, h12⟩, h13⟩⟩

/-- Entry `i` of class `c` of a bank is written as `bs`, and nothing else of it. -/
def EntryWritten (b : Bank) (c : RecordClass) (i : Nat) (bs : List Byte) : Prop :=
  ∃ b' : Bank, b.loadEntry c i bs = some b' ∧ b'.wf = true ∧ b'.edition = b.edition ∧ b'.encodeEntry c i = some bs ∧
    ∀ d j, d.indexOk j = true → (d ≠ c ∨ j ≠ i) → b'.encodeEntry d j = b.encodeEntry d j

theorem EntryWritten.of {b b' : Bank} {c : RecordClass} {i : Nat} {bs : List Byte} (hload : b.loadEntry c i bs = some b')
    (hformed : BankFormed b') (hedition : b'.edition = b.edition) (hsame : b'.encodeEntry c i = some bs)
    (hother : ∀ j, c.indexOk j = true → j ≠ i → b'.encodeEntry c j = b.encodeEntry c j)
    (hclass : ∀ d, d ≠ c → b'.encodeEntry d = b.encodeEntry d) : EntryWritten b c i bs := by
  refine ⟨b', hload, (wf_iff _).2 hformed, hedition, hsame, fun d j hj hne => ?_⟩
  by_cases hd : d = c
  · subst hd
    exact hother j hj (hne.resolve_left fun h => h rfl)
  · rw [hclass d hd]

theorem entryWritten_roster {b : Bank} {i : Nat} {bs : List Byte} (hb : BankFormed b) (hi : 1 ≤ i ∧ i ≤ 31)
    (h : bs.length = 20) : EntryWritten b .roster i bs := by
  obtain ⟨e, hdecode, hencode, hplaces⟩ := roster_roundTrip h
  refine .of (b' := { b with roster := setEntry b.roster i e }) (by simp only [Bank.loadEntry, hdecode, Option.map_some])
    { hb with roster := (setEntry_length ..).trans hb.roster, channels := fun x hx => (mem_setEntry hx).elim (hb.channels x) fun h => h ▸ hplaces } rfl ?_ (fun j _ hj => ?_) fun d hd => ?_
  · simp only [Bank.encodeEntry, entryAt_setEntry_self (hb.roster ▸ hi), hencode]
  · simp only [Bank.encodeEntry, entryAt_setEntry_other hj]
  · cases d
    case roster => exact absurd rfl hd
    all_goals rfl

theorem entryWritten_track {b : Bank} {i : Nat} {bs : List Byte} (hb : BankFormed b) (hi : 1 ≤ i ∧ i ≤ 24)
    (h : bs.length = 14) : EntryWritten b .trackTable i bs := by
  obtain ⟨e, hdecode, hencode, hplaces⟩ := track_roundTrip h
  refine .of (b' := { b with tracks := setEntry b.tracks i e }) (by simp only [Bank.loadEntry, hdecode, Option.map_some])
    { hb with tracks := (setEntry_length ..).trans hb.tracks, neighbours := fun x hx => (mem_setEntry hx).elim (hb.neighbours x) fun h => h ▸ hplaces } rfl ?_ (fun j _ hj => ?_) fun d hd => ?_
  · simp only [Bank.encodeEntry, entryAt_setEntry_self (hb.tracks ▸ hi), hencode]
  · simp only [Bank.encodeEntry, entryAt_setEntry_other hj]
  · cases d
    case trackTable => exact absurd rfl hd
    all_goals rfl

theorem entryWritten_lever {b : Bank} {i : Nat} {bs : List Byte} (hb : BankFormed b) (hi : 1 ≤ i ∧ i ≤ 48)
    (h : bs.length = 10) : EntryWritten b .leverTable i bs := by
  obtain ⟨e, hdecode, hencode, hplaces⟩ := lever_roundTrip h
  refine .of (b' := { b with levers := setEntry b.levers i e }) (by simp only [Bank.loadEntry, hdecode, Option.map_some])
    { hb with levers := (setEntry_length ..).trans hb.levers, approach := fun x hx => (mem_setEntry hx).elim (hb.approach x) fun h => h ▸ hplaces } rfl ?_ (fun j _ hj => ?_) fun d hd => ?_
  · simp only [Bank.encodeEntry, entryAt_setEntry_self (hb.levers ▸ hi), hencode]
  · simp only [Bank.encodeEntry, entryAt_setEntry_other hj]
  · cases d
    case leverTable => exact absurd rfl hd
    all_goals rfl

theorem entryWritten_section {b : Bank} {i : Nat} {bs : List Byte} (hb : BankFormed b) (hi : 1 ≤ i ∧ i ≤ 4)
    (h : bs.length = 13) : EntryWritten b .sectionTable i bs := by
  obtain ⟨e, hdecode, hencode, hplaces⟩ := section_roundTrip h
  refine .of (b' := { b with sections := setEntry b.sections i e }) (by simp only [Bank.loadEntry, hdecode, Option.map_some])
    { hb with sections := (setEntry_length ..).trans hb.sections, arrivals := fun x hx => (mem_setEntry hx).elim (hb.arrivals x) fun h => h ▸ hplaces } rfl ?_ (fun j _ hj => ?_) fun d hd => ?_
  · simp only [Bank.encodeEntry, entryAt_setEntry_self (hb.sections ▸ hi), hencode]
  · simp only [Bank.encodeEntry, entryAt_setEntry_other hj]
  · cases d
    case sectionTable => exact absurd rfl hd
    all_goals rfl

theorem entryWritten_lamp {b : Bank} {i : Nat} {bs : List Byte} (hb : BankFormed b) (hi : 1 ≤ i ∧ i ≤ 16)
    (h : bs.length = 4) : EntryWritten b .lampTable i bs := by
  obtain ⟨e, hdecode, hencode⟩ := lamp_roundTrip h
  refine .of (b' := { b with lamps := setEntry b.lamps i e }) (by simp only [Bank.loadEntry, hdecode, Option.map_some])
    { hb with lamps := (setEntry_length ..).trans hb.lamps } rfl ?_ (fun j _ hj => ?_) fun d hd => ?_
  · simp only [Bank.encodeEntry, entryAt_setEntry_self (hb.lamps ▸ hi), hencode]
  · simp only [Bank.encodeEntry, entryAt_setEntry_other hj]
  · cases d
    case lampTable => exact absurd rfl hd
    all_goals rfl

theorem entryWritten_diagram {b : Bank} {i : Nat} {bs : List Byte} (hb : BankFormed b) (hi : 1 ≤ i ∧ i ≤ 64)
    (h : bs.length = 3) : EntryWritten b .diagramTable i bs := by
  obtain ⟨e, hdecode, hencode⟩ := diagram_roundTrip h
  refine .of (b' := { b with diagram := setEntry b.diagram i e }) (by simp only [Bank.loadEntry, hdecode, Option.map_some])
    { hb with diagram := (setEntry_length ..).trans hb.diagram } rfl ?_ (fun j _ hj => ?_) fun d hd => ?_
  · simp only [Bank.encodeEntry, entryAt_setEntry_self (hb.diagram ▸ hi), hencode]
  · simp only [Bank.encodeEntry, entryAt_setEntry_other hj]
  · cases d
    case diagramTable => exact absurd rfl hd
    all_goals rfl

theorem entryWritten_bell {b : Bank} {i : Nat} {bs : List Byte} (hb : BankFormed b) (hi : 1 ≤ i ∧ i ≤ 32)
    (h : bs.length = 4) : EntryWritten b .bellCode i bs := by
  obtain ⟨e, hdecode, hencode⟩ := bell_roundTrip h
  refine .of (b' := { b with bells := setEntry b.bells i e }) (by simp only [Bank.loadEntry, hdecode, Option.map_some])
    { hb with bells := (setEntry_length ..).trans hb.bells } rfl ?_ (fun j _ hj => ?_) fun d hd => ?_
  · simp only [Bank.encodeEntry, entryAt_setEntry_self (hb.bells ▸ hi), hencode]
  · simp only [Bank.encodeEntry, entryAt_setEntry_other hj]
  · cases d
    case bellCode => exact absurd rfl hd
    all_goals rfl

theorem entryWritten_group {b : Bank} {i : Nat} {bs : List Byte} (hb : BankFormed b) (hi : 1 ≤ i ∧ i ≤ 5)
    (h : bs.length = 1) : EntryWritten b .group i bs := by
  obtain ⟨x, rfl⟩ := List.length_eq_one_iff.1 h
  refine .of (b' := { b with groups := setEntry b.groups i x }) rfl
    { hb with groups := (setEntry_length ..).trans hb.groups } rfl ?_ (fun j _ hj => ?_) fun d hd => ?_
  · simp only [Bank.encodeEntry, entryAt_setEntry_self (hb.groups ▸ hi)]
  · simp only [Bank.encodeEntry, entryAt_setEntry_other hj]
  · cases d
    case group => exact absurd rfl hd
    all_goals rfl

theorem entryWritten_pool {b : Bank} {i : Nat} {bs : List Byte} (hb : BankFormed b) (hi : i ≤ 511)
    (h : bs.length = 4) : EntryWritten b .pool i bs := by
  obtain ⟨e, hdecode, hencode⟩ := pool_roundTrip h
  have hlength : i < b.pool.length := by
    have := hb.pool
    omega
  refine .of (b' := { b with pool := b.pool.set i e }) (by simp only [Bank.loadEntry, hdecode, Option.map_some])
    { hb with pool := List.length_set.trans hb.pool } rfl ?_ (fun j _ hj => ?_) fun d hd => ?_
  · simp only [Bank.encodeEntry, List.getD_eq_getElem?_getD, List.getElem?_set_self hlength, Option.getD_some, hencode]
  · simp only [Bank.encodeEntry, List.getD_eq_getElem?_getD, List.getElem?_set_ne (Ne.symm hj)]
  · cases d
    case pool => exact absurd rfl hd
    all_goals rfl

theorem entryWritten_timing {b : Bank} {i : Nat} {bs : List Byte} (hb : BankFormed b) (hi : i = 0)
    (h : bs.length = 4) : EntryWritten b .timing i bs := by
  obtain ⟨e, hdecode, hencode⟩ := timing_roundTrip h
  refine .of (b' := { b with timing := e }) (by simp only [Bank.loadEntry, hdecode, Option.map_some])
    { hb with } rfl ?_ (fun j hj hne => ?_) fun d hd => ?_
  · simp only [Bank.encodeEntry, hencode]
  · exact absurd ((of_decide_eq_true hj).trans hi.symm) hne
  · cases d
    case timing => exact absurd rfl hd
    all_goals rfl

theorem entryWritten_lineSettings {b : Bank} {i : Nat} {bs : List Byte} (hb : BankFormed b) (hi : i ≤ 1)
    (h : bs.length = 4) : EntryWritten b .lineSettings i bs := by
  obtain ⟨e, hdecode, hencode⟩ := lineSettings_roundTrip h
  refine .of (b' := if i = 0 then { b with lineA := e } else { b with lineB := e })
    (by simp only [Bank.loadEntry, hdecode, Option.map_some]) ?_ ?_ ?_ (fun j hj hne => ?_) fun d hd => ?_
  · split
    · exact { hb with }
    · exact { hb with }
  · split <;> rfl
  · simp only [Bank.encodeEntry]
    split <;> exact congrArg some hencode
  · have hj' : j ≤ 1 := of_decide_eq_true hj
    simp only [Bank.encodeEntry]
    rcases Nat.le_one_iff_eq_zero_or_eq_one.1 hi with rfl | rfl
    · rw [if_neg hne, if_pos rfl, if_neg hne]
    · rw [if_pos (by omega), if_neg (by omega), if_pos (by omega)]
  · cases d
    case lineSettings => exact absurd rfl hd
    all_goals (split <;> rfl)

/-- Settles O60, table by table: the fields of an entry are read off its bytes and sent back as they stand, and an entry
written by its number leaves the others. -/
theorem tableEntriesRoundTrip : Obligations.TableEntriesRoundTrip := by
  unfold Obligations.TableEntriesRoundTrip
  intro b c i bs hwf hcode hindex hlength
  have hb := (wf_iff b).1 hwf
  cases c
  case roster => exact entryWritten_roster hb (of_decide_eq_true hindex) hlength
  case trackTable => exact entryWritten_track hb (of_decide_eq_true hindex) hlength
  case leverTable => exact entryWritten_lever hb (of_decide_eq_true hindex) hlength
  case sectionTable => exact entryWritten_section hb (of_decide_eq_true hindex) hlength
  case lampTable => exact entryWritten_lamp hb (of_decide_eq_true hindex) hlength
  case diagramTable => exact entryWritten_diagram hb (of_decide_eq_true hindex) hlength
  case pool => exact entryWritten_pool hb (of_decide_eq_true hindex) hlength
  case bellCode => exact entryWritten_bell hb (of_decide_eq_true hindex) hlength
  case lineSettings => exact entryWritten_lineSettings hb (of_decide_eq_true hindex) hlength
  case timing => exact entryWritten_timing hb (of_decide_eq_true hindex) hlength
  case group => exact entryWritten_group hb (of_decide_eq_true hindex) hlength
  all_goals exact absurd hcode (by decide)

end Sys2Proof.Machine
end

section
/-! PROOF. The records as READ_RECORD answers them: their lengths and their markers (R162, 13.1). -/

namespace Sys2Proof.Machine

/-! ### Lengths -/

@[simp] theorem be16_length (x : BitVec 16) : (be16 x).length = 2 := rfl
@[simp] theorem be32_length (x : BitVec 32) : (be32 x).length = 4 := rfl
@[simp] theorem b2_length (n : Nat) : (b2 n).length = 2 := rfl
@[simp] theorem timeBytes_length (t : Option Time) : (timeBytes t).length = 4 := rfl

@[simp] theorem timerBytes_length (now : Time) (t : Option Time) : (timerBytes now t).length = 2 := by
  unfold timerBytes
  split
  · split <;> rfl
  · rfl

@[simp] theorem gapBytes_length (now : Time) (r : LineRec) : (gapBytes now r).length = 2 := by
  unfold gapBytes
  split <;> rfl

theorem unitBytes_length {now : Time} {u : UnitRec} (h : u.faults.length = 16) : (unitBytes now u).length = 31 := by
  simp [unitBytes, h]

theorem checkBytes_length (c : CheckState) : (checkBytes c).length = 7 := by
  cases c <;> rfl

theorem bankStateBytes_length (s : State) : (bankStateBytes s).length = 16 := by
  unfold bankStateBytes
  cases s.active <;> simp [checkBytes_length]

theorem tripBytes_length (t : Option TripRec) : (tripBytes t).length = 10 := by
  cases t <;> rfl

theorem ListRange.encode_length (r : ListRange) : r.encode.length = 3 := rfl

theorem entryAt_mem {α : Type} [Inhabited α] {l : List α} {i : Nat} (h : 1 ≤ i ∧ i ≤ l.length) : entryAt l i ∈ l := by
  rw [entryAt, if_neg (by omega), List.getD_eq_getElem?_getD, List.getElem?_eq_getElem (by omega), Option.getD_some]
  exact List.getElem_mem _

/-- The entries of a bank have the lengths of their classes (13.1). -/
theorem encodeEntry_length {b : Bank} (hb : BankFormed b) {c : RecordClass} {i : Nat} (hi : c.indexOk i = true) {bs : List Byte}
    (h : b.encodeEntry c i = some bs) : bs.length = c.entryLength := by
  cases c
  case roster =>
    obtain rfl := Option.some.inj h
    simp [RosterEntry.encode, packChannels, RecordClass.entryLength]
  case trackTable =>
    obtain rfl := Option.some.inj h
    have hlist := hb.neighbours _ (entryAt_mem (hb.tracks ▸ of_decide_eq_true hi))
    simp [TrackEntry.encode, hlist, RecordClass.entryLength]
  case leverTable =>
    obtain rfl := Option.some.inj h
    have hlist := hb.approach _ (entryAt_mem (hb.levers ▸ of_decide_eq_true hi))
    simp [LeverEntry.encode, ListRange.encode_length, hlist, RecordClass.entryLength]
  case sectionTable =>
    obtain rfl := Option.some.inj h
    have hlist := hb.arrivals _ (entryAt_mem (hb.sections ▸ of_decide_eq_true hi))
    simp [SectionEntry.encode, ListRange.encode_length, hlist, RecordClass.entryLength]
  case lampTable | diagramTable | pool | bellCode | lineSettings | timing | group =>
    obtain rfl := Option.some.inj h
    rfl
  all_goals cases h

/-- A GROUP record adds the live intensity to its entry (R162). -/
theorem recordLength_of_table {c : RecordClass} (hc : 11 ≤ c.code) :
    recordLength c = c.entryLength + if c = .group then 1 else 0 := by
  revert hc
  cases c <;> decide

theorem bankRecord_length {s : State} (hwf : ∀ b, s.bank = some b → b.wf = true) {c : RecordClass} {i : Nat}
    (hi : c.indexOk i = true) (hc : 11 ≤ c.code) {r : Marker × List Byte} (h : bankRecord s c i = some r) :
    r.2.length = recordLength c := by
  unfold bankRecord at h
  split at h
  next b hb =>
    obtain ⟨bs, hbs, rfl⟩ := Option.map_eq_some_iff.1 h
    rw [recordLength_of_table hc, ← encodeEntry_length ((wf_iff b).1 (hwf b hb)) hi hbs]
    dsimp only
    split <;> simp
  next => cases h

theorem encodeEntry_isSome {c : RecordClass} (hc : 11 ≤ c.code) (b : Bank) (i : Nat) : ∃ bs, b.encodeEntry c i = some bs := by
  cases c
  case unit | track | lever | sectionRec | exchange | lamp | output | line | bankState | trip => exact absurd hc (by decide)
  all_goals exact ⟨_, rfl⟩

/-- The classes of the active bank read its entries. -/
theorem readRecord_table {c : RecordClass} (hc : 11 ≤ c.code) (s : State) (i : Nat) :
    readRecord s c i = orUndefined c (bankRecord s c i) := by
  cases c
  case unit | track | lever | sectionRec | exchange | lamp | output | line | bankState | trip => exact absurd hc (by decide)
  all_goals rfl

/-! ### Markers -/

theorem orUndefined_length {c : RecordClass} {r : Option (Marker × List Byte)}
    (h : ∀ x, r = some x → x.2.length = recordLength c) : (orUndefined c r).2.length = recordLength c := by
  cases r with
  | none => exact List.length_replicate
  | some x => exact h x rfl

theorem objectMarker_of_served {s : State} {k : UnitKind} {n : Nat}
    (h : ∃ b a c, s.bank = some b ∧ b.assignment k n = some (a, c) ∧ s.unitActive a = true) : objectMarker s k n = .current := by
  obtain ⟨b, a, c, hb, hassign, hactive⟩ := h
  unfold objectMarker
  rw [hb, Option.bind_some, hassign]
  exact if_pos hactive

theorem objectMarker_of_not_served {s : State} {k : UnitKind} {n : Nat}
    (h : ¬ ∃ b a c, s.bank = some b ∧ b.assignment k n = some (a, c) ∧ s.unitActive a = true) : objectMarker s k n = .stale := by
  unfold objectMarker
  split
  next a c hassign =>
    obtain ⟨b, hb, hassign⟩ := Option.bind_eq_some_iff.1 hassign
    exact if_neg fun hactive => h ⟨b, a, c, hb, hassign, hactive⟩
  next => rfl

/-- A record that is there reads with the marker of its object's unit, one that is not as undefined zeros. -/
theorem orUndefined_kept {α : Type} {s : State} {c : RecordClass} {k : UnitKind} {i : Nat} {r : Option α} {f : α → List Byte}
    {m : Marker × List Byte} (h : m = orUndefined c (r.map fun x => (objectMarker s k i, f x))) :
    let served := ∃ b a ch, s.bank = some b ∧ b.assignment k i = some (a, ch) ∧ s.unitActive a = true
    (r.isSome = true → (served → m.1 = .current) ∧ (¬ served → m.1 = .stale)) ∧
    (r.isSome = false → m.1 = .undefined ∧ m.2 = List.replicate (recordLength c) 0) := by
  subst h
  cases r with
  | none => exact ⟨fun h => Bool.noConfusion h, fun _ => ⟨rfl, rfl⟩⟩
  | some x => exact ⟨fun _ => ⟨objectMarker_of_served, objectMarker_of_not_served⟩, fun h => Bool.noConfusion h⟩

theorem orUndefined_plain {α : Type} {c : RecordClass} {r : Option α} {f : α → List Byte} {m : Marker × List Byte}
    (h : m = orUndefined c (r.map fun x => (Marker.current, f x))) :
    (r.isSome = true → m.1 = .current) ∧ (r.isSome = false → m.1 = .undefined ∧ m.2 = List.replicate (recordLength c) 0) := by
  subst h
  cases r with
  | none => exact ⟨fun h => Bool.noConfusion h, fun _ => ⟨rfl, rfl⟩⟩
  | some x => exact ⟨fun _ => rfl, fun h => Bool.noConfusion h⟩

theorem bankRecord_marked {c : RecordClass} (hc : 11 ≤ c.code) {s : State} {i : Nat} {m : Marker × List Byte}
    (h : m = orUndefined c (bankRecord s c i)) :
    (s.active.isSome = true → m.1 = .current) ∧
    (s.active.isSome = false → m.1 = .undefined ∧ m.2 = List.replicate (recordLength c) 0) := by
  subst h
  unfold bankRecord
  cases hactive : s.active with
  | none =>
    rw [show s.bank = none by simp [State.bank, hactive]]
    exact ⟨fun h => Bool.noConfusion h, fun _ => ⟨rfl, rfl⟩⟩
  | some img =>
    obtain ⟨bs, hbs⟩ := encodeEntry_isSome hc img.bank i
    rw [show s.bank = some img.bank by simp [State.bank, hactive]]
    dsimp only
    rw [hbs]
    exact ⟨fun _ => rfl, fun h => Bool.noConfusion h⟩

/-- Settles O43: what is read is there with its marker or is undefined zeros, and each layout has its length. -/
theorem recordsAreMarked : Obligations.RecordsAreMarked := by
  unfold Obligations.RecordsAreMarked
  intro s c i hindex hwf hfaults
  cases c
  case unit =>
    refine ⟨orUndefined_length fun x hx => ?_, orUndefined_plain rfl⟩
    obtain ⟨u, hu, rfl⟩ := Option.map_eq_some_iff.1 hx
    exact unitBytes_length (hfaults i u hu)
  case track =>
    refine ⟨orUndefined_length fun x hx => ?_, orUndefined_kept rfl⟩
    obtain ⟨r, -, rfl⟩ := Option.map_eq_some_iff.1 hx
    simp [trackBytes, recordLength]
  case lever =>
    refine ⟨orUndefined_length fun x hx => ?_, orUndefined_kept rfl⟩
    obtain ⟨r, -, rfl⟩ := Option.map_eq_some_iff.1 hx
    simp [leverBytes, recordLength]
  case sectionRec =>
    refine ⟨orUndefined_length fun x hx => ?_, orUndefined_kept rfl⟩
    obtain ⟨r, -, rfl⟩ := Option.map_eq_some_iff.1 hx
    rfl
  case exchange =>
    refine ⟨orUndefined_length fun x hx => ?_, orUndefined_plain rfl⟩
    obtain ⟨r, -, rfl⟩ := Option.map_eq_some_iff.1 hx
    simp [exchangeBytes, recordLength]
  case lamp =>
    refine ⟨orUndefined_length fun x hx => ?_, orUndefined_kept rfl⟩
    obtain ⟨r, -, rfl⟩ := Option.map_eq_some_iff.1 hx
    rfl
  case output =>
    refine ⟨orUndefined_length fun x hx => ?_, orUndefined_kept rfl⟩
    obtain ⟨r, -, rfl⟩ := Option.map_eq_some_iff.1 hx
    rfl
  case line => exact ⟨by simp [readRecord, orUndefined, lineBytes, recordLength], rfl⟩
  case bankState => exact ⟨bankStateBytes_length s, rfl⟩
  case trip => exact ⟨tripBytes_length s.trip, rfl⟩
  all_goals
    exact ⟨orUndefined_length fun x hx => bankRecord_length hwf hindex (by decide) hx, bankRecord_marked (by decide) rfl⟩

end Sys2Proof.Machine
end

section
/-! PROOF. The start timer, the end of a store operation, and the requests that reach for a unit or a track. -/

namespace Sys2Proof.Machine

/-! ### The start timer -/

/-- The event of a lamp whose alarm is brought into agreement (R152). -/
def agreementEvents (p : Nat × LampRec) : List (EventKind × Nat × Nat) :=
  alarmEvents p.1 (agreed p.2) (alarmAgree p.2.alarm p.2.state).2

theorem alarmsAgree_raised {s t : State} {new : List (EventKind × Nat × Nat)} (h : Raised s t new) :
    Raised s (alarmsAgree t) (new ++ t.lamps.flatMap agreementEvents) := by
  have hover : ∀ (l : Recs LampRec) (x : State) (new : List (EventKind × Nat × Nat)), Raised s x new →
      Raised s (l.foldl (fun s p => raiseAlarm (modifyLamp s p.1 fun r => { r with alarm := (alarmAgree p.2.alarm p.2.state).1 }) p.1
        p.2.state (alarmAgree p.2.alarm p.2.state).1 (alarmAgree p.2.alarm p.2.state).2) x) (new ++ l.flatMap agreementEvents) := by
    intro l
    induction l with
    | nil => exact fun x new hx => by simpa using hx
    | cons p l ih =>
      intro x new hx
      rw [List.foldl_cons, List.flatMap_cons, ← List.append_assoc]
      refine ih _ _ ?_
      have hlamp : Raised s (modifyLamp x p.1 fun r => { r with alarm := (alarmAgree p.2.alarm p.2.state).1 }) new :=
        hx.congr rfl rfl rfl
      exact raiseAlarm_eq _ p.1 (agreed p.2) _ ▸ hlamp.raiseAll (agreementEvents p)
  exact hover t.lamps t new h

theorem flatMap_agreementEvents (l : Recs LampRec) :
    l.flatMap agreementEvents = l.filterMap fun p => match p.2.state, p.2.alarm with
      | .lit, .alarm => some (EventKind.lampRecovered, p.1, Alarm.recovered.code)
      | .lit, .accepted => some (.lampRecovered, p.1, Alarm.quiet.code)
      | .lit, _ => none
      | x, .quiet => some (.lampFault, p.1, x.code)
      | x, .recovered => some (.lampFault, p.1, x.code)
      | _, _ => none := by
  rw [List.filterMap_eq_flatMap_toList]
  refine congrFun (congrArg _ (funext fun ⟨n, st, _, _, al⟩ => ?_)) l
  cases st <;> cases al <;> rfl

theorem agreed_alarm (r : LampRec) : agreed r = { r with
    alarm := match r.state, r.alarm with
      | .lit, .alarm => .recovered
      | .lit, .accepted => .quiet
      | .lit, a => a
      | _, .quiet => .alarm
      | _, .recovered => .alarm
      | _, a => a } := by
  obtain ⟨st, _, _, al⟩ := r
  cases st <;> cases al <;> rfl

theorem exec_startTimer {s : State} (hs : s.inReset = false) (dt : Time) :
    exec (.startTimerExpiry dt) s = .next (startExpires (s.advance dt)) := next_awake (e := startExpires) rfl hs

/-- Settles O50: the alarms are brought into agreement one by one, and the end of the arrival leaves a part in RUNNING alone. -/
theorem startTimerEndsStarting : Obligations.StartTimerEndsStarting := by
  unfold Obligations.StartTimerEndsStarting
  intro dt s e hs htimer due
  have hadvanced : (s.advance dt).startTimer = some e := by simpa using htimer
  have hpart : (s.advance dt).part = s.part := by simp
  refine ⟨fun hp => ?_, fun hp => ?_⟩
  · rw [exec_startTimer hs, startExpires, hadvanced]
    dsimp only
    rw [if_neg (hpart ▸ hp)]
  · have hexec : exec (.startTimerExpiry dt) s = .next (finish due (startingEnds due)) := by
      rw [exec_startTimer hs, startExpires, hadvanced]
      dsimp only
      rw [if_pos (hpart ▸ hp)]
    have hconcluded := finish_concluded due (startingEnds due)
    obtain ⟨hrunning, -⟩ := startingEnds_part due
    obtain ⟨hend, -, hlamps⟩ := hconcluded.steady (by rw [hrunning]; exact PartState.noConfusion)
    have hdue : due.lamps = s.lamps ∧ due.resetKind = s.resetKind := by simp [due]
    refine ⟨startingEnds due, _, hexec, ?_, hend.trans hrunning, ?_, rfl, ?_⟩
    · obtain ⟨l, ⟨v, q, n, y, p, h⟩, -⟩ := startingEnds_form due
      exact ⟨l, v, q, n, y, p, h⟩
    · have hstart : Raised due { due with part := .running, startTimer := none } [] := .of_same rfl rfl
      have hraised := (alarmsAgree_raised hstart).raise (.start, 0, due.resetKind.code * 256 + PartState.running.code)
      rw [flatMap_agreementEvents, List.nil_append] at hraised
      rw [← hdue.1, ← hdue.2]
      exact hraised.joined
    · intro hnodup n r hr
      rw [hlamps]
      unfold startingEnds
      simp only [raise_same]
      rw [alarmsAgree_lamps (s := { due with part := .running, startTimer := none }) (hdue.1 ▸ hnodup)]
      have hmap := recAt_mapRec due.lamps (fun _ => agreed) n
      rw [hdue.1, hr] at hmap
      rw [show ({ due with part := .running, startTimer := none } : State).lamps = s.lamps from hdue.1]
      exact hmap.trans (congrArg some (agreed_alarm r))

/-! ### The events of a change of bank, and of a trip -/

/-- The kinds of events that a change of bank and the entry to TRIPPED raise besides their own. -/
def changeEvents : List EventKind := placingEvents ++ endEvents ++ [.linkDown]

theorem alarmStep_kinds (a : Alarm) (old new : LampState) (e : EventKind) (h : (alarmStep a old new).2 = some e) :
    e = .lampFault ∨ e = .lampRecovered := by
  by_cases hf : (alarmStep a old new).2 = some .lampFault
  · exact .inl (Option.some.inj (h.symm.trans hf))
  · refine .inr ?_
    unfold alarmStep at h hf
    split at h
    · split at h <;> simp_all
    · split at h
      · split at h <;> simp_all
      · simp at h

section
variable {ks : List EventKind} {s : State} {new : List (EventKind × Nat × Nat)} (hks : ∀ k ∈ changeEvents, k ∉ ks)
include hks

theorem Tells.change {t : State} (h : Tells ks s t new) {k : EventKind} (hk : k ∈ changeEvents) (o d : Nat) :
    Tells ks s (Machine.raise t k o d) new := h.other (hks .frameDropped (by simp [changeEvents, placingEvents])) (hks k hk) o d

theorem Tells.changeKeeps : EndKeeps fun t => Tells ks s t new :=
  Tells.endKeeps (fun k hk => hks k (by simp [changeEvents, hk])) (fun k hk => hks k (by simp [changeEvents, hk]))

theorem Tells.changeLamp {t : State} (h : Tells ks s t new) (p : Nat) (r : LampRec) : Tells ks s (Machine.changeLamp t p r) new := by
  unfold Machine.changeLamp
  cases hp : recAt t.lamps p with
  | none => exact h
  | some old =>
    have hkinds : ∀ e, (if alarmsJudged t.part then alarmStep old.alarm old.state r.state else (old.alarm, none)).2 = some e →
        e = .lampFault ∨ e = .lampRecovered := by
      intro e he
      split at he
      · exact alarmStep_kinds _ _ _ e he
      · cases he
    dsimp only
    have hlamp := fun f => h.congr (t' := modifyLamp t p f) rfl rfl
    exact (Tells.changeKeeps hks).raiseAlarm _ _ _ hkinds (hlamp _)

theorem Tells.lampLost {t : State} (h : Tells ks s t new) (p : Nat) : Tells ks s (Machine.lampLost t p) new := by
  unfold Machine.lampLost
  split
  · exact h.changeLamp hks p _
  · exact h

theorem Tells.linkLost {t : State} (h : Tells ks s t new) (b : Option Bank) (l : Line) : Tells ks s (Machine.linkLost t b l) new := by
  unfold Machine.linkLost
  have hdown := Tells.change hks (h.congr (t' := modifyLine t l fun r =>
    { r with link := .down, linkTimer := none, firstHeard := none, queue := r.queue.filter fun m => !m.isStroke })
    (by simp) (by simp)) (k := .linkDown) (by simp [changeEvents]) l.code 0
  have htold := hdown.raiseAll (hks .frameDropped (by simp [changeEvents, placingEvents]))
    ((strokesOf (t.line l).queue).map fun c => (EventKind.strokeDropped, l.code, c))
  rw [ofKinds_nil (fun x hx => by
    obtain ⟨c, -, rfl⟩ := List.mem_map.1 hx
    exact hks .strokeDropped (by simp [changeEvents, placingEvents])), List.append_nil] at htold
  split
  · exact htold.congr (by simp) (by simp)
  · exact htold

theorem Tells.lineStarted {t : State} (h : Tells ks s t new) (b : Bank) (l : Line) :
    Tells ks s (Machine.lineStarted t b l) new := by
  have hdropped := h.raiseAll (hks .frameDropped (by simp [changeEvents, placingEvents]))
    ((strokesOf (t.line l).queue).map fun c => (EventKind.strokeDropped, l.code, c))
  rw [ofKinds_nil (fun x hx => by
    obtain ⟨c, -, rfl⟩ := List.mem_map.1 hx
    exact hks .strokeDropped (by simp [changeEvents, placingEvents])), List.append_nil] at hdropped
  have hemptied := hdropped.congr (t' := modifyLine (Machine.raiseAll t ((strokesOf (t.line l).queue).map fun c =>
    (EventKind.strokeDropped, l.code, c))) l fun r => { r with queue := [] }) (by simp) (by simp)
  unfold Machine.lineStarted
  dsimp only
  split
  · exact (hemptied.linkLost hks (some b) l).congr (by simp) (by simp)
  · exact hemptied.congr (by simp) (by simp)

theorem Tells.linesAdopted {t : State} (h : Tells ks s t new) (old : Option Bank) (b : Bank) :
    Tells ks s (Machine.linesAdopted old b t) new := by
  have hfirst : Tells ks s (if lineChanged old b .a then Machine.lineStarted t b .a else t) new := by
    split
    · exact h.lineStarted hks b .a
    · exact h
  unfold Machine.linesAdopted
  dsimp only
  split
  · exact hfirst.lineStarted hks b .b
  · exact hfirst

theorem Tells.placeAll {t : State} (h : Tells ks s t new) (fs : List OutFrame) : Tells ks s (Machine.placeAll t fs) new :=
  foldl_keeps (P := fun x => Tells ks s x new) (fun _ f hx => hx.place (fun k hk => hks k (by simp [changeEvents, hk])) f) fs h

theorem Tells.lampsAdopted {t : State} (h : Tells ks s t new) (old : Option Bank) (b : Bank) (lost : List Nat) :
    Tells ks s (Machine.lampsAdopted old b lost t) new :=
  foldl_keeps (P := fun y => Tells ks s y new) (fun _ p hy => hy.lampLost hks p) lost
    (h.congr (t' := { t with lamps := remade (b.objects .lu) (assignmentChanged old b .lu) (fun _ => ({} : LampRec)) t.lamps })
      rfl rfl)

theorem Tells.bankAdopted {t : State} (h : Tells ks s t new) (img : BankImage) : Tells ks s (Machine.bankAdopted img t) new := by
  have hsections : ∀ (a c d : List Nat), Tells ks s (sectionsAdopted t.bank img.bank a (leversAdopted t.bank img.bank c
      (tracksAdopted t.bank img.bank d (unitsAdopted t.bank img.bank (refreshStarted t.bank img.bank { t with active := some img })))))
      new := fun a c d => h.congr (by simp) (by simp)
  have hhanded : ∀ (y : State) (old : Recs TrackRec), Tells ks s y new →
      Tells ks s (tracksHanded old img.bank (groupsAdopted t.bank img.bank y)) new := fun y old hy => hy.congr rfl rfl
  exact Tells.linesAdopted hks (Tells.placeAll hks (hhanded _ _ (Tells.lampsAdopted hks (hsections _ _ _) _ _ _)) _) _ _

theorem Tells.switchCompleted {t : State} (h : Tells ks s t new) (img : BankImage) :
    Tells ks s (Machine.switchCompleted img t) (new ++ ofKinds ks [(.bankSwitched, 0, img.bank.edition.toNat)]) := by
  have hadopted : Tells ks s (Machine.bankAdopted img { t with check := .unchecked, switchHeld := false }) new :=
    Tells.bankAdopted hks (h.congr (t' := { t with check := .unchecked, switchHeld := false }) rfl rfl) img
  have hrunning : Tells ks s { Machine.bankAdopted img { t with check := .unchecked, switchHeld := false } with
    part := .running } new := hadopted.congr rfl rfl
  exact Tells.raise (hks .frameDropped (by simp [changeEvents, placingEvents])) ((Tells.changeKeeps hks).alarmsAgree hrunning) _ _ _

end

/-! ### The entry to TRIPPED -/

theorem Tells.heldTripped {ks : List EventKind} (hdrop : .frameDropped ∉ ks) (hstored : .bankStored ∉ ks) {s t : State}
    {new : List (EventKind × Nat × Nat)} (h : Tells ks s t new) : Tells ks s (Machine.heldTripped t) new := by
  unfold Machine.heldTripped
  split
  · have hheld : Tells ks s { t with switchHeld := false } new := h.congr rfl rfl
    exact hheld.other hdrop hstored _ _
  · exact h

theorem Tells.tripped {ks : List EventKind} (hks : ∀ k ∈ changeEvents, k ∉ ks) (hstored : .bankStored ∉ ks) {s t : State}
    {new : List (EventKind × Nat × Nat)} (h : Tells ks s t new) (c : TripCause) (o : Nat) (x y : Option Byte) :
    Tells ks s (Machine.tripped t c o x y) (new ++ ofKinds ks [(.trip, o, c.code)]) := by
  have hdrop := hks .frameDropped (by simp [changeEvents, placingEvents])
  have hentered : Tells ks s { t with part := .tripped, trip := some (tripRecord t c o x y), startTimer := none } new :=
    h.congr rfl rfl
  have hsections : ∀ z, Tells ks s z (new ++ ofKinds ks [(.trip, o, c.code)]) →
      Tells ks s (sectionsAtTrip z) (new ++ ofKinds ks [(.trip, o, c.code)]) := fun z hz => hz.congr (by simp) (by simp)
  have halarms : ∀ z, Tells ks s z (new ++ ofKinds ks [(.trip, o, c.code)]) →
      Tells ks s (alarmsAtTrip t.part z) (new ++ ofKinds ks [(.trip, o, c.code)]) := by
    intro z hz
    unfold alarmsAtTrip
    split
    · exact hz
    · exact (Tells.changeKeeps hks).alarmsAgree hz
  exact (halarms _ (hsections _ (hentered.raise hdrop .trip o c.code))).heldTripped hdrop hstored

theorem tripped_switchHeld (s : State) (c : TripCause) (o : Nat) (x y : Option Byte) : (tripped s c o x y).switchHeld = false := by
  unfold tripped heldTripped
  dsimp only
  split
  · simp [bankStored]
  · next h => simpa using h

theorem trippedSection_eq (dir : Direction) (r : SectionRec) : trippedSection dir r =
    if dir ≠ .outbound ∧ r.own = .clear then
      { r with own := .onLine, progress := .seen 0,
               disagreement := !decide (r.commutator = .unknown ∨ r.commutator = .onLine) }
    else r := by
  cases dir <;> obtain ⟨own, _, commutator, _, _, _⟩ := r <;> cases own <;> cases commutator <;> rfl

theorem tripped_sections {s : State} {b : Bank} (hb : s.bank = some b) (c : TripCause) (o : Nat) (x y : Option Byte) :
    (tripped s c o x y).sections = s.sections.map fun p => (p.1, trippedSection (b.sectionEntry p.1).dir p.2) := by
  unfold tripped
  dsimp only
  simp only [heldTripped_same, alarmsAtTrip_same]
  unfold sectionsAtTrip
  have hbank : (raise { s with part := .tripped, trip := some (tripRecord s c o x y), startTimer := none } .trip o c.code).bank
      = some b := (State.bank_of _ _ (by simp)).trans hb
  rw [hbank]
  simp [sectionsTripped]

/-- A trip cause, reached with no trip told of and no section changed, takes a part that has a trip to TRIPPED (R176). -/
theorem tripCause_taken {s due x : State} {c : TripCause} {o : Nat} {sent returned : Option Byte} (hevents : due.events = s.events)
    (htells : Tells [.trip, .tripRepeated] due x []) (hpart : x.part = s.part) (ht : s.part ≠ .tripped)
    (hu : s.part ≠ .unconfigured) (hactive : x.active = s.active) (hsections : x.sections = s.sections)
    (ended : List (Nat × Position)) (pass : List State) (old : State) :
    TripTaken s (finishWith ended pass old (tripCause x c o sent returned)) c o sent returned := by
  have htrip : tripCause x c o sent returned = tripped x c o sent returned := by
    unfold tripCause
    split
    · next h => exact absurd (hpart.symm.trans h) ht
    · next h => exact absurd (hpart.symm.trans h) hu
    · rfl
  rw [htrip]
  have hks : ∀ k ∈ changeEvents, k ∉ [EventKind.trip, .tripRepeated] := by decide
  have htripped : (tripped x c o sent returned).part = .tripped := by simp [tripped]
  obtain ⟨hend, htimer, -⟩ := (finishWith_concluded ended pass old (tripped x c o sent returned)).steady (by
    rw [htripped]
    exact PartState.noConfusion)
  refine ⟨hend.trans htripped, ?_, ?_, htimer.trans (by simp [tripped]), ?_, ?_, ?_, ?_⟩
  · simp [tripped, tripRecord, hpart]
  · obtain ⟨-, all, hall, hnew⟩ := (htells.tripped hks (by decide) c o sent returned).finishWith (by decide) (by decide)
      ended pass old
    exact ⟨all, .inl (hevents ▸ hall), hnew⟩
  · simp only [finishWith_same]
    exact tripped_switchHeld x c o sent returned
  · simp [hactive]
  · intro h
    refine finishWith_locksHeld ended pass old (by simpa [hactive] using h) ?_
    rw [hend, htripped]
    exact PartState.noConfusion
  · intro b hb n r hr
    simp only [finishWith_same]
    have hbank : x.bank = some b := (State.bank_of _ _ hactive).trans hb
    rw [tripped_sections hbank, hsections]
    have hmap := recAt_mapRec s.sections (fun n r => trippedSection (b.sectionEntry n).dir r) n
    rw [hr] at hmap
    rw [← trippedSection_eq]
    exact hmap

/-! ### The end of a store operation -/

theorem exec_storeEnd {s : State} (hs : s.inReset = false) (dt : Time) (equal : Bool) :
    exec (.storeOperationEnd dt equal) s = .next (storeEnds equal (s.advance dt)) := next_awake (e := storeEnds equal) rfl hs

theorem leverAway_none {s : State} (h : ∀ p ∈ s.levers, p.2.position = .normal) : leverAway s = none :=
  List.find?_eq_none.2 fun p hp => by simp [h p hp]

theorem leverAway_first {s : State} {atNormal away : Recs LeverRec} {n : Nat} {l : LeverRec}
    (h : s.levers = atNormal ++ (n, l) :: away) (hl : l.position ≠ .normal) (hn : ∀ p ∈ atNormal, p.2.position = .normal) :
    leverAway s = some (n, l) := by
  unfold leverAway
  rw [h, List.find?_append, List.find?_eq_none.2 fun p hp => by simp [hn p hp]]
  simp [hl]

theorem storeEnded_normal {s : State} (hp : s.part = .switching) (h : leverAway s = none) (img : BankImage) :
    storeEnded img s = switchCompleted img (changedPurged s.bank img.bank { s with stored := img, storeOp := none }) := by
  unfold storeEnded
  dsimp only
  split
  · rw [h]
  · next ht => cases hp.symm.trans ht
  · next ht _ => exact absurd hp ht

theorem storeEnded_away {s : State} (hp : s.part = .switching) {n : Nat} {l : LeverRec} (h : leverAway s = some (n, l))
    (img : BankImage) :
    storeEnded img s = raise { s with stored := img, storeOp := none, switchHeld := true } .switchHeld n l.position.code := by
  unfold storeEnded
  dsimp only
  split
  · rw [h]
  · next ht => cases hp.symm.trans ht
  · next ht _ => exact absurd hp ht

theorem storeEnded_tripped {s : State} (hp : s.part = .tripped) (img : BankImage) :
    storeEnded img s = raise { s with stored := img, storeOp := none } .bankStored 0 img.bank.edition.toNat := by
  unfold storeEnded
  dsimp only
  split
  · next ht => cases hp.symm.trans ht
  · rfl
  · next ht => exact absurd hp ht

/-- The three events that the end of a store operation may raise of its own (R168). -/
def storeEvents : List EventKind := [.bankSwitched, .bankStored, .switchHeld]

/-- Settles O52, by the part state in which the operation ends and the levers' positions. -/
theorem storeOperationEnds : Obligations.StoreOperationEnds := by
  unfold Obligations.StoreOperationEnds
  intro dt s hs
  refine ⟨fun equal hop => ?_, fun img hop => ?_⟩
  · have hadvanced : (s.advance dt).storeOp = none := by simpa using hop
    rw [exec_storeEnd hs, storeEnds, hadvanced]
  · intro ended lost
    have hadvanced : (s.advance dt).storeOp = some img := by simpa using hop
    have hpart : (s.advance dt).part = s.part := by simp
    have hlevers : (s.advance dt).levers = s.levers := by simp
    have hequal : exec (.storeOperationEnd dt true) s = .next (finish (s.advance dt) (storeEnded img (s.advance dt))) := by
      rw [exec_storeEnd hs, storeEnds, hadvanced]
      rfl
    have hdiffers : exec (.storeOperationEnd dt false) s =
        .next (finish (s.advance dt) (tripCause lost .storeFail 0 none none)) := by
      rw [exec_storeEnd hs, storeEnds, hadvanced]
      simp only [Bool.false_eq_true, if_false, storeFailed, lost, State.advance_same]
    refine ⟨fun hp hnormal => ?_, fun atNormal n l away hp hsplit hl hnormal => ?_, fun hp => ?_, fun hp => ?_, fun hp => ?_⟩
    · let x := switchCompleted img (changedPurged (s.advance dt).bank img.bank ended)
      have hx : storeEnded img (s.advance dt) = x := storeEnded_normal (hpart.trans hp) (leverAway_none (hlevers ▸ hnormal)) img
      obtain ⟨hactive, hrunning, hcheck, hheld⟩ := switchCompleted_fields img (changedPurged (s.advance dt).bank img.bank ended)
      obtain ⟨hend, -, -⟩ := (finish_concluded (s.advance dt) x).steady (by
        rw [hrunning]
        exact PartState.noConfusion)
      have hstart : Tells storeEvents (s.advance dt) (changedPurged (s.advance dt).bank img.bank ended) [] :=
        (Tells.refl _ _).congr (by simp [ended]) (by simp [ended])
      obtain ⟨new, hnew, hkinds⟩ := ((hstart.switchCompleted (by decide) img).finishWith (by decide) (by decide) [] []
        (s.advance dt)).joined
      refine ⟨finish (s.advance dt) x, new, hx ▸ hequal, hend.trans hrunning, ?_, ?_, ?_, ?_, ?_, ?_, ?_, ?_, ?_, hnew, hkinds⟩ <;>
        simp only [finish_same]
      · exact hactive
      all_goals simp [x, ended, hcheck, hheld]
    · rw [hequal, storeEnded_away (hpart.trans hp) (leverAway_first (hlevers.trans hsplit) hl hnormal) img]
    · rw [hequal, storeEnded_tripped (hpart.trans hp) img]
    · refine ⟨_, hdiffers, ?_, ?_⟩
      · exact tripCause_taken (due := s.advance dt) (by simp) ((Tells.refl _ _).congr (by simp [lost]) (by simp [lost]))
          (by simp [lost]) (by rw [hp]; exact PartState.noConfusion) (by rw [hp]; exact PartState.noConfusion) (by simp [lost])
          (by simp [lost]) [] [] _
      · simp [lost]
    · have hx : tripCause lost .storeFail 0 none none = raise lost .tripRepeated 0 TripCause.storeFail.code := by
        have hlost : lost.part = .tripped := hpart.trans hp
        unfold tripCause
        rw [hlost]
      refine ⟨_, hdiffers, by rw [hx], ?_⟩
      rw [hx]
      simp [lost]

end Sys2Proof.Machine
end

section
/-! PROOF. What sections and approach locks make of changes of tracks (R53, R84, R135, R141). -/

namespace Sys2Proof.Machine

/-! ### The changes of one pass -/

/-- The change of a track's state in a pass. -/
def TrackPass.move (p : TrackPass) (t : Nat) : Option (TrackState × TrackState) :=
  match p.before t, p.after t with
  | some x, some y => if x = y then none else some (x, y)
  | _, _ => none

theorem trackMove_eq (old new : Recs TrackRec) : trackMove old new = (onePass old new).move := by
  funext t
  unfold trackMove TrackPass.move onePass trackState
  cases ho : recAt old t <;> cases hn : recAt new t <;> simp only [ho, hn, Option.map]

theorem TrackPass.move_some {p : TrackPass} {t : Nat} {x y : TrackState} :
    p.move t = some (x, y) ↔ p.before t = some x ∧ p.after t = some y ∧ x ≠ y := by
  unfold TrackPass.move
  cases hb : p.before t <;> cases ha : p.after t <;> simp
  next u v =>
    constructor
    · rintro ⟨hne, rfl, rfl⟩
      exact ⟨rfl, rfl, hne⟩
    · rintro ⟨rfl, rfl, hne⟩
      exact ⟨hne, rfl, rfl⟩

/-! ### Consumption -/

theorem exitOf_some {e : SectionEntry} {t : Nat} : e.exitOf = some t ↔ e.dir ≠ .inbound ∧ e.exitTrack ≠ 0 ∧ t = e.exitTrack.toNat := by
  unfold SectionEntry.exitOf
  by_cases h : e.dir = .inbound ∨ e.exitTrack = 0
  · rw [if_pos h]
    exact ⟨nofun, fun hn => absurd h (not_or.2 ⟨hn.1, hn.2.1⟩)⟩
  · rw [if_neg h]
    obtain ⟨hd, hz⟩ := not_or.1 h
    exact ⟨fun h => ⟨hd, hz, (Option.some.inj h).symm⟩, fun hn => by rw [hn.2.2]⟩

/-- Under a far CLEAR the exit track's leaving CLEAR consumes a section (R135). -/
theorem sectionOnTracks_consumed (e : SectionEntry) (p : TrackPass) (r : SectionRec) :
    (sectionOnTracks e p.move r).consumed = true ↔ r.consumed = true ∨ (r.far = .clear ∧ e.dir ≠ .inbound ∧
      e.exitTrack ≠ 0 ∧ p.before e.exitTrack.toNat = some .clear ∧ ∃ y, p.after e.exitTrack.toNat = some y ∧ y ≠ .clear) := by
  unfold sectionOnTracks
  dsimp only
  rw [Bool.or_eq_true]
  refine or_congr_right ?_
  split
  · next t ht =>
    obtain ⟨hd, hz, rfl⟩ := exitOf_some.1 ht
    split
    · next x y hm =>
      obtain ⟨hbefore, hafter, hne⟩ := TrackPass.move_some.1 hm
      rw [hbefore, hafter, Bool.and_eq_true, decide_eq_true_eq, decide_eq_true_eq]
      constructor
      · rintro ⟨rfl, hfar⟩
        exact ⟨hfar, hd, hz, rfl, y, rfl, Ne.symm hne⟩
      · rintro ⟨hfar, -, -, hx, -⟩
        exact ⟨Option.some.inj hx, hfar⟩
    · next hm =>
      refine ⟨fun h => Bool.noConfusion h, ?_⟩
      rintro ⟨-, -, -, hbefore, y, hafter, hne⟩
      have := TrackPass.move_some.2 ⟨hbefore, hafter, Ne.symm hne⟩
      rw [hm] at this
      cases this
  · next ht =>
    refine ⟨fun h => Bool.noConfusion h, ?_⟩
    rintro ⟨-, hd, hz, -⟩
    rw [exitOf_some.2 ⟨hd, hz, rfl⟩] at ht
    cases ht

/-! ### Progress -/

theorem progressStep_moves (count : Nat) (p : Progress) (place : Nat) (x y : TrackState) :
    ProgressMoves count place x y p (progressStep count p place x y) := by
  unfold ProgressMoves progressStep
  cases p with
  | proven => rfl
  | seen k =>
    dsimp only
    refine ⟨fun hl => if_pos hl, fun hn => ?_, fun hr => ?_, fun hl hn hr => by rw [if_neg hl, if_neg hn, if_neg hr]⟩
    · obtain ⟨-, -, -, hy⟩ := id hn
      rw [if_neg (by rw [hy]; simp), if_pos hn]
    · obtain ⟨-, -, hy⟩ := id hr
      rw [if_neg (by rw [hy]; simp), if_neg (fun hn => by rw [hy] at hn; cases hn.2.2.2), if_pos hr]

/-- The changes of arrival tracks, the first of which has the place `k + 1`. -/
def changesFrom (k : Nat) (tracks : List Nat) (p : TrackPass) : List (Nat × TrackState × TrackState) :=
  (tracks.zipIdx k).filterMap fun q => (p.move q.1).map fun m => (q.2 + 1, m)

theorem changesFrom_cons (k t : Nat) (rest : List Nat) (p : TrackPass) :
    changesFrom k (t :: rest) p = ((p.move t).map fun m => (k + 1, m)).toList ++ changesFrom (k + 1) rest p := by
  unfold changesFrom
  rw [List.zipIdx_cons, List.filterMap_cons]
  cases p.move t <;> rfl

theorem filterMap_range_moves (tracks : List Nat) (p : TrackPass) (k : Nat) :
    ((List.range tracks.length).filterMap fun i => (p.move (tracks.getD i 0)).map fun m => (k + i + 1, m)) =
      changesFrom k tracks p := by
  induction tracks generalizing k with
  | nil => rfl
  | cons t rest ih =>
    rw [List.length_cons, List.range_succ_eq_map, List.filterMap_cons, List.filterMap_map, changesFrom_cons, ← ih (k + 1)]
    have hrest : ((fun i => (p.move ((t :: rest).getD i 0)).map fun m => (k + i + 1, m)) ∘ Nat.succ) =
        fun i => (p.move (rest.getD i 0)).map fun m => (k + 1 + i + 1, m) := by
      funext i
      simp only [Function.comp, List.getD_cons_succ, Nat.succ_eq_add_one, Nat.add_assoc, Nat.add_comm 1 i]
    rw [hrest]
    simp only [List.getD_cons_zero, Nat.add_zero]
    cases p.move t <;> rfl

theorem arrivalChanges_eq (tracks : List Nat) (p : TrackPass) : arrivalChanges tracks p = changesFrom 0 tracks p := by
  rw [← filterMap_range_moves]
  unfold arrivalChanges
  refine congrFun (congrArg _ (funext fun i => ?_)) _
  unfold TrackPass.move
  rw [Nat.zero_add]
  cases p.before (tracks.getD i 0) <;> cases p.after (tracks.getD i 0) <;> try rfl
  dsimp only
  split <;> rfl

theorem progressOver_after (count : Nat) (pass : TrackPass) (tracks : List Nat) (p : Progress) (k : Nat) :
    ProgressAfter count (changesFrom k tracks pass) p (progressOver count pass.move p (k + 1) tracks) := by
  induction tracks generalizing p k with
  | nil => rfl
  | cons t rest ih =>
    rw [changesFrom_cons]
    unfold progressOver
    cases hm : pass.move t with
    | none => exact ih p (k + 1)
    | some m => exact ⟨_, progressStep_moves count p (k + 1) m.1 m.2, ih _ (k + 1)⟩

/-- The arrival tracks move the progress of a section that is ON_LINE and not OUTBOUND (R141). -/
theorem sectionOnTracks_progress (e : SectionEntry) (p : TrackPass) (r : SectionRec) :
    (r.own = .onLine → e.dir ≠ .outbound → ProgressAfter e.arrivalTracks.length (arrivalChanges e.arrivalTracks p) r.progress
      (sectionOnTracks e p.move r).progress) ∧
    (r.own ≠ .onLine ∨ e.dir = .outbound → (sectionOnTracks e p.move r).progress = r.progress) := by
  have hcond : ∀ c : Bool, c = (decide (r.own = .onLine) && decide (e.dir ≠ .outbound)) →
      (c = true ↔ r.own = .onLine ∧ e.dir ≠ .outbound) := by
    rintro c rfl
    rw [Bool.and_eq_true, decide_eq_true_eq, decide_eq_true_eq]
  unfold sectionOnTracks
  refine ⟨fun ho hd => ?_, fun hn => ?_⟩
  · dsimp only
    rw [if_pos ((hcond _ rfl).2 ⟨ho, hd⟩), arrivalChanges_eq]
    exact progressOver_after _ p e.arrivalTracks r.progress 0
  · dsimp only
    rw [if_neg fun h => ?_]
    obtain ⟨ho, hd⟩ := (hcond _ rfl).1 h
    exact hn.elim (fun h => h ho) hd

/-! ### Approach locks -/

theorem trackClear_state (s : State) (t : Nat) : trackClear s t = true ↔ trackState s.tracks t = some .clear := by
  unfold trackClear trackState
  cases recAt s.tracks t <;> simp

/-- A lever's record after changes of tracks (R84). -/
def approachAfter (old : Recs TrackRec) (b : Bank) (s : State) (n : Nat) (l : LeverRec) : LeverRec :=
  let ts := (b.leverEntry n).approachTracks
  if l.approach.isSome && ts.any (fun t => (trackMove old s.tracks t).isSome) && ts.all (trackClear s) then
    { l with approach := none }
  else l

theorem approachEnds_levers (old : Recs TrackRec) (b : Bank) (s : State) :
    (approachEnds old b s).levers = s.levers.map fun p => (p.1, approachAfter old b s p.1 p.2) := by
  unfold approachEnds approachAfter
  refine List.map_congr_left fun p _ => ?_
  dsimp only
  split <;> rfl

theorem leavesAllClear_iff (old : Recs TrackRec) (s : State) (ts : List Nat) :
    (ts.any (fun t => (trackMove old s.tracks t).isSome) && ts.all (trackClear s)) = true ↔
      LeavesAllClear ts (onePass old s.tracks) := by
  rw [Bool.and_eq_true, List.any_eq_true, List.all_eq_true]
  unfold LeavesAllClear
  have hall : (∀ t ∈ ts, trackClear s t = true) ↔ ∀ m ∈ ts, (onePass old s.tracks).after m = some .clear :=
    forall₂_congr fun t _ => trackClear_state s t
  rw [hall]
  refine and_congr_left fun hclear => exists_congr fun t => and_congr_right fun ht => ?_
  rw [trackMove_eq, Option.isSome_iff_exists]
  constructor
  · rintro ⟨⟨x, y⟩, hm⟩
    obtain ⟨hbefore, hafter, hne⟩ := TrackPass.move_some.1 hm
    rw [hbefore, hafter]
    exact ⟨fun h => hne (Option.some.inj h), nofun⟩
  · rintro ⟨hne, hsome⟩
    obtain ⟨x, hx⟩ := Option.ne_none_iff_exists'.1 hsome
    exact ⟨(x, .clear), TrackPass.move_some.2 ⟨hx, hclear t ht, fun h => hne (by rw [hx, hclear t ht, h])⟩⟩

/-- An approach lock ends where a change of its tracks leaves every one CLEAR (R84). -/
theorem approachAfter_approach (old : Recs TrackRec) (b : Bank) (s : State) (n : Nat) (l : LeverRec) :
    (LeavesAllClear (b.leverEntry n).approachTracks (onePass old s.tracks) → (approachAfter old b s n l).approach = none) ∧
    (¬ LeavesAllClear (b.leverEntry n).approachTracks (onePass old s.tracks) → (approachAfter old b s n l).approach = l.approach) := by
  rw [← leavesAllClear_iff]
  unfold approachAfter
  dsimp only
  rw [Bool.and_assoc]
  refine ⟨fun h => ?_, fun h => ?_⟩
  · rw [h, Bool.and_true]
    cases ha : l.approach <;> simp [ha]
  · rw [if_neg fun hc => h ((Bool.and_eq_true _ _).mp hc).2]

/-! ### The readers of a pass -/

/-- What the readers of tracks hold in `s` they hold in `t` too. -/
structure SameReaders (s t : State) : Prop where
  sections : ∀ n r, recAt s.sections n = some r → ∃ r', recAt t.sections n = some r' ∧ r'.consumed = r.consumed ∧
    r'.progress = r.progress ∧ r'.own = r.own ∧ r'.far = r.far
  levers : ∀ n l, recAt s.levers n = some l → ∃ l', recAt t.levers n = some l' ∧ l'.approach = l.approach

theorem SameReaders.of_same {s t : State} (hs : t.sections = s.sections) (hl : t.levers = s.levers) : SameReaders s t :=
  ⟨fun _ r hr => ⟨r, hs ▸ hr, rfl, rfl, rfl, rfl⟩, fun _ l h => ⟨l, hl ▸ h, rfl⟩⟩

theorem SameReaders.trans {s t r : State} (h : SameReaders s t) (h' : SameReaders t r) : SameReaders s r := by
  refine ⟨fun n x hx => ?_, fun n l hl => ?_⟩
  · obtain ⟨y, hy, h1, h2, h3, h4⟩ := h.sections n x hx
    obtain ⟨z, hz, k1, k2, k3, k4⟩ := h'.sections n y hy
    exact ⟨z, hz, k1.trans h1, k2.trans h2, k3.trans h3, k4.trans h4⟩
  · obtain ⟨y, hy, h1⟩ := h.levers n l hl
    obtain ⟨z, hz, k1⟩ := h'.levers n y hy
    exact ⟨z, hz, k1.trans h1⟩

/-- The end of an arrival leaves what the readers hold. -/
theorem SameReaders.concluded {x t : State} (h : Concluded x t) : SameReaders x t := by
  refine ⟨fun n r hr => ⟨r, ?_, rfl, rfl, rfl, rfl⟩, fun n l hl => ?_⟩
  · rw [h.rest]
    exact hr
  · obtain ⟨l', hl', -, -, -, ha⟩ := h.lever hl
    exact ⟨l', hl', ha⟩

theorem tracksHanded_section (old : Recs TrackRec) (b : Bank) (s : State) (n : Nat) :
    recAt (tracksHanded old b s).sections n =
      (recAt s.sections n).map (sectionOnTracks (b.sectionEntry n) (onePass old s.tracks).move) := by
  have hsections : (tracksHanded old b s).sections =
      s.sections.map fun p => (p.1, sectionOnTracks (b.sectionEntry p.1) (onePass old s.tracks).move p.2) := by
    unfold tracksHanded
    simp only [approachEnds_same, sectionsOnTracks, trackMove_eq]
  rw [hsections]
  exact recAt_mapRec s.sections (fun n => sectionOnTracks (b.sectionEntry n) (onePass old s.tracks).move) n

theorem tracksHanded_lever (old : Recs TrackRec) (b : Bank) (s : State) (n : Nat) :
    recAt (tracksHanded old b s).levers n = (recAt s.levers n).map (approachAfter old b s n) := by
  have hlevers : (tracksHanded old b s).levers = s.levers.map fun p => (p.1, approachAfter old b s p.1 p.2) := by
    unfold tracksHanded
    rw [approachEnds_levers]
    rfl
  rw [hlevers]
  exact recAt_mapRec s.levers (fun n => approachAfter old b s n) n

/-- Changes that are handed on as one pass reach the sections and the approach locks (R53). -/
theorem readersFollow_handed {b : Bank} {old : Recs TrackRec} {s x t : State} (h : SameReaders s x)
    (h' : SameReaders (tracksHanded old b x) t) : ReadersFollow b [onePass old x.tracks] s t := by
  refine ⟨fun n r hr => ?_, fun n r hr => ?_, fun n l hl => ?_⟩
  · obtain ⟨y, hy, hconsumed, -, -, hfar⟩ := h.sections n r hr
    have hz := tracksHanded_section old b x n
    rw [hy] at hz
    obtain ⟨w, hw, hwc, -⟩ := h'.sections n _ hz
    refine ⟨w, hw, ?_⟩
    rw [hwc, sectionOnTracks_consumed, hconsumed, hfar]
    simp only [List.mem_singleton, exists_eq_left]
  · obtain ⟨y, hy, -, hprogress, hown, -⟩ := h.sections n r hr
    have hz := tracksHanded_section old b x n
    rw [hy] at hz
    obtain ⟨w, hw, -, hwp, -⟩ := h'.sections n _ hz
    have hafter := sectionOnTracks_progress (b.sectionEntry n) (onePass old x.tracks) y
    rw [hown, hprogress] at hafter
    refine ⟨w, hw, ?_⟩
    rw [hwp]
    dsimp only
    rw [List.flatMap_singleton]
    exact hafter
  · obtain ⟨y, hy, happroach⟩ := h.levers n l hl
    have hz := tracksHanded_lever old b x n
    rw [hy] at hz
    obtain ⟨w, hw, hwa⟩ := h'.levers n _ hz
    refine ⟨w, hw, ?_⟩
    rw [hwa, ← happroach]
    simpa only [List.mem_singleton, exists_eq_left, forall_eq] using approachAfter_approach old b x n y

end Sys2Proof.Machine
end

section
/-! PROOF. RESTORE_TRACK and the end of a pick-up (R61, R62, R65). -/

namespace Sys2Proof.Machine

/-! ### A track that leaves SUSPECT -/

theorem recAt_modifyTrack_self {s : State} {n : Nat} {r : TrackRec} (h : recAt s.tracks n = some r) (f : TrackRec → TrackRec) :
    recAt (modifyTrack s n f).tracks n = some (f r) := by
  show recAt (modifyRec s.tracks n f) n = _
  rw [recAt_modifyRec_self, h]
  rfl

theorem recAt_modifyTrack_other {s : State} {n m : Nat} (h : m ≠ n) (f : TrackRec → TrackRec) :
    recAt (modifyTrack s n f).tracks m = recAt s.tracks m := by
  show recAt (modifyRec s.tracks n f) m = _
  rw [recAt_modifyRec, if_neg h]

/-- The one track that changes moves from the state it had. -/
theorem entered_modifyTrack {s : State} {n : Nat} {r r' : TrackRec} (h : recAt s.tracks n = some r) (from' : List TrackState)
    (m : Nat) : entered s.tracks (modifyTrack s n fun _ => r').tracks from' m = true →
      m = n ∧ r'.state = .occupied ∧ r.state ∈ from' := by
  unfold entered
  rw [trackMove_eq]
  split
  · next x y hm =>
    obtain ⟨hbefore, hafter, hne⟩ := TrackPass.move_some.1 hm
    intro he
    rw [Bool.and_eq_true, decide_eq_true_eq, List.contains_iff_mem] at he
    by_cases hmn : m = n
    · subst hmn
      simp only [onePass, trackState, h, recAt_modifyTrack_self h, Option.map_some, Option.some.injEq] at hbefore hafter
      exact ⟨rfl, hafter.trans he.1, hbefore ▸ he.2⟩
    · simp only [onePass, trackState, recAt_modifyTrack_other hmn] at hbefore hafter
      exact absurd (Option.some.inj (hbefore.symm.trans hafter)) hne
  · exact fun he => Bool.noConfusion he

/-- A track that leaves SUSPECT enters from no CLEAR: the judgements of proving are those of its own record alone. -/
theorem provingJudged_suspect {s : State} {n : Nat} {r r' : TrackRec} (h : recAt s.tracks n = some r)
    (hr : r.state = .suspect) (hseen : r'.state = .occupied → r'.exitSeen = false) (b : Bank) :
    ∃ ts, provingJudged s.tracks b (modifyTrack s n fun _ => r') = { s with tracks := ts } ∧
      recAt ts n = some r' ∧ ∀ m, m ≠ n → recAt ts m = recAt s.tracks m := by
  have hclear : ∀ m, entered s.tracks (modifyTrack s n fun _ => r').tracks [.clear] m = false := by
    intro m
    by_contra he
    obtain ⟨-, -, hmem⟩ := entered_modifyTrack h [.clear] m (by simpa using he)
    rw [hr] at hmem
    cases List.mem_singleton.1 hmem
  have hunexpected : ∀ e m x, unexpectedEntry s.tracks (modifyTrack s n fun _ => r').tracks e m x = false := by
    intro e m x
    unfold unexpectedEntry
    rw [hclear m, Bool.and_false, Bool.false_and]
  have hexit : ∀ e m x, (m = n → x = r') →
      exitSeenAfter s.tracks (modifyTrack s n fun _ => r').tracks e m x = x.exitSeen := by
    intro e m x hx
    unfold exitSeenAfter
    have hnone : e.neighbourNumbers.any (entered s.tracks (modifyTrack s n fun _ => r').tracks [.clear]) = false :=
      List.any_eq_false.2 fun m _ => by rw [hclear m]; exact Bool.noConfusion
    dsimp only
    rw [hnone, Bool.and_false, Bool.or_false]
    split
    · next he =>
      obtain ⟨hm, hstate, -⟩ := entered_modifyTrack h _ m he
      rw [hx hm, hseen hstate]
    · rfl
  have hjudged := provingJudged_recAt s.tracks b (modifyTrack s n fun _ => r')
  have hquiet : provingJudged s.tracks b (modifyTrack s n fun _ => r') =
      { s with tracks := (provingJudged s.tracks b (modifyTrack s n fun _ => r')).tracks } := by
    rw [provingJudged_tracks]
    unfold provingJudged
    dsimp only
    rw [List.filter_eq_nil_iff.2 fun p _ => by rw [hunexpected]; exact Bool.noConfusion]
    rfl
  refine ⟨_, hquiet, ?_, fun m hm => ?_⟩
  · rw [hjudged, recAt_modifyTrack_self h, Option.map_some, hexit _ n r' fun _ => rfl, hunexpected, Bool.or_false]
  · rw [hjudged, recAt_modifyTrack_other hm]
    cases recAt s.tracks m with
    | none => rfl
    | some x => rw [Option.map_some, hexit _ m x fun hn => absurd hn hm, hunexpected, Bool.or_false]

/-! ### RESTORE_TRACK (R65) -/

theorem restored_exitSeen (active : Bool) (e : TrackEntry) (r : TrackRec) :
    (restored active e r).state = .occupied → (restored active e r).exitSeen = false := by
  unfold restored
  intro h
  split at h
  · cases h
  · next ha =>
    rw [if_neg ha]
    split
    · rfl
    · rfl

theorem restoreTrack_refused {s : State} {n : Nat}
    (h : (∀ r, recAt s.tracks n = some r → r.state ≠ .suspect) ∨ s.bank = none) : restoreTrack s n = .refused .notSuspect := by
  unfold restoreTrack
  split
  · next b r hb hr =>
    rcases h with h | h
    · rw [if_neg (h r hr)]
    · rw [hb] at h
      cases h
  · rfl

/-- The unit of a track's channel is ACTIVE. -/
def servedActive (s : State) (b : Bank) (n : Nat) : Bool :=
  match b.assignment .tu n with
  | some (a, _) => s.unitActive a
  | none => false

theorem servedActive_iff (s : State) (b : Bank) (n : Nat) :
    servedActive s b n = true ↔ ∃ a c, b.assignment .tu n = some (a, c) ∧ s.unitActive a = true := by
  unfold servedActive
  split
  · next a c h =>
    rw [h]
    exact ⟨fun hs => ⟨a, c, rfl, hs⟩, fun ⟨a', c', he, hs⟩ => by cases he; exact hs⟩
  · next h =>
    rw [h]
    exact ⟨nofun, nofun⟩

theorem restoreTrack_acted {s : State} {b : Bank} {n : Nat} {r : TrackRec} (hb : s.bank = some b)
    (hr : recAt s.tracks n = some r) (h : r.state = .suspect) :
    restoreTrack s n = .acted (raise (tracksHanded s.tracks b (provingJudged s.tracks b (modifyTrack s n fun _ =>
      restored (servedActive s b n) (b.trackEntry n) r))) .trackRestored n
      (restored (servedActive s b n) (b.trackEntry n) r).state.code) [] := by
  unfold restoreTrack
  rw [hb, hr]
  dsimp only
  rw [if_pos h]
  rfl

/-- Settles O47: the track's own record is all that the judgement of proving reads, and its change is handed on once. -/
theorem restoreTrackIsJudged : Obligations.RestoreTrackIsJudged := by
  unfold Obligations.RestoreTrackIsJudged
  intro dt f s n h hp hread heard
  have hc : ((6 : Byte), none, Instr.restoreTrack dt f) ∈ requestsOf dt false f := by simp [requestsOf]
  have htracks : heard.tracks = s.tracks := by simp [heard]
  have hbank : heard.bank = s.bank := heardRequest_bank ..
  have hread' : readRequest (6 : Byte).toNat f.params = some (.restoreTrack n) := hread
  refine ⟨fun hno => ?_, fun b r hb hr hsuspect => ?_⟩
  · exact exec_refused hc h hread' (.inl hp) (why := .notSuspect) (restoreTrack_refused (by rw [htracks, hbank]; exact hno))
  · intro served p
    let r' := restored (servedActive heard b n) (b.trackEntry n) r
    have hserved : servedActive heard b n = true ↔ served := by
      have hunits : heard.unitActive = s.unitActive := by
        funext a
        unfold State.unitActive
        rw [show heard.units = s.units by simp [heard]]
      rw [servedActive_iff, hunits]
    have hheard : recAt heard.tracks n = some r := htracks ▸ hr
    obtain ⟨ts, hjudged, hself, hother⟩ := provingJudged_suspect (r' := r') hheard hsuspect (restored_exitSeen _ _ r) b
    let y := tracksHanded heard.tracks b { heard with tracks := ts }
    let x := raise y .trackRestored n r'.state.code
    have hacted : requestTaken heard (.restoreTrack n) = .acted x [] := by
      have := restoreTrack_acted (hbank.trans hb) hheard hsuspect
      rw [hjudged] at this
      exact this
    have hx : x.tracks = ts := by simp [x, y]
    have hfinished : ∀ t : State, SameReaders y (finish t (place x (replyTo 6 f 0 0 []))) := fun t =>
      (SameReaders.of_same (by simp [x]) (by simp [x])).trans (SameReaders.concluded (finish_concluded _ _))
    refine ⟨x, r', exec_acted hc h hread' (.inl hp) hacted, ?_, ?_, ?_, fun hs hpr => ?_, fun hs hpr => ?_, fun hs => ?_,
      fun m z hm hz => ?_, ?_⟩
    · obtain ⟨v, q, k, w, e, hraise⟩ := raise_form y .trackRestored n r'.state.code
      exact ⟨ts, y.levers, y.sections, v, q, k, w, e, hraise⟩
    · have hstart : Raised heard y [] := .of_same (by simp [y]) (by simp [y])
      exact (hstart.raise (.trackRestored, n, r'.state.code)).joined
    · simp only [finish_same, place_same]
      rw [hx]
      exact hself
    · simp only [r', restored, hserved.2 hs, Bool.not_true, Bool.false_eq_true, if_false]
      exact if_pos hpr
    · simp only [r', restored, hserved.2 hs, Bool.not_true, Bool.false_eq_true, if_false]
      exact if_neg (Nat.not_le.2 hpr)
    · have hnot : servedActive heard b n = false := by simpa using mt hserved.1 hs
      simp only [r', restored, hnot, Bool.not_false, if_true]
    · rw [hx, hother m hm, htracks, hz]
    · have := readersFollow_handed (b := b) (old := heard.tracks) (s := s) (x := { heard with tracks := ts })
        (.of_same (by simp [heard]) (by simp [heard])) (hfinished (s.advance dt))
      rw [hx, ← htracks]
      exact this

/-! ### The end of a pick-up (R48) -/

theorem clearingGivesClear_iff (neighbours : Recs TrackRec) (e : TrackEntry) (r : TrackRec) :
    clearingGivesClear neighbours e r = true ↔ e.provingOn = false ∨ r.provedOnce = false ∨ e.neighbourNumbers = [] ∨
      r.exitSeen = true ∨ ∃ m ∈ e.neighbourNumbers, ∃ x, recAt neighbours m = some x ∧ (x.state = .occupied ∨ x.state = .pickingUp) := by
  have hstands : ∀ m, standsOccupied neighbours m = true ↔
      ∃ x, recAt neighbours m = some x ∧ (x.state = .occupied ∨ x.state = .pickingUp) := by
    intro m
    unfold standsOccupied
    cases recAt neighbours m <;> simp
  unfold clearingGivesClear
  simp only [Bool.or_eq_true, Bool.not_eq_true', List.isEmpty_iff, List.any_eq_true, hstands, or_assoc]

theorem clearingDecision_clears {neighbours : Recs TrackRec} {b : Bank} {s : State} {t : Nat} {r : TrackRec}
    (hr : recAt s.tracks t = some r) (h : clearingGivesClear neighbours (b.trackEntry t) r = true) :
    clearingDecision neighbours b s t = modifyTrack s t cleared := by
  unfold clearingDecision
  rw [hr]
  exact if_pos h

theorem clearingDecision_suspects {neighbours : Recs TrackRec} {b : Bank} {s : State} {t : Nat} {r : TrackRec}
    (hr : recAt s.tracks t = some r) (h : ¬ clearingGivesClear neighbours (b.trackEntry t) r = true) :
    clearingDecision neighbours b s t =
      raise (modifyTrack s t fun x => { x with state := .suspect, timer := none }) .trackSuspect t r.s := by
  unfold clearingDecision
  rw [hr]
  exact if_neg h

theorem exec_pickUp {s : State} {b : Bank} {n : Nat} {r : TrackRec} {e : Time} (hs : s.inReset = false) (hb : s.bank = some b)
    (hr : recAt s.tracks n = some r) (he : r.timer = some e) (dt : Time) :
    let due := (s.advance dt).warp e
    exec (.pickUpTimerExpiry dt n) s = .next (finish due (tracksHanded due.tracks b (clearingDecision due.tracks b due n))) := by
  have hrec : (recAt (s.advance dt).tracks n).bind TrackRec.timer = some e := by simp [hr, he]
  have hbank : (s.advance dt).bank = some b := (State.bank_of _ _ (by simp)).trans hb
  rw [next_awake (e := pickUpExpires n) rfl hs, pickUpExpires, hrec, hbank]

/-- Settles O22: the decision is made on the neighbours as they stand, and the change is handed on once. -/
theorem pickUpExpiryDecidesClearing : Obligations.PickUpExpiryDecidesClearing := by
  unfold Obligations.PickUpExpiryDecidesClearing
  intro dt n s b r e hs hb hr he due entry proves
  let decided := clearingDecision due.tracks b due n
  have htracks : due.tracks = s.tracks := by simp [due]
  have hdue : recAt due.tracks n = some r := htracks ▸ hr
  have hproves : clearingGivesClear due.tracks entry r = true ↔ proves := by
    rw [clearingGivesClear_iff, htracks]
  have hstart : ∀ f, Raised due (modifyTrack due n f) [] := fun f => .of_same rfl rfl
  have hfinal : (finish due (tracksHanded due.tracks b decided)).tracks = decided.tracks := by simp
  have hsettled : (∃ ts v q k y p, decided = { due with
        tracks := ts, events := v, outQueue := q, seq := k, sending := y, pendingReturns := p }) ∧
      (∃ new, Raised due decided new ∧
        (proves → new = [] ∧ recAt decided.tracks n =
          some { r with state := .clear, timer := none, provedOnce := true, unexpected := false }) ∧
        (¬ proves → new = [(.trackSuspect, n, r.s)] ∧ recAt decided.tracks n = some { r with state := .suspect, timer := none })) ∧
      ∀ m, m ≠ n → recAt decided.tracks m = recAt s.tracks m := by
    by_cases hp : clearingGivesClear due.tracks entry r = true
    · have heq : decided = modifyTrack due n cleared := clearingDecision_clears hdue hp
      rw [heq]
      refine ⟨⟨_, _, _, _, _, _, rfl⟩, ⟨[], hstart _, fun _ => ⟨rfl, ?_⟩, fun hn => absurd (hproves.1 hp) hn⟩, fun m hm => ?_⟩
      · exact recAt_modifyTrack_self hdue cleared
      · rw [recAt_modifyTrack_other hm, htracks]
    · have heq : decided = raise (modifyTrack due n fun x => { x with state := .suspect, timer := none }) .trackSuspect n r.s :=
        clearingDecision_suspects hdue hp
      rw [heq]
      refine ⟨?_, ⟨_, (hstart _).raise (.trackSuspect, n, r.s), fun hpr => absurd (hproves.2 hpr) hp, fun _ => ⟨rfl, ?_⟩⟩,
        fun m hm => ?_⟩
      · obtain ⟨v, q, k, w, p, hraise⟩ := raise_form (modifyTrack due n fun x => { x with state := .suspect, timer := none })
          .trackSuspect n r.s
        exact ⟨_, v, q, k, w, p, hraise⟩
      · simp only [raise_same]
        exact recAt_modifyTrack_self hdue _
      · simp only [raise_same]
        rw [recAt_modifyTrack_other hm, htracks]
  obtain ⟨⟨ts, v, q, k, y, p, hform⟩, ⟨new, hraised, hclear, hsuspect⟩, hothers⟩ := hsettled
  refine ⟨tracksHanded due.tracks b decided, new, exec_pickUp hs hb hr he dt, ?_, ?_, ?_, ?_, ?_, ?_⟩
  · have hhanded : tracksHanded due.tracks b decided = { decided with
        levers := (tracksHanded due.tracks b decided).levers, sections := (tracksHanded due.tracks b decided).sections } := rfl
    refine ⟨ts, (tracksHanded due.tracks b decided).levers, (tracksHanded due.tracks b decided).sections, v, q, k, y, p, ?_⟩
    rw [hhanded, hform]
  · exact (hraised.congr (by simp) (by simp) (by simp)).joined
  · rw [hfinal]
    exact hclear
  · rw [hfinal]
    exact hsuspect
  · rw [hfinal]
    exact hothers
  · have hsame : SameReaders s decided := .of_same (by rw [hform]; simp [due]) (by rw [hform]; simp [due])
    rw [hfinal, ← htracks]
    exact readersFollow_handed hsame (.concluded (finish_concluded _ _))

end Sys2Proof.Machine
end

section
/-! PROOF. The loss of a unit: what falls with it, what is told of it, and what stays fallen to the end of the arrival (R32, R52,
R78, R137, R149). -/

namespace Sys2Proof.Machine

/-! ### A lever over the end of an arrival -/

/-- The record of lever `n` has a property. -/
def LeverHas (n : Nat) (P : LeverRec → Prop) (s : State) : Prop := ∃ l, recAt s.levers n = some l ∧ P l

/-- A property of lever `n`'s record that no reading of the levers takes from it. -/
structure LeverStays (n : Nat) (P : LeverRec → Prop) : Prop where
  locked : ∀ l, P l → P { l with lock := .locked }
  decided : ∀ s b l, P l → P (decided s b n l)
  tested : ∀ l, P l → P { l with strokeLoss := true, lossTold := true }

section
variable {n : Nat} {P : LeverRec → Prop}

theorem LeverHas.of_levers {s t : State} (h : LeverHas n P s) (hl : t.levers = s.levers) : LeverHas n P t := by
  obtain ⟨l, hr, hp⟩ := h
  exact ⟨l, hl ▸ hr, hp⟩

theorem LeverStays.decideAll (hP : LeverStays n P) (b : Bank) {s : State} (h : LeverHas n P s) : LeverHas n P (decideAll b s) := by
  obtain ⟨l, hr, hp⟩ := h
  refine ⟨Machine.decided s b n l, ?_, hP.decided s b l hp⟩
  have hmap := recAt_mapRec s.levers (fun m => Machine.decided s b m) n
  rw [hr] at hmap
  exact hmap

theorem LeverStays.strokeTest (hP : LeverStays n P) (b : Bank) (ended : List (Nat × Position)) (s : State) (m : Nat)
    (h : LeverHas n P s) : LeverHas n P (strokeTest b ended s m) := by
  have hset : ∀ stood : Position, LeverHas n P (raise (modifyLever s m fun x => { x with strokeLoss := true, lossTold := true })
      .strokeLoss m stood.code) := by
    intro stood
    obtain ⟨l, hr, hp⟩ := h
    refine LeverHas.of_levers (s := modifyLever s m fun x => { x with strokeLoss := true, lossTold := true }) ?_ (by simp)
    by_cases hn : n = m
    · subst hn
      exact ⟨{ l with strokeLoss := true, lossTold := true }, by simp [hr], hP.tested l hp⟩
    · exact ⟨l, by simp [recAt_modifyRec, hn, hr], hp⟩
  unfold Machine.strokeTest
  split
  · split
    · split
      · exact hset _
      · exact h
    · exact h
  · exact h

theorem LeverStays.leverRounds (hP : LeverStays n P) (b : Bank) (ended : List (Nat × Position)) (k : Nat) {s : State}
    (h : LeverHas n P s) : ∀ y ∈ leverRounds b ended k s, LeverHas n P y := by
  induction k generalizing s with
  | zero => exact fun y hy => List.mem_singleton.1 hy ▸ hP.decideAll b h
  | succ k ih =>
    intro y hy
    have hread := hP.decideAll b h
    unfold Machine.leverRounds at hy
    dsimp only at hy
    split at hy
    · exact List.mem_singleton.1 hy ▸ hread
    · rcases List.mem_cons.1 hy with rfl | hy
      · exact hread
      · exact ih (s := strokeTests b ended (Machine.decideAll b s)) (foldl_keeps (hP.strokeTest b ended) _ hread) y hy

theorem LeverStays.concludeLevers (hP : LeverStays n P) (ended : List (Nat × Position)) {s : State} (h : LeverHas n P s) :
    LeverHas n P (concludeLevers ended s) := by
  have hlocked : LeverHas n P { s with levers := s.levers.map fun p => (p.1, lockedUnless (s.part = .running) p.2) } := by
    obtain ⟨l, hr, hp⟩ := h
    have hmap := recAt_mapRec s.levers (fun _ => lockedUnless (s.part = .running)) n
    rw [hr] at hmap
    refine ⟨_, hmap, ?_⟩
    unfold lockedUnless
    split
    · exact hp
    · exact hP.locked l hp
  have hall : ∀ y ∈ leverReadings ended s, LeverHas n P y := by
    unfold leverReadings
    split
    · exact hP.leverRounds _ ended _ hlocked
    · exact fun y hy => List.mem_singleton.1 hy ▸ h
  exact hall _ (getLastD_mem (leverReadings_read ended s).1 s)

theorem LeverHas.startingChecked {s : State} (h : LeverHas n P s) : LeverHas n P (startingChecked s) := by
  rcases startingChecked_cases s with hc | ⟨-, -, hc⟩
  · rw [hc]
    exact h
  · exact h.of_levers (by rw [hc]; simp)

/-- The end of an arrival keeps the property too. -/
theorem LeverStays.finishWith (hP : LeverStays n P) (ended : List (Nat × Position)) (pass : List State) (old : State) {s : State}
    (h : LeverHas n P s) : LeverHas n P (finishWith ended pass old s) := by
  have hread : LeverHas n P ((readingsWith ended s).getLastD s) := by
    rw [readingsWith_last]
    split
    · exact hP.concludeLevers ended h
    · exact hP.concludeLevers [] (hP.concludeLevers ended h).startingChecked
  have hended : ∀ x : State, LeverHas n P x → LeverHas n P (startingEnded x) := by
    intro x hx
    unfold startingEnded
    dsimp only
    split
    · exact hx
    · exact (hP.concludeLevers [] hx.startingChecked).of_levers (by simp only [(settle_settled _ _ _).same])
  have hsettled : LeverHas n P (settle (pass.getLastD old) (readingsWith ended s)
      (settlePass pass ((readingsWith ended s).getLastD s))) := hread.of_levers (by rw [(settle_settled _ _ _).same.2.1, (settlePass_settled _ _).same.2.1])
  exact (hended _ hsettled).of_levers (t := Machine.finishWith ended pass old s) (by
    unfold Machine.finishWith
    simp only [arbiters_same])

end

/-- A lever whose release is UNKNOWN stays so, its lock LOCKED, to the end of the arrival (R72, R73). -/
theorem leverStays_unknown (n : Nat) : LeverStays n fun l => l.release = .unknown ∧ l.lock = .locked where
  locked _ h := ⟨h.1, rfl⟩
  decided s b l h := by
    have hd : decided s b n l = { l with lock := .locked } := by
      unfold decided
      rw [h.1]
      rfl
    rw [hd]
    exact ⟨h.1, rfl⟩
  tested _ h := h

/-! ### The records of objects that fall -/

/-- A lever's record when its unit leaves ACTIVE (R78). -/
def leverFallen (l : LeverRec) : LeverRec := { l with position := .unknown, release := .unknown, lock := .locked }

/-- A section's record when its unit leaves ACTIVE (R137). -/
def sectionFallen (r : SectionRec) : SectionRec := { r with commutator := .unknown }

/-- A lamp's record when its unit leaves ACTIVE, its alarm judged (R149, R150). -/
def lampFallen (part : PartState) (r : LampRec) : LampRec :=
  { r with state := .unknown, last := none, alarm := (alarmJudged part r .unknown).1 }

/-- The LAMP_FAULT of a lamp whose unit leaves ACTIVE, if there is one (R150). -/
def fallEvents (part : PartState) (n : Nat) (r : LampRec) : List (EventKind × Nat × Nat) :=
  alarmEvents n (lampFallen part r) (alarmJudged part r .unknown).2

theorem leverFallen_idem (l : LeverRec) : leverFallen (leverFallen l) = leverFallen l := rfl

theorem trackLostRec_state (r : TrackRec) : (trackLostRec r).state = if r.state = .suspect then .suspect else .failed := by
  unfold trackLostRec
  dsimp only
  split
  · next h => exact h
  · rfl

theorem trackLostRec_idem (r : TrackRec) : trackLostRec (trackLostRec r) = trackLostRec r := by
  obtain ⟨state, _, _, _, _, _, _, _, _, _⟩ := r
  cases state <;> rfl

theorem alarmJudged_unknown (part : PartState) {r : LampRec} (h : r.state = .unknown) : alarmJudged part r .unknown = (r.alarm, none) := by
  unfold alarmJudged alarmStep
  rw [h]
  split <;> rfl

theorem lampFallen_idem (part : PartState) (r : LampRec) : lampFallen part (lampFallen part r) = lampFallen part r := by
  have h := alarmJudged_unknown part (r := lampFallen part r) rfl
  rw [lampFallen, h]
  rfl

theorem fallEvents_fallen (part : PartState) (n : Nat) (r : LampRec) : fallEvents part n (lampFallen part r) = [] := by
  rw [fallEvents, alarmJudged_unknown part (r := lampFallen part r) rfl]
  rfl

/-- A falling lamp is told of, with its alarm raised, exactly where it was LIT and its alarm QUIET or RECOVERED, in a part state
that judges the alarms (R150). -/
theorem mem_fallEvents {part : PartState} {n : Nat} {r : LampRec} {e : EventKind × Nat × Nat} :
    e ∈ fallEvents part n r ↔ (part = .running ∨ part = .tripped) ∧ r.state = .lit ∧ (r.alarm = .quiet ∨ r.alarm = .recovered) ∧
      e = (.lampFault, n, LampState.unknown.code) := by
  rw [← alarmsJudged_iff]
  unfold fallEvents alarmJudged
  cases alarmsJudged part
  · simp [alarmEvents]
  · obtain ⟨state, _, _, a⟩ := r
    cases state <;> cases a <;> simp [alarmStep, alarmEvents, lampFallen]

theorem lampFallen_alarm (part : PartState) (n : Nat) (r : LampRec) :
    (lampFallen part r).alarm = if fallEvents part n r = [] then r.alarm else .alarm := by
  unfold lampFallen fallEvents alarmJudged
  cases alarmsJudged part
  · simp [alarmEvents]
  · obtain ⟨state, _, _, a⟩ := r
    cases state <;> cases a <;> simp [alarmStep, alarmEvents]

/-! ### Lists of objects that fall -/

theorem recAt_foldl_modify {α : Type} (get : State → Recs α) (f : State → Nat → State) (g : α → α)
    (hf : ∀ s n, get (f s n) = modifyRec (get s) n g) (hg : ∀ x, g (g x) = g x) (ns : List Nat) (s : State) (m : Nat) :
    recAt (get (ns.foldl f s)) m = if m ∈ ns then (recAt (get s) m).map g else recAt (get s) m := by
  induction ns generalizing s with
  | nil => simp
  | cons n ns ih =>
    rw [List.foldl_cons, ih, hf, recAt_modifyRec]
    by_cases hm : m = n
    · subst hm
      rw [if_pos rfl, if_pos (List.mem_cons_self ..), Option.map_map, (funext hg : g ∘ g = g), ite_self]
    · rw [if_neg hm]
      simp only [List.mem_cons, hm, false_or]

theorem leversLost_recAt (ns : List Nat) (s : State) (m : Nat) : recAt (ns.foldl leverLost s).levers m =
    if m ∈ ns then (recAt s.levers m).map leverFallen else recAt s.levers m :=
  recAt_foldl_modify State.levers leverLost leverFallen (fun _ _ => rfl) leverFallen_idem ns s m

theorem commutatorsLost_recAt (ns : List Nat) (s : State) (m : Nat) : recAt (ns.foldl commutatorLost s).sections m =
    if m ∈ ns then (recAt s.sections m).map sectionFallen else recAt s.sections m :=
  recAt_foldl_modify State.sections commutatorLost sectionFallen (fun _ _ => rfl) (fun _ => rfl) ns s m

theorem lampLost_eq {s : State} {p : Nat} {r : LampRec} (h : recAt s.lamps p = some r) :
    lampLost s p = raiseAll (modifyLamp s p fun _ => lampFallen s.part r) (fallEvents s.part p r) := by
  unfold lampLost changeLamp
  rw [h]
  exact raiseAlarm_eq _ p (lampFallen s.part r) _

theorem lampLost_none {s : State} {p : Nat} (h : recAt s.lamps p = none) : lampLost s p = s := by
  unfold lampLost
  rw [h]

theorem lampLost_recAt (s : State) (p m : Nat) :
    recAt (lampLost s p).lamps m = if m = p then (recAt s.lamps m).map (lampFallen s.part) else recAt s.lamps m := by
  cases hp : recAt s.lamps p with
  | none =>
    rw [lampLost_none hp]
    split
    · next h => rw [h, hp, Option.map_none]
    · rfl
  | some r =>
    rw [lampLost_eq hp]
    simp only [raiseAll_same, modifyLamp_lamps, recAt_modifyRec]
    split
    · next h => rw [h, hp, Option.map_some, Option.map_some]
    · rfl

/-- The lamps of a list fall, each told of as it stood before. -/
theorem lampsLost_recAt (ns : List Nat) (s : State) (m : Nat) : recAt (ns.foldl lampLost s).lamps m =
    if m ∈ ns then (recAt s.lamps m).map (lampFallen s.part) else recAt s.lamps m := by
  induction ns generalizing s with
  | nil => simp
  | cons n ns ih =>
    rw [List.foldl_cons, ih, lampLost_recAt, show (lampLost s n).part = s.part by simp]
    by_cases hm : m = n
    · subst hm
      rw [if_pos rfl, if_pos (List.mem_cons_self ..), Option.map_map,
        (funext (lampFallen_idem s.part) : lampFallen s.part ∘ lampFallen s.part = lampFallen s.part), ite_self]
    · rw [if_neg hm]
      simp only [List.mem_cons, hm, false_or]

theorem lampsLost_raised (ns : List Nat) {s x : State} {new : List (EventKind × Nat × Nat)} (h : Raised s x new) :
    ∃ more, Raised s (ns.foldl lampLost x) (new ++ more) ∧
      ∀ e, e ∈ more ↔ ∃ n r, n ∈ ns ∧ recAt x.lamps n = some r ∧ e ∈ fallEvents x.part n r := by
  induction ns generalizing x new with
  | nil => exact ⟨[], by simpa using h, by simp⟩
  | cons n ns ih =>
    have hpart : (lampLost x n).part = x.part := by simp
    have hfirst : ∃ first, Raised s (lampLost x n) (new ++ first) ∧
        ∀ e, e ∈ first ↔ ∃ r, recAt x.lamps n = some r ∧ e ∈ fallEvents x.part n r := by
      cases hn : recAt x.lamps n with
      | none =>
        rw [lampLost_none hn]
        exact ⟨[], by simpa using h, by simp⟩
      | some r =>
        rw [lampLost_eq hn]
        have hlamp : Raised s (modifyLamp x n fun _ => lampFallen x.part r) new := h.congr rfl rfl rfl
        exact ⟨fallEvents x.part n r, hlamp.raiseAll _, by simp⟩
    obtain ⟨first, hraised, hmem⟩ := hfirst
    obtain ⟨more, hmore, hmems⟩ := ih hraised
    refine ⟨first ++ more, by rw [← List.append_assoc]; exact hmore, fun e => ?_⟩
    rw [List.mem_append, hmem, hmems, hpart]
    constructor
    · rintro (⟨r, hr, he⟩ | ⟨m, r, hm, hr, he⟩)
      · exact ⟨n, r, List.mem_cons_self .., hr, he⟩
      · rw [lampLost_recAt] at hr
        split at hr
        · next hmn =>
          obtain ⟨y, hy, rfl⟩ := Option.map_eq_some_iff.1 hr
          rw [fallEvents_fallen] at he
          cases he
        · exact ⟨m, r, List.mem_cons_of_mem _ hm, hr, he⟩
    · rintro ⟨m, r, hm, hr, he⟩
      by_cases hmn : m = n
      · subst hmn
        exact .inl ⟨r, hr, he⟩
      · refine .inr ⟨m, r, (List.mem_cons.1 hm).resolve_left hmn, ?_, he⟩
        rw [lampLost_recAt, if_neg hmn, hr]

end Sys2Proof.Machine
end

section
/-! PROOF. The objects of a unit fall, and their readers follow; the report timer, failing returns and REPROBE_UNIT. -/

namespace Sys2Proof.Machine

/-! ### Readers of tracks that fall -/

/-- Changes of tracks that all fall to FAILED (R52). -/
def Falling (m : Nat → Option (TrackState × TrackState)) : Prop := ∀ t x y, m t = some (x, y) → y = .failed

/-- A fall of an arrival track loses the progress that is not PROVEN (R141). -/
def fallProgress (m : Nat → Option (TrackState × TrackState)) (tracks : List Nat) (p : Progress) : Progress :=
  match p with
  | .proven => .proven
  | .seen k => if tracks.any fun t => (m t).isSome then .seen 0 else .seen k

theorem progressOver_fall {m : Nat → Option (TrackState × TrackState)} (h : Falling m) (count : Nat) (tracks : List Nat) (p : Progress)
    (place : Nat) : progressOver count m p place tracks = fallProgress m tracks p := by
  induction tracks generalizing p place with
  | nil => cases p <;> rfl
  | cons t rest ih =>
    unfold progressOver
    rw [ih]
    cases hm : m t with
    | none => cases p <;> simp [fallProgress, hm]
    | some z =>
      obtain ⟨x, y⟩ := z
      obtain rfl := h t x y hm
      cases p <;> simp [fallProgress, progressStep, hm]

/-- The exit track of a section leaves CLEAR under a far CLEAR (R135). -/
def spends (e : SectionEntry) (m : Nat → Option (TrackState × TrackState)) (r : SectionRec) : Bool :=
  match e.exitOf with
  | some t =>
    match m t with
    | some (old, _) => decide (old = .clear) && decide (r.far = .clear)
    | none => false
  | none => false

theorem sectionOnTracks_far (e : SectionEntry) (m : Nat → Option (TrackState × TrackState)) (r : SectionRec) :
    (sectionOnTracks e m r).far = r.far := rfl

theorem sectionOnTracks_fall {m : Nat → Option (TrackState × TrackState)} (h : Falling m) (e : SectionEntry) (r : SectionRec) :
    sectionOnTracks e m r = { r with
      consumed := r.consumed || spends e m r,
      progress := if r.own = .onLine ∧ e.dir ≠ .outbound then fallProgress m e.arrivalTracks r.progress else r.progress } := by
  unfold sectionOnTracks
  dsimp only
  rw [progressOver_fall h]
  congr 1
  by_cases ho : r.own = .onLine <;> by_cases hd : e.dir = .outbound <;> simp [ho, hd]

/-- One after the other, falls make of a section what they make at once. -/
theorem sectionOnTracks_falls {m₁ m₂ m : Nat → Option (TrackState × TrackState)} (h₁ : Falling m₁) (h₂ : Falling m₂)
    (h : ∀ t, (m₁ t = none ∧ m t = m₂ t) ∨ (m₂ t = none ∧ m t = m₁ t)) (e : SectionEntry) (r : SectionRec) :
    sectionOnTracks e m₂ (sectionOnTracks e m₁ r) = sectionOnTracks e m r := by
  have hfall : Falling m := by
    intro t x y ht
    rcases h t with ⟨-, he⟩ | ⟨-, he⟩
    · exact h₂ t x y (he ▸ ht)
    · exact h₁ t x y (he ▸ ht)
  have hany : ∀ tracks : List Nat, (tracks.any fun t => (m t).isSome) =
      ((tracks.any fun t => (m₁ t).isSome) || tracks.any fun t => (m₂ t).isSome) := by
    intro tracks
    induction tracks with
    | nil => rfl
    | cons t rest ih =>
      rw [List.any_cons, List.any_cons, List.any_cons, ih]
      rcases h t with ⟨hn, he⟩ | ⟨hn, he⟩ <;> rw [he, hn] <;> cases (m₁ t).isSome <;> cases (m₂ t).isSome <;> simp
  have hprogress : ∀ tracks p, fallProgress m₂ tracks (fallProgress m₁ tracks p) = fallProgress m tracks p := by
    intro tracks p
    cases p with
    | proven => rfl
    | seen k =>
      unfold fallProgress
      rw [hany]
      cases tracks.any fun t => (m₁ t).isSome <;> cases tracks.any fun t => (m₂ t).isSome <;> rfl
  have hspent : spends e m r = (spends e m₁ r || spends e m₂ (sectionOnTracks e m₁ r)) := by
    unfold spends
    rw [sectionOnTracks_far]
    cases e.exitOf with
    | none => rfl
    | some t => rcases h t with ⟨hn, he⟩ | ⟨hn, he⟩ <;> simp only [he, hn, Bool.false_or, Bool.or_false]
  rw [sectionOnTracks_fall hfall, sectionOnTracks_fall h₂, hspent, sectionOnTracks_fall h₁]
  dsimp only
  rw [Bool.or_assoc]
  congr 1
  split
  · exact hprogress _ _
  · rfl

/-! ### What has fallen -/

/-- The records of the numbers `lost` have gone to the values that `g` gives, the others are kept. -/
def Gone {α : Type} (g : α → α) (lost : Nat → Prop) (old new : Recs α) : Prop :=
  ∀ n, (lost n → recAt new n = (recAt old n).map g) ∧ (¬ lost n → recAt new n = recAt old n)

theorem Gone.refl {α : Type} (g : α → α) {lost : Nat → Prop} (h : ∀ n, ¬ lost n) {old new : Recs α} (he : new = old) :
    Gone g lost old new := fun n => ⟨fun hn => (h n hn).elim, fun _ => by rw [he]⟩

theorem Gone.congr {α : Type} {g : α → α} {lost lost' : Nat → Prop} {old new new' : Recs α} (h : Gone g lost old new)
    (hl : ∀ n, lost' n ↔ lost n) (he : new' = new) : Gone g lost' old new' := fun n => by
  rw [he, hl]
  exact h n

/-- More records go, of which some may have gone before. -/
theorem Gone.add {α : Type} {g : α → α} (hg : ∀ x, g (g x) = g x) {lost lost' : Nat → Prop} {old mid new : Recs α}
    (h : Gone g lost old mid) {ns : List Nat} (hl : ∀ n, lost' n ↔ lost n ∨ n ∈ ns)
    (hn : ∀ n, recAt new n = if n ∈ ns then (recAt mid n).map g else recAt mid n) : Gone g lost' old new := by
  intro n
  obtain ⟨hgone, hkept⟩ := h n
  rw [hl, hn]
  by_cases hm : n ∈ ns
  · rw [if_pos hm]
    refine ⟨fun _ => ?_, fun hno => absurd (.inr hm) hno⟩
    by_cases hlost : lost n
    · rw [hgone hlost, Option.map_map, (funext hg : g ∘ g = g)]
    · rw [hkept hlost]
  · rw [if_neg hm]
    exact ⟨fun ho => hgone (ho.resolve_right hm), fun hno => hkept fun ho => hno (.inl ho)⟩

/-- The sections once the changes between `s.tracks` and `ts` are handed on as one pass (R53). -/
def sectionsFollowed (b : Bank) (s : State) (ts : Recs TrackRec) : Recs SectionRec :=
  s.sections.map fun p => (p.1, sectionOnTracks (b.sectionEntry p.1) (onePass s.tracks ts).move p.2)

theorem sectionsFollowed_recAt (b : Bank) (s : State) (ts : Recs TrackRec) (n : Nat) : recAt (sectionsFollowed b s ts) n =
    (recAt s.sections n).map (sectionOnTracks (b.sectionEntry n) (onePass s.tracks ts).move) :=
  recAt_mapRec s.sections (fun n => sectionOnTracks (b.sectionEntry n) (onePass s.tracks ts).move) n

/-- Between `s` and `x` the objects `lost` of each kind have fallen and no other object of a kind has changed, the readers of
tracks have followed, and `new` are the events of the lamps (R32, R52, R53, R78, R137, R149). -/
structure Fell (b : Bank) (lost : UnitKind → Nat → Prop) (s x : State) (new : List (EventKind × Nat × Nat)) : Prop where
  part : x.part = s.part
  tracks : Gone trackLostRec (lost .tu) s.tracks x.tracks
  levers : Gone leverFallen (lost .lfu) s.levers x.levers
  lamps : Gone (lampFallen s.part) (lost .lu) s.lamps x.lamps
  sections : Gone sectionFallen (lost .iu) (sectionsFollowed b s x.tracks) x.sections
  told : ∀ e, e ∈ new ↔ ∃ n r, lost .lu n ∧ recAt s.lamps n = some r ∧ e ∈ fallEvents s.part n r

theorem move_same {old new : Recs TrackRec} {n : Nat} (h : recAt new n = recAt old n) : (onePass old new).move n = none := by
  rcases hm : (onePass old new).move n with _ | ⟨x, y⟩
  · rfl
  · obtain ⟨hbefore, hafter, hne⟩ := TrackPass.move_some.1 hm
    simp only [onePass, trackState, h] at hbefore hafter
    exact absurd (Option.some.inj (hbefore.symm.trans hafter)) hne

theorem falling_none {m : Nat → Option (TrackState × TrackState)} (h : ∀ t, m t = none) : Falling m := fun t x y ht => by
  rw [h t] at ht
  cases ht

theorem sectionOnTracks_still {m : Nat → Option (TrackState × TrackState)} (h : ∀ t, m t = none) (e : SectionEntry)
    (r : SectionRec) : sectionOnTracks e m r = r := by
  rw [sectionOnTracks_fall (falling_none h)]
  have hspends : spends e m r = false := by
    unfold spends
    split
    · rw [h]
    · rfl
  have hprogress : fallProgress m e.arrivalTracks r.progress = r.progress := by
    unfold fallProgress
    split
    · next hp => exact hp.symm
    · next k hp =>
      rw [if_neg (by simp [h]), hp]
  rw [hspends, hprogress, Bool.or_false, ite_self]

theorem sectionsFollowed_still {b : Bank} {s : State} {ts : Recs TrackRec} (h : ∀ n, recAt ts n = recAt s.tracks n) (n : Nat) :
    recAt (sectionsFollowed b s ts) n = recAt s.sections n := by
  rw [sectionsFollowed_recAt]
  cases recAt s.sections n with
  | none => rfl
  | some r => rw [Option.map_some, sectionOnTracks_still fun t => move_same (h t)]

/-- What stands as it stood has not fallen. -/
theorem Fell.refl (b : Bank) {s x : State} (hpart : x.part = s.part) (ht : x.tracks = s.tracks) (hl : x.levers = s.levers)
    (hlamps : x.lamps = s.lamps) (hsections : x.sections = s.sections) : Fell b (fun _ _ => False) s x [] where
  part := hpart
  tracks := .refl _ (fun _ h => h) ht
  levers := .refl _ (fun _ h => h) hl
  lamps := .refl _ (fun _ h => h) hlamps
  sections n := ⟨False.elim, fun _ => by rw [hsections, sectionsFollowed_still fun m => by rw [ht]]⟩
  told e := by simp

/-- Objects `ns` of kind `k` are lost besides `lost`. -/
def lostWith (lost : UnitKind → Nat → Prop) (k : UnitKind) (ns : List Nat) (k' : UnitKind) (n : Nat) : Prop :=
  lost k' n ∨ (k' = k ∧ n ∈ ns)

theorem lostWith_self (lost : UnitKind → Nat → Prop) (k : UnitKind) (ns : List Nat) (n : Nat) :
    lostWith lost k ns k n ↔ lost k n ∨ n ∈ ns := by simp [lostWith]

theorem lostWith_other {lost : UnitKind → Nat → Prop} {k k' : UnitKind} (h : k' ≠ k) (ns : List Nat) (n : Nat) :
    lostWith lost k ns k' n ↔ lost k' n := by simp [lostWith, h]

section
variable {b : Bank} {lost : UnitKind → Nat → Prop} {s x : State} {new : List (EventKind × Nat × Nat)}

theorem Fell.told_other (h : Fell b lost s x new) {k : UnitKind} (hk : UnitKind.lu ≠ k) (ns : List Nat) (e : EventKind × Nat × Nat) :
    e ∈ new ↔ ∃ n r, lostWith lost k ns .lu n ∧ recAt s.lamps n = some r ∧ e ∈ fallEvents s.part n r := by
  simp only [lostWith_other hk]
  exact h.told e

theorem leversLost_form (ns : List Nat) (x : State) : ∃ ls, ns.foldl leverLost x = { x with levers := ls } := by
  induction ns generalizing x with
  | nil => exact ⟨x.levers, rfl⟩
  | cons n ns ih =>
    obtain ⟨ls, h⟩ := ih (leverLost x n)
    exact ⟨ls, h⟩

theorem commutatorsLost_form (ns : List Nat) (x : State) : ∃ rs, ns.foldl commutatorLost x = { x with sections := rs } := by
  induction ns generalizing x with
  | nil => exact ⟨x.sections, rfl⟩
  | cons n ns ih =>
    obtain ⟨rs, h⟩ := ih (commutatorLost x n)
    exact ⟨rs, h⟩

theorem lampsLost_form (ns : List Nat) (x : State) : ∃ ps v q n y p, ns.foldl lampLost x =
    { x with lamps := ps, events := v, outQueue := q, seq := n, sending := y, pendingReturns := p } := by
  induction ns generalizing x with
  | nil => exact ⟨_, _, _, _, _, _, rfl⟩
  | cons n ns ih =>
    obtain ⟨ps, v, q, k, y, p, h⟩ := ih (lampLost x n)
    rw [List.foldl_cons, h]
    cases hn : recAt x.lamps n with
    | none =>
      rw [lampLost_none hn]
      exact ⟨_, _, _, _, _, _, rfl⟩
    | some r =>
      rw [lampLost_eq hn]
      obtain ⟨v', q', k', y', p', h'⟩ := raiseAll_form (modifyLamp x n fun _ => lampFallen x.part r) (fallEvents x.part n r)
      rw [h']
      exact ⟨_, _, _, _, _, _, rfl⟩

theorem Fell.leversLost (h : Fell b lost s x new) (ns : List Nat) :
    Fell b (lostWith lost .lfu ns) s (ns.foldl Machine.leverLost x) new := by
  have hlevers := leversLost_recAt ns x
  obtain ⟨ls, hform⟩ := leversLost_form ns x
  rw [hform] at hlevers ⊢
  exact {
    part := h.part
    tracks := h.tracks.congr (lostWith_other (by decide) ns) rfl
    levers := h.levers.add leverFallen_idem (lostWith_self lost .lfu ns) hlevers
    lamps := h.lamps.congr (lostWith_other (by decide) ns) rfl
    sections := h.sections.congr (lostWith_other (by decide) ns) rfl
    told := h.told_other (by decide) ns }

theorem sectionFallen_idem (r : SectionRec) : sectionFallen (sectionFallen r) = sectionFallen r := rfl

theorem Fell.commutatorsLost (h : Fell b lost s x new) (ns : List Nat) :
    Fell b (lostWith lost .iu ns) s (ns.foldl Machine.commutatorLost x) new := by
  have hsections := commutatorsLost_recAt ns x
  obtain ⟨rs, hform⟩ := commutatorsLost_form ns x
  rw [hform] at hsections ⊢
  exact {
    part := h.part
    tracks := h.tracks.congr (lostWith_other (by decide) ns) rfl
    levers := h.levers.congr (lostWith_other (by decide) ns) rfl
    lamps := h.lamps.congr (lostWith_other (by decide) ns) rfl
    sections := h.sections.add sectionFallen_idem (lostWith_self lost .iu ns) hsections
    told := h.told_other (by decide) ns }

/-- A lamp that has fallen stands as it fell. -/
theorem Fell.lamp_cases (h : Fell b lost s x new) (n : Nat) :
    recAt x.lamps n = recAt s.lamps n ∨ (lost .lu n ∧ recAt x.lamps n = (recAt s.lamps n).map (lampFallen s.part)) := by
  by_cases hn : lost .lu n
  · exact .inr ⟨hn, (h.lamps n).1 hn⟩
  · exact .inl ((h.lamps n).2 hn)

theorem Fell.lampsLost (h : Fell b lost s x new) (ns : List Nat) {more : List (EventKind × Nat × Nat)}
    (hmore : ∀ e, e ∈ more ↔ ∃ n r, n ∈ ns ∧ recAt x.lamps n = some r ∧ e ∈ fallEvents x.part n r) :
    Fell b (lostWith lost .lu ns) s (ns.foldl Machine.lampLost x) (new ++ more) := by
  have hlamps := lampsLost_recAt ns x
  rw [h.part] at hlamps hmore
  obtain ⟨ps, v, q, k, y, p, hform⟩ := lampsLost_form ns x
  rw [hform] at hlamps ⊢
  refine {
    part := h.part
    tracks := h.tracks.congr (lostWith_other (by decide) ns) rfl
    levers := h.levers.congr (lostWith_other (by decide) ns) rfl
    lamps := h.lamps.add (lampFallen_idem s.part) (lostWith_self lost .lu ns) hlamps
    sections := h.sections.congr (lostWith_other (by decide) ns) rfl
    told := fun e => ?_ }
  rw [List.mem_append, h.told, hmore]
  simp only [lostWith_self]
  constructor
  · rintro (⟨n, r, hn, hr, he⟩ | ⟨n, r, hn, hr, he⟩)
    · exact ⟨n, r, .inl hn, hr, he⟩
    · rcases h.lamp_cases n with hk | ⟨hl, hg⟩
      · exact ⟨n, r, .inr hn, hk ▸ hr, he⟩
      · rw [hg] at hr
        obtain ⟨z, -, rfl⟩ := Option.map_eq_some_iff.1 hr
        rw [fallEvents_fallen] at he
        cases he
  · rintro ⟨n, r, hn, hr, he⟩
    by_cases hl : lost .lu n
    · exact .inl ⟨n, r, hl, hr, he⟩
    · exact .inr ⟨n, r, hn.resolve_left hl, (h.lamps n).2 hl ▸ hr, he⟩

end

/-! ### Tracks that fall -/

theorem gone_falling {lost : Nat → Prop} {old new : Recs TrackRec} (h : Gone trackLostRec lost old new) :
    Falling (onePass old new).move := by
  intro t x y hm
  obtain ⟨hbefore, hafter, hne⟩ := TrackPass.move_some.1 hm
  simp only [onePass, trackState] at hbefore hafter
  obtain ⟨r, hr, rfl⟩ := Option.map_eq_some_iff.1 hbefore
  by_cases hl : lost t
  · rw [(h t).1 hl, hr] at hafter
    simp only [Option.map_some, Option.some.injEq, trackLostRec_state] at hafter
    split at hafter
    · next hs => exact absurd (hs.trans hafter) hne
    · exact hafter.symm
  · rw [(h t).2 hl, hr] at hafter
    exact absurd (Option.some.inj hafter) hne

theorem approachAfter_fall {old : Recs TrackRec} {x : State} (h : Falling (onePass old x.tracks).move) (b : Bank) (n : Nat)
    (l : LeverRec) : approachAfter old b x n l = l := by
  unfold approachAfter
  dsimp only
  rw [Bool.and_assoc, if_neg]
  intro hc
  obtain ⟨⟨m, hm, hne, hsome⟩, hclear⟩ := (leavesAllClear_iff old x _).1 ((Bool.and_eq_true _ _).mp hc).2
  obtain ⟨y, hy⟩ := Option.ne_none_iff_exists'.1 hsome
  have hmove := TrackPass.move_some.2 ⟨hy, hclear m hm, fun he => hne (by rw [hy, hclear m hm, he])⟩
  cases h m _ _ hmove

/-- A pass in which one of two falls moves a track. -/
theorem move_falls {lost : Nat → Prop} {ns : List Nat} {old mid new : Recs TrackRec} (h : Gone trackLostRec lost old mid)
    (hn : ∀ n, recAt new n = if n ∈ ns then (recAt mid n).map trackLostRec else recAt mid n) (t : Nat) :
    ((onePass old mid).move t = none ∧ (onePass old new).move t = (onePass mid new).move t) ∨
    ((onePass mid new).move t = none ∧ (onePass old new).move t = (onePass old mid).move t) := by
  by_cases hl : lost t
  · have hsame : recAt new t = recAt mid t := by
      rw [hn, (h t).1 hl, Option.map_map, (funext trackLostRec_idem : trackLostRec ∘ trackLostRec = trackLostRec), ite_self]
    refine .inr ⟨move_same hsame, ?_⟩
    simp only [TrackPass.move, onePass, trackState, hsame]
  · have hsame := (h t).2 hl
    refine .inl ⟨move_same hsame, ?_⟩
    simp only [TrackPass.move, onePass, trackState, hsame]

theorem Fell.tracksLost {b : Bank} {lost : UnitKind → Nat → Prop} {s x : State} {new : List (EventKind × Nat × Nat)}
    (h : Fell b lost s x new) (ns : List Nat) : Fell b (lostWith lost .tu ns) s (Machine.tracksLost b ns x) new := by
  let fallen : State := { x with tracks := x.tracks.map fun p => if ns.contains p.1 then (p.1, trackLostRec p.2) else p }
  have htracks : ∀ n, recAt fallen.tracks n = if n ∈ ns then (recAt x.tracks n).map trackLostRec else recAt x.tracks n := by
    intro n
    have hmap := recAt_mapRec x.tracks (fun n r => if n ∈ ns then trackLostRec r else r) n
    have hlist : fallen.tracks = x.tracks.map fun p => (p.1, if p.1 ∈ ns then trackLostRec p.2 else p.2) := by
      refine List.map_congr_left fun p _ => ?_
      by_cases hp : p.1 ∈ ns <;> simp [hp]
    rw [hlist, hmap]
    by_cases hn : n ∈ ns
    · simp only [hn, if_true]
    · simp only [hn, if_false, Option.map_id']
  have hgone := h.tracks.add trackLostRec_idem (lostWith_self lost .tu ns) htracks
  have hfalling : Falling (onePass x.tracks fallen.tracks).move := by
    have hfirst : Gone trackLostRec (· ∈ ns) x.tracks fallen.tracks := (Gone.refl trackLostRec (lost := fun _ => False)
      (fun _ h => h) rfl).add trackLostRec_idem (by simp) htracks
    exact gone_falling hfirst
  have hresult : (Machine.tracksLost b ns x).tracks = fallen.tracks := rfl
  have hsections : ∀ n, recAt (Machine.tracksLost b ns x).sections n =
      (recAt x.sections n).map (sectionOnTracks (b.sectionEntry n) (onePass x.tracks fallen.tracks).move) :=
    tracksHanded_section x.tracks b fallen
  have hlevers : ∀ n, recAt (Machine.tracksLost b ns x).levers n = recAt x.levers n := by
    intro n
    have hmap : recAt (Machine.tracksLost b ns x).levers n = (recAt x.levers n).map (approachAfter x.tracks b fallen n) :=
      tracksHanded_lever x.tracks b fallen n
    rw [hmap, (funext (approachAfter_fall hfalling b n) : approachAfter x.tracks b fallen n = id), Option.map_id_fun, id]
  have hboth : ∀ n r, sectionOnTracks (b.sectionEntry n) (onePass x.tracks fallen.tracks).move
      (sectionOnTracks (b.sectionEntry n) (onePass s.tracks x.tracks).move r) =
      sectionOnTracks (b.sectionEntry n) (onePass s.tracks fallen.tracks).move r := fun n r =>
    sectionOnTracks_falls (gone_falling h.tracks) hfalling (move_falls h.tracks htracks) _ r
  refine {
    part := h.part
    tracks := hresult ▸ hgone
    levers := fun n => ?_
    lamps := h.lamps.congr (lostWith_other (by decide) ns) rfl
    sections := fun n => ?_
    told := h.told_other (by decide) ns }
  · rw [hlevers, lostWith_other (by decide)]
    exact h.levers n
  · rw [hsections, lostWith_other (by decide), sectionsFollowed_recAt, hresult]
    have hbefore := h.sections n
    rw [sectionsFollowed_recAt] at hbefore
    refine ⟨fun hl => ?_, fun hl => ?_⟩
    · rw [hbefore.1 hl]
      cases recAt s.sections n with
      | none => rfl
      | some r => exact congrArg (fun z => some (sectionFallen z)) (hboth n r)
    · rw [hbefore.2 hl]
      cases recAt s.sections n with
      | none => rfl
      | some r => exact congrArg some (hboth n r)

/-! ### The loss of a unit -/

/-- The objects that the channels of the unit at an address serve. -/
def unitObjects (b : Bank) (a : Nat) : List Nat := (b.assignedChannels a).map Prod.snd

theorem Fell.same {b : Bank} {lost : UnitKind → Nat → Prop} {s x y : State} {new : List (EventKind × Nat × Nat)}
    (h : Fell b lost s x new) (hpart : y.part = x.part) (ht : y.tracks = x.tracks) (hl : y.levers = x.levers)
    (hlamps : y.lamps = x.lamps) (hsections : y.sections = x.sections) : Fell b lost s y new where
  part := hpart.trans h.part
  tracks := ht ▸ h.tracks
  levers := hl ▸ h.levers
  lamps := hlamps ▸ h.lamps
  sections := hsections ▸ ht ▸ h.sections
  told := h.told

/-- Units of some kinds serve no object that falls. -/
theorem Fell.nothing {b : Bank} {lost : UnitKind → Nat → Prop} {s x : State} {new : List (EventKind × Nat × Nat)}
    (h : Fell b lost s x new) {k : UnitKind} (hk : k = .du ∨ k = .mt ∨ k = .none) (ns : List Nat) :
    Fell b (lostWith lost k ns) s x new := by
  have hother : ∀ k' : UnitKind, k' = .tu ∨ k' = .lfu ∨ k' = .lu ∨ k' = .iu → k' ≠ k := by
    rintro k' (rfl | rfl | rfl | rfl) rfl <;> simp at hk
  exact {
    part := h.part
    tracks := h.tracks.congr (lostWith_other (hother _ (by simp)) ns) rfl
    levers := h.levers.congr (lostWith_other (hother _ (by simp)) ns) rfl
    lamps := h.lamps.congr (lostWith_other (hother _ (by simp)) ns) rfl
    sections := h.sections.congr (lostWith_other (hother _ (by simp)) ns) rfl
    told := h.told_other (hother _ (by simp)) ns }

/-- The objects of one more unit fall. -/
theorem Fell.unit {b : Bank} {lost : UnitKind → Nat → Prop} {d s x : State} {new all : List (EventKind × Nat × Nat)}
    (h : Fell b lost s x new) (hr : Raised d x all) (a : Nat) :
    ∃ more, Fell b (lostWith lost (b.kindAt a) (unitObjects b a)) s (unitObjectsLost b a x) (new ++ more) ∧
      Raised d (unitObjectsLost b a x) (all ++ more) := by
  unfold unitObjectsLost objectsLost
  cases hk : b.kindAt a
  case lfu =>
    obtain ⟨ls, hform⟩ := leversLost_form (unitObjects b a) x
    have hraised : Raised d ((unitObjects b a).foldl Machine.leverLost x) all := hr.congr (by rw [hform]) (by rw [hform]) (by rw [hform])
    exact ⟨[], by rw [List.append_nil]; exact h.leversLost (unitObjects b a), by rw [List.append_nil]; exact hraised⟩
  case tu =>
    have hraised : Raised d (Machine.tracksLost b (unitObjects b a) x) all := hr.congr (by simp) (by simp) (by simp)
    exact ⟨[], by rw [List.append_nil]; exact h.tracksLost (unitObjects b a), by rw [List.append_nil]; exact hraised⟩
  case lu =>
    obtain ⟨more, hraised, hmore⟩ := lampsLost_raised (unitObjects b a) hr
    exact ⟨more, h.lampsLost (unitObjects b a) hmore, hraised⟩
  case iu =>
    obtain ⟨rs, hform⟩ := commutatorsLost_form (unitObjects b a) x
    have hraised : Raised d ((unitObjects b a).foldl Machine.commutatorLost x) all :=
      hr.congr (by rw [hform]) (by rw [hform]) (by rw [hform])
    exact ⟨[], by rw [List.append_nil]; exact h.commutatorsLost (unitObjects b a), by rw [List.append_nil]; exact hraised⟩
  case du => exact ⟨[], by rw [List.append_nil]; exact h.nothing (.inl rfl) (unitObjects b a), by rw [List.append_nil]; exact hr⟩
  case mt => exact ⟨[], by rw [List.append_nil]; exact h.nothing (.inr (.inl rfl)) (unitObjects b a), by rw [List.append_nil]; exact hr⟩
  case none => exact ⟨[], by rw [List.append_nil]; exact h.nothing (.inr (.inr rfl)) (unitObjects b a), by rw [List.append_nil]; exact hr⟩

/-- Where the event queue holds an event already, an event places no notice. -/
theorem raise_told {s : State} (h : s.events ≠ []) (k : EventKind) (o d : Nat) :
    ∃ v, raise s k o d = { s with events := v } ∧ v ≠ [] := by
  have hstart : Raised s s [] := .of_same rfl rfl
  have hne := (hstart.raise (k, o, d)).events_ne_nil (by simp)
  have heq : raise s k o d = joinEvent s k o d := by
    unfold raise
    dsimp only
    rw [if_neg (by simpa using h)]
  rw [heq] at hne
  exact ⟨_, heq, hne⟩

theorem raiseAll_told (es : List (EventKind × Nat × Nat)) {s : State} (h : s.events ≠ []) :
    ∃ v, raiseAll s es = { s with events := v } ∧ v ≠ [] := by
  induction es generalizing s with
  | nil => exact ⟨s.events, rfl, h⟩
  | cons e es ih =>
    obtain ⟨v, hv, hne⟩ := raise_told h e.1 e.2.1 e.2.2
    obtain ⟨w, hw, hwne⟩ := ih (s := { s with events := v }) hne
    refine ⟨w, ?_, hwne⟩
    show raiseAll (raise s e.1 e.2.1 e.2.2) es = _
    rw [hv, hw]

theorem lampsLost_told (ns : List Nat) {x : State} (h : x.events ≠ []) :
    ∃ ps v, ns.foldl lampLost x = { x with lamps := ps, events := v } ∧ v ≠ [] := by
  induction ns generalizing x with
  | nil => exact ⟨_, _, rfl, h⟩
  | cons n ns ih =>
    rw [List.foldl_cons]
    cases hn : recAt x.lamps n with
    | none =>
      rw [lampLost_none hn]
      exact ih h
    | some r =>
      rw [lampLost_eq hn]
      obtain ⟨v, hv, hne⟩ := raiseAll_told (fallEvents x.part n r) (s := modifyLamp x n fun _ => lampFallen x.part r) h
      rw [hv]
      obtain ⟨ps, w, hw, hwne⟩ := ih (x := { modifyLamp x n fun _ => lampFallen x.part r with events := v }) hne
      exact ⟨ps, w, hw, hwne⟩

/-- Once an event stands in the queue, the loss of a unit's objects changes their records and the event queue alone. -/
theorem unitObjectsLost_told {x : State} (h : x.events ≠ []) (b : Bank) (a : Nat) :
    ∃ ts ls ps ns v, unitObjectsLost b a x = { x with tracks := ts, levers := ls, lamps := ps, sections := ns, events := v } ∧
      v ≠ [] ∧ (b.kindAt a ≠ .tu → ts = x.tracks) ∧ (b.kindAt a ≠ .tu → b.kindAt a ≠ .lfu → ls = x.levers) ∧
      (b.kindAt a ≠ .lu → ps = x.lamps) ∧ (b.kindAt a ≠ .tu → b.kindAt a ≠ .iu → ns = x.sections) := by
  unfold unitObjectsLost objectsLost
  cases hk : b.kindAt a
  case tu => exact ⟨_, _, _, _, _, rfl, h, fun hn => absurd rfl hn, fun hn => absurd rfl hn, fun _ => rfl, fun hn => absurd rfl hn⟩
  case lfu =>
    obtain ⟨ls, hform⟩ := leversLost_form (unitObjects b a) x
    exact ⟨_, ls, _, _, _, hform, h, fun _ => rfl, fun _ hn => absurd rfl hn, fun _ => rfl, fun _ _ => rfl⟩
  case lu =>
    obtain ⟨ps, v, hform, hne⟩ := lampsLost_told (unitObjects b a) h
    exact ⟨_, _, ps, _, v, hform, hne, fun _ => rfl, fun _ _ => rfl, fun hn => absurd rfl hn, fun _ _ => rfl⟩
  case iu =>
    obtain ⟨ns, hform⟩ := commutatorsLost_form (unitObjects b a) x
    exact ⟨_, _, _, ns, _, hform, h, fun _ => rfl, fun _ _ => rfl, fun _ => rfl, fun _ hn => absurd rfl hn⟩
  case du | mt | none => exact ⟨_, _, _, _, _, rfl, h, fun _ => rfl, fun _ _ => rfl, fun _ => rfl, fun _ _ => rfl⟩

/-! ### What follows for the whole -/

section
variable {b : Bank} {lost : UnitKind → Nat → Prop} {s x : State} {new : List (EventKind × Nat × Nat)}

theorem Fell.lampsFell (h : Fell b lost s x new) {gone : Nat → Prop}
    (hgone : ∀ n, lost .lu n ↔ ∃ a, gone a ∧ b.kindAt a = .lu ∧ n ∈ unitObjects b a) : LampsFell b gone s x new where
  only k hk := by
    obtain ⟨n, r, -, -, he⟩ := (h.told k).1 hk
    rw [(mem_fallEvents.1 he).2.2.2]
  raised n d := by
    rw [h.told]
    constructor
    · rintro ⟨m, r, hm, hr, he⟩
      obtain ⟨hp, hlit, halarm, heq⟩ := mem_fallEvents.1 he
      obtain ⟨-, rfl, rfl⟩ : EventKind.lampFault = .lampFault ∧ n = m ∧ d = LampState.unknown.code := by simpa using heq
      exact ⟨hp, (hgone n).1 hm, r, hr, hlit, halarm, rfl⟩
    · rintro ⟨hp, hn, r, hr, hlit, halarm, rfl⟩
      exact ⟨n, r, (hgone n).2 hn, hr, mem_fallEvents.2 ⟨hp, hlit, halarm, rfl⟩⟩
  alarms n r hr := by
    by_cases hn : lost .lu n
    · refine ⟨lampFallen s.part r, by rw [(h.lamps n).1 hn, hr]; rfl, ?_, fun hno => ?_⟩
      · rintro ⟨d, hd⟩
        obtain ⟨m, y, -, hy, he⟩ := (h.told _).1 hd
        obtain ⟨-, -, -, heq⟩ := mem_fallEvents.1 he
        obtain rfl : n = m := by simpa using congrArg (fun z => z.2.1) heq
        obtain rfl := Option.some.inj (hr.symm.trans hy)
        rw [lampFallen_alarm s.part n r, if_neg (List.ne_nil_of_mem he)]
      · rw [lampFallen_alarm s.part n r, if_pos]
        refine List.eq_nil_iff_forall_not_mem.2 fun e he => ?_
        obtain ⟨-, -, -, rfl⟩ := mem_fallEvents.1 he
        exact hno _ ((h.told _).2 ⟨n, r, hn, hr, he⟩)
    · refine ⟨r, by rw [(h.lamps n).2 hn, hr], ?_, fun _ => rfl⟩
      rintro ⟨d, hd⟩
      obtain ⟨m, y, hm, -, he⟩ := (h.told _).1 hd
      obtain ⟨-, -, -, heq⟩ := mem_fallEvents.1 he
      obtain rfl : n = m := by simpa using congrArg (fun z => z.2.1) heq
      exact absurd hm hn

theorem Fell.section_of (h : Fell b lost s x new) {n : Nat} {r : SectionRec} (hr : recAt s.sections n = some r) :
    ∃ y, recAt x.sections n = some y ∧ (lost .iu n → y.commutator = .unknown) ∧
      y = { sectionOnTracks (b.sectionEntry n) (onePass s.tracks x.tracks).move r with commutator := y.commutator } := by
  have hfollowed := sectionsFollowed_recAt b s x.tracks n
  rw [hr] at hfollowed
  by_cases hn : lost .iu n
  · exact ⟨_, ((h.sections n).1 hn).trans (by rw [hfollowed]; rfl), fun _ => rfl, rfl⟩
  · exact ⟨_, ((h.sections n).2 hn).trans hfollowed, fun hl => absurd hl hn, rfl⟩

/-- The readers of the tracks that fell have followed, as of one pass. -/
theorem Fell.readersFollow (h : Fell b lost s x new) {t : State} (ht : SameReaders x t) :
    ReadersFollow b [onePass s.tracks x.tracks] s t where
  consumed n r hr := by
    obtain ⟨y, hy, -, heq⟩ := h.section_of hr
    obtain ⟨z, hz, hc, -⟩ := ht.sections n y hy
    refine ⟨z, hz, ?_⟩
    rw [hc, heq]
    simpa only [List.mem_singleton, exists_eq_left] using
      sectionOnTracks_consumed (b.sectionEntry n) (onePass s.tracks x.tracks) r
  progress n r hr := by
    obtain ⟨y, hy, -, heq⟩ := h.section_of hr
    obtain ⟨z, hz, -, hp, -⟩ := ht.sections n y hy
    refine ⟨z, hz, ?_⟩
    rw [hp, heq]
    dsimp only
    rw [List.flatMap_singleton]
    exact sectionOnTracks_progress (b.sectionEntry n) (onePass s.tracks x.tracks) r
  approach n l hl := by
    have hkept : ∃ y, recAt x.levers n = some y ∧ y.approach = l.approach := by
      by_cases hn : lost .lfu n
      · exact ⟨leverFallen l, by rw [(h.levers n).1 hn, hl]; rfl, rfl⟩
      · exact ⟨l, by rw [(h.levers n).2 hn, hl], rfl⟩
    obtain ⟨y, hy, ha⟩ := hkept
    obtain ⟨z, hz, hza⟩ := ht.levers n y hy
    refine ⟨z, hz, ?_, fun _ => hza.trans ha⟩
    rintro ⟨p, hp, ⟨m, hm, hne, hsome⟩, hclear⟩
    obtain rfl := List.mem_singleton.1 hp
    obtain ⟨w, hw⟩ := Option.ne_none_iff_exists'.1 hsome
    have hmove := TrackPass.move_some.2 ⟨hw, hclear m hm, fun he => hne (by rw [hw, hclear m hm, he])⟩
    cases gone_falling h.tracks m _ _ hmove

/-- The objects of a unit that fell stand fallen at the end of the arrival. -/
theorem Fell.objectsFell (h : Fell b lost s x new) {a : Nat} (ha : ∀ n ∈ unitObjects b a, lost (b.kindAt a) n)
    (ended : List (Nat × Position)) (pass : List State) (old : State) : ObjectsFell b a s (finishWith ended pass old x) where
  levers hk c hc l hl := by
    have hfallen : recAt x.levers c.2 = some (leverFallen l) := by
      rw [(h.levers c.2).1 (hk ▸ ha c.2 (List.mem_map_of_mem hc)), hl]
      rfl
    obtain ⟨l', hl', hposition, hcatch, hviolation, happroach⟩ := (finishWith_concluded ended pass old x).lever hfallen
    obtain ⟨l'', hl'', hrelease, hlock⟩ := (leverStays_unknown c.2).finishWith ended pass old ⟨leverFallen l, hfallen, rfl, rfl⟩
    obtain rfl := Option.some.inj (hl'.symm.trans hl'')
    exact ⟨l', hl', hposition, hrelease, hlock, hcatch, hviolation, happroach⟩
  tracks hk c hc r hr := by
    simp only [finishWith_same]
    rw [(h.tracks c.2).1 (hk ▸ ha c.2 (List.mem_map_of_mem hc)), hr, Option.map_some]
    unfold trackLostRec
    dsimp only
    split <;> simp_all
  lamps hk c hc r hr := by
    have hfallen : recAt x.lamps c.2 = some (lampFallen s.part r) := by
      rw [(h.lamps c.2).1 (hk ▸ ha c.2 (List.mem_map_of_mem hc)), hr]
      rfl
    exact (finishWith_concluded ended pass old x).lamp hfallen
  sections hk c hc r hr := by
    obtain ⟨y, hy, hcommutator, heq⟩ := h.section_of hr
    refine ⟨y, by simpa only [finishWith_same] using hy, hcommutator (hk ▸ ha c.2 (List.mem_map_of_mem hc)), ?_, ?_, ?_⟩ <;>
      rw [heq] <;> rfl

end

end Sys2Proof.Machine
end

section
/-! PROOF. A unit goes SILENT: the report timer, and returns that fail (R14, R28, R29, R32). -/

namespace Sys2Proof.Machine

/-! ### The report timer (R28) -/

/-- An ACTIVE unit of an address goes to SILENT with UNIT_STATE; its objects have not yet fallen (R28). -/
def unitTold (s : State) (a : Nat) : State :=
  raise { s with units := modifyRec s.units a fun v => { v with state := .silent, report := none } } .unitState a
    (UnitState.active.code * 256 + UnitState.silent.code)

theorem unitTold_events (s : State) (a : Nat) : (unitTold s a).events ≠ [] := by
  have hstart : Raised s { s with units := modifyRec s.units a fun v => { v with state := .silent, report := none } } [] :=
    .of_same rfl rfl
  exact (hstart.raise (.unitState, a, UnitState.active.code * 256 + UnitState.silent.code)).events_ne_nil (by simp)

theorem unitSilenced_active {s : State} {a : Nat} (h : s.unitActive a = true) (b : Bank) :
    unitSilenced s b a = unitObjectsLost b a (unitTold s a) := by
  unfold unitSilenced
  rw [if_pos h]
  rfl

theorem unitSilenced_other {s : State} {a : Nat} (h : ¬ s.unitActive a = true) (b : Bank) : unitSilenced s b a = s := by
  unfold unitSilenced
  rw [if_neg h]

/-- The unit and its objects, told of, have fallen; no other object has. -/
theorem unitTold_fell {s x : State} (b : Bank) (a : Nat) (hpart : x.part = s.part) (ht : x.tracks = s.tracks)
    (hl : x.levers = s.levers) (hlamps : x.lamps = s.lamps) (hsections : x.sections = s.sections) :
    ∃ new, Fell b (lostWith (fun _ _ => False) (b.kindAt a) (unitObjects b a)) s (unitObjectsLost b a x) new ∧
      Raised x (unitObjectsLost b a x) new := by
  have hrefl : Raised x x [] := .of_same rfl rfl
  obtain ⟨new, hfell, hraised⟩ := (Fell.refl b hpart ht hl hlamps hsections).unit hrefl a
  exact ⟨new, hfell, hraised⟩

theorem lostWith_unit {b : Bank} {a n : Nat} : lostWith (fun _ _ => False) (b.kindAt a) (unitObjects b a) .lu n ↔
    ∃ z, z = a ∧ b.kindAt z = .lu ∧ n ∈ unitObjects b z := by
  constructor
  · rintro (h | ⟨hk, hn⟩)
    · exact h.elim
    · exact ⟨a, rfl, hk.symm, hn⟩
  · rintro ⟨z, rfl, hk, hn⟩
    exact .inr ⟨hk.symm, hn⟩

/-- Settles O19. -/
theorem reportTimerSilencesTheUnit : Obligations.ReportTimerSilencesTheUnit := by
  unfold Obligations.ReportTimerSilencesTheUnit
  intro dt a s b u e hs hb hu he hactive due told
  have hrec : (recAt (s.advance dt).units a).bind UnitRec.report = some e := by simp [hu, he]
  have hbank : (s.advance dt).bank = some b := (State.bank_of _ _ (by simp)).trans hb
  have hunits : due.units = s.units := by simp [due]
  have hdue : due.unitActive a = true := by
    rw [unitActive_of (hunits ▸ hu)]
    exact decide_eq_true hactive
  have htold : unitTold due a = told := by
    unfold unitTold
    rw [hunits]
  have hexec : exec (.reportTimerExpiry dt a) s = .next (finish due (unitObjectsLost b a told)) := by
    rw [next_awake (e := reportExpires a) rfl hs, reportExpires, hrec, hbank]
    dsimp only
    rw [unitSilenced_active hdue, htold]
  have hsame : told.part = s.part ∧ told.tracks = s.tracks ∧ told.levers = s.levers ∧ told.lamps = s.lamps ∧
      told.sections = s.sections := by simp [told, due]
  obtain ⟨hpart, htracks, hlevers, hlamps, hsections⟩ := hsame
  obtain ⟨new, hfell, hraised⟩ := unitTold_fell b a hpart htracks hlevers hlamps hsections
  obtain ⟨ts, ls, ps, ns, v, hform, -, h1, h2, h3, h4⟩ := unitObjectsLost_told (htold ▸ unitTold_events due a) b a
  rw [htracks] at h1
  rw [hlevers] at h2
  rw [hlamps] at h3
  rw [hsections] at h4
  have hfinal : (finish due (unitObjectsLost b a told)).tracks = (unitObjectsLost b a told).tracks := by simp only [finish_same]
  refine ⟨unitObjectsLost b a told, new, hexec, ⟨ts, ls, ps, ns, v, hform, h1, h2, h3, h4⟩, hraised.joined,
    hfell.lampsFell fun n => lostWith_unit, finish_unit ?_ rfl, hfell.objectsFell (fun n hn => .inr ⟨rfl, hn⟩) [] [] due, ?_⟩
  · have hkept : (unitObjectsLost b a told).units = told.units := by simp
    rw [hkept]
    simp [told, hu]
  · rw [hfinal]
    exact hfell.readersFollow (.concluded (finish_concluded _ _))

/-! ### Returns that fail (R13, R14) -/

theorem Tells.loopHeard {ks : List EventKind} (hdrop : .frameDropped ∉ ks) (hloop : .loopRestored ∉ ks) {s t : State}
    {new : List (EventKind × Nat × Nat)} (h : Tells ks s t new) : Tells ks s (Machine.loopHeard t) new := by
  unfold Machine.loopHeard watchRestarted
  split
  · have hup : Tells ks s { t with watch := t.after Config.watchTime, loop := .up } new := h.congr rfl rfl
    exact hup.other hdrop hloop _ _
  · exact h.congr rfl rfl

/-- What the arrival of a return and the loss of its older entries leave: units may be probed and events told of, but of no
trip. -/
structure ReturnKeeps (s x : State) : Prop where
  part : x.part = s.part
  trip : x.trip = s.trip
  active : x.active = s.active
  now : x.now = s.now
  tracks : x.tracks = s.tracks
  levers : x.levers = s.levers
  lamps : x.lamps = s.lamps
  sections : x.sections = s.sections
  exchanges : x.exchanges = s.exchanges
  stored : x.stored = s.stored
  storeOp : x.storeOp = s.storeOp
  units : UnitsStay s x
  tells : Tells [.trip, .tripRepeated] s x []

theorem ReturnKeeps.heard (s : State) : ReturnKeeps s (loopHeard s) where
  part := by simp
  trip := by simp
  active := by simp
  now := by simp
  tracks := by simp
  levers := by simp
  lamps := by simp
  sections := by simp
  exchanges := by simp
  stored := by simp
  storeOp := by simp
  units := .of_units (by simp)
  tells := (Tells.refl _ s).loopHeard (by decide) (by decide)

theorem ReturnKeeps.entriesLeave {s x : State} (h : ReturnKeeps s x) (ps : List PendingReturn) :
    ReturnKeeps s (Machine.entriesLeave x ps) := by
  have hunits := h.units.trans (entriesLeave_units x ps)
  obtain ⟨q, n, y, p, u, r, hform⟩ := entriesLeave_form x ps
  rw [hform] at hunits ⊢
  exact { h with units := hunits, tells := h.tells.congr rfl rfl }

theorem ReturnKeeps.entryLost {s x : State} (h : ReturnKeeps s x) (p : PendingReturn) : ReturnKeeps s (Machine.entryLost x p) := by
  unfold Machine.entryLost
  split
  · exact h
  · have hmarked : Tells [.trip, .tripRepeated] s { x with lossMarks := markIn x.lossMarks p.dest } [] := h.tells.congr rfl rfl
    have htells := hmarked.other (by decide) (k := .commandLost) (by decide) p.dest p.kind.code
    obtain ⟨v, q, n, y, w, hform⟩ := raise_form { x with lossMarks := markIn x.lossMarks p.dest } .commandLost p.dest p.kind.code
    rw [hform] at htells ⊢
    exact { h with tells := htells, units := h.units.trans (.of_units rfl) }

/-- The state in which a return is judged. -/
def returnKept (s : State) (older younger : List PendingReturn) : State :=
  older.foldl Machine.entryLost (Machine.entriesLeave (loopHeard s) younger)

theorem returnKept_keeps (s : State) (older younger : List PendingReturn) : ReturnKeeps s (returnKept s older younger) :=
  foldl_keeps (P := ReturnKeeps s) (fun _ p hx => hx.entryLost p) older ((ReturnKeeps.heard s).entriesLeave younger)

theorem unitStays_active {u v : UnitRec} (h : u.state = .active) (hv : UnitStays u v) : v = u := by
  unfold UnitStays at hv
  rw [h] at hv
  exact hv

theorem unitStays_state {u v : UnitRec} (h : UnitStays u v) (ha : v.state = .active) : u.state = .active := by
  unfold UnitStays at h
  split at h
  · next hu =>
    rcases h with ⟨n, w, -, rfl⟩ | ⟨w, e, rfl⟩
    · exact ha
    · cases ha
  · next hu =>
    obtain ⟨w, rfl⟩ := h
    exact ha
  · exact h ▸ ha

theorem unitActive_stays {s x : State} (h : UnitsStay s x) {a : Nat} {u : UnitRec} (hu : recAt s.units a = some u)
    (hn : u.state ≠ .active) : ¬ x.unitActive a = true := by
  obtain ⟨v, hv, hstays⟩ := h.2 a u hu
  rw [unitActive_of hv, decide_eq_true_eq]
  exact fun ha => hn (unitStays_state hstays ha)

/-- In TRIPPED a trip cause is told of alone, and UNCONFIGURED has no trip (R177). -/
theorem tripCause_untaken {s : State} (h : s.part = .tripped ∨ s.part = .unconfigured) (c : TripCause) (o : Nat)
    (x y : Option Byte) :
    (tripCause s c o x y).part = s.part ∧ (tripCause s c o x y).trip = s.trip ∧ (tripCause s c o x y).sections = s.sections := by
  unfold tripCause
  split
  · simp
  · exact ⟨rfl, rfl, rfl⟩
  · next ht hu => exact (h.elim ht hu).elim

theorem returnJudged_untaken {s : State} {p : PendingReturn} {f : Frame} {b : Bank} (ht : takenOf f = false)
    (hk : p.kind ≠ .identProbe) (hb : s.bank = some b) : returnJudged s p f = .changed (unitSilenced s b p.dest) [] := by
  unfold returnJudged
  rw [if_neg (by rw [ht]; exact Bool.noConfusion), if_neg hk, hb]

theorem returnJudged_unbanked {s : State} {p : PendingReturn} {f : Frame} (ht : takenOf f = false)
    (hk : p.kind ≠ .identProbe) (hb : s.bank = none) : returnJudged s p f = .quiet s := by
  unfold returnJudged
  rw [if_neg (by rw [ht]; exact Bool.noConfusion), if_neg hk, hb]

/-- Settles O14. -/
theorem returnThatFailsIsJudged : Obligations.ReturnThatFailsIsJudged := by
  unfold Obligations.ReturnThatFailsIsJudged
  intro dt kind f s older younger p hs hf hl hp ho kept
  have hkeeps : ReturnKeeps (s.advance dt) kept := returnKept_keeps (s.advance dt) older younger
  have hmatched : exec (.ret dt kind f) s = .next (concluded (s.advance dt) (returnJudged kept p f)) := by
    rw [exec_ret hs hf, returnArrives_matched hl hp ho]
  have hpart : kept.part = s.part := hkeeps.part.trans (by simp)
  have hbank : kept.bank = s.bank := State.bank_of _ _ (hkeeps.active.trans (by simp))
  have hstays : UnitsStay s kept := UnitsStay.trans (.of_units (by simp)) hkeeps.units
  refine ⟨fun htaken hk hne => ?_, fun htaken hk => ⟨fun hb => ?_, fun b hb hn => ?_, fun b u hb hu hactive => ?_⟩⟩
  · intro delivered
    have hfails : echoFails p f = true := echoFails_iff.2 ⟨hk, hne⟩
    have hexec : exec (.ret dt kind f) s = .next (finish (s.advance dt)
        (tripCause delivered .lockEcho p.dest p.payload.head? f.payload.head?)) := by
      rw [hmatched]
      unfold returnJudged
      rw [if_pos htaken]
      dsimp only
      rw [if_pos hfails]
      rfl
    have hdelivered : Tells [.trip, .tripRepeated] (s.advance dt) delivered [] := hkeeps.tells.congr rfl rfl
    refine ⟨_, hexec, rfl, ?_, ?_, fun ht hu => ?_, fun ht => ?_, ?_, ?_, ?_, ?_, ?_⟩
    · simp only [finish_same, tripCause_same]
      exact hkeeps.now.trans (by simp)
    · simp only [finish_same, tripCause_same]
      simp [delivered]
    · exact tripCause_taken (by simp) hdelivered hpart ht hu (hkeeps.active.trans (by simp)) (hkeeps.sections.trans (by simp))
        [] [] _
    · obtain ⟨htpart, httrip, htsections⟩ := tripCause_untaken (s := delivered) (by rwa [← hpart] at ht) .lockEcho p.dest
        p.payload.head? f.payload.head?
      have hsteady := (finish_concluded (s.advance dt) (tripCause delivered .lockEcho p.dest p.payload.head? f.payload.head?)).steady (by
        rw [htpart]
        intro hstart
        have hstart' : kept.part = .starting := hstart
        rw [hpart] at hstart'
        rw [hstart'] at ht
        exact ht.elim PartState.noConfusion PartState.noConfusion)
      refine ⟨hsteady.1.trans (htpart.trans hpart), ?_, ?_⟩
      · simp only [finish_same]
        exact httrip.trans (hkeeps.trip.trans (by simp))
      · simp only [finish_same]
        exact htsections.trans (hkeeps.sections.trans (by simp))
    · simp only [finish_same, tripCause_same]
      exact hkeeps.tracks.trans (by simp)
    · simp only [finish_same, tripCause_same]
      exact hkeeps.exchanges.trans (by simp)
    · simp only [finish_same, tripCause_same]
      exact hkeeps.stored.trans (by simp)
    · simp only [finish_same, tripCause_same]
      exact hkeeps.storeOp.trans (by simp)
    · have hadvanced : UnitsStay s (s.advance dt) := .of_units (by simp)
      refine (hadvanced.trans hkeeps.units).trans (UnitsStay.trans (t := tripCause delivered .lockEcho p.dest p.payload.head?
        f.payload.head?) (.of_units (by simp only [tripCause_same]; rfl)) (finish_concluded _ _).units)
  · rw [hmatched, returnJudged_unbanked htaken hk (hbank.trans hb)]
    rfl
  · rw [hmatched, returnJudged_untaken htaken hk (hbank.trans hb)]
    have hnot : ¬ kept.unitActive p.dest = true := by
      cases hu : recAt s.units p.dest with
      | some u => exact unitActive_stays hstays hu (hn u hu)
      | none =>
        rw [State.unitActive, recAt_none_of_numbers hstays.1 hu]
        exact Bool.noConfusion
    rw [unitSilenced_other hnot]
    rfl
  · intro silent
    obtain ⟨v, hv, hvstays⟩ := hstays.2 p.dest u hu
    obtain rfl := unitStays_active hactive hvstays
    have hkept : kept.unitActive p.dest = true := by
      rw [unitActive_of hv]
      exact decide_eq_true hactive
    have hexec : exec (.ret dt kind f) s = .next (finish (s.advance dt) (unitObjectsLost b p.dest silent)) := by
      rw [hmatched, returnJudged_untaken htaken hk (hbank.trans hb), unitSilenced_active hkept]
      rfl
    have hsame : silent.part = kept.part ∧ silent.tracks = kept.tracks ∧ silent.levers = kept.levers ∧
        silent.lamps = kept.lamps ∧ silent.sections = kept.sections := by simp [silent]
    obtain ⟨h1, h2, h3, h4, h5⟩ := hsame
    obtain ⟨new, hfell, -⟩ := unitTold_fell (s := s) b p.dest (h1.trans hpart) (h2.trans (hkeeps.tracks.trans (by simp)))
      (h3.trans (hkeeps.levers.trans (by simp))) (h4.trans (hkeeps.lamps.trans (by simp)))
      (h5.trans (hkeeps.sections.trans (by simp)))
    have hfinal : (finish (s.advance dt) (unitObjectsLost b p.dest silent)).tracks = (unitObjectsLost b p.dest silent).tracks := by
      simp only [finish_same]
    have hunits : (unitObjectsLost b p.dest silent).units = silent.units := by simp
    have hsilent : silent.units = modifyRec kept.units p.dest fun v => { v with state := .silent, report := none } := by simp [silent]
    refine ⟨_, hexec, rfl, finish_unit ?_ rfl, hfell.objectsFell (fun n hn => .inr ⟨rfl, hn⟩) [] [] _, ?_, fun a v ha hva => ?_⟩
    · rw [hunits, hsilent, recAt_modifyRec_self, hv]
      rfl
    · rw [hfinal]
      exact hfell.readersFollow (.concluded (finish_concluded _ _))
    · obtain ⟨w, hw, hwstays⟩ := hstays.2 a v hva
      have hother : recAt (unitObjectsLost b p.dest silent).units a = some w := by
        rw [hunits, hsilent, recAt_modifyRec, if_neg ha, hw]
      obtain ⟨z, hz, hzstays⟩ := (finish_concluded (s.advance dt) (unitObjectsLost b p.dest silent)).units.2 a w hother
      exact ⟨z, hz, hwstays.trans hzstays⟩

end Sys2Proof.Machine
end

section
/-! PROOF. The requests that need no KEY: ACK_ALARMS, SET_GROUP_INTENSITY and REPROBE_UNIT (R151, R156, R171). -/

namespace Sys2Proof.Machine

theorem enterProbing_some {s : State} {a : Nat} {u : UnitRec} (hu : recAt s.units a = some u) :
    enterProbing s a = place
      (if u.state = .probing then { s with units := modifyRec s.units a probingRec }
       else raise { s with units := modifyRec s.units a probingRec } .unitState a (u.state.code * 256 + UnitState.probing.code))
      { kind := .identProbe, dest := a } := by
  unfold enterProbing
  rw [hu]
  rfl

theorem setGroup_lit {s : State} {b : Bank} (hb : s.bank = some b) (v : Nat) : setGroup s 0 v = .acted s [15] := by
  unfold setGroup
  rw [hb]
  rfl

theorem setGroup_group {s : State} {b : Bank} (hb : s.bank = some b) {g : Nat} (hg : 0 < g) (hl : g ≤ s.groupLive.length) (v : Nat) :
    setGroup s g v = .acted { s with groupLive := s.groupLive.set (g - 1) (min v 15) } [BitVec.ofNat 8 (min v 15)] := by
  have hg0 : g ≠ 0 := by omega
  unfold setGroup groupIntensity
  rw [hb]
  dsimp only
  rw [if_neg hg0, if_neg hg0]
  dsimp only
  rw [List.getD_eq_getElem?_getD, List.getElem?_set_self (by omega)]
  rfl

/-- Settles O49: each request's verdict is read off its own tests. -/
theorem unkeyedRequestsAreJudged : Obligations.UnkeyedRequestsAreJudged := by
  unfold Obligations.UnkeyedRequestsAreJudged
  intro dt f s hp done
  refine ⟨fun h hread => ?_, fun g v h hread => ?_, fun a h hread => ?_⟩
  · have hc : ((9 : Byte), none, Instr.ackAlarms dt f) ∈ requestsOf dt false f := by simp [requestsOf]
    have hread' : readRequest (9 : Byte).toNat f.params = some .ackAlarms := hread
    refine exec_acted hc h hread' (.inl hp) ?_
    show Verdict.acted (acknowledge (heardRequest s dt none 9 f)) [] = _
    have hpart : (heardRequest s dt none 9 f).part = s.part := by simp
    have hlamps : (heardRequest s dt none 9 f).lamps = s.lamps := by simp
    unfold acknowledge
    by_cases hj : s.part = .running ∨ s.part = .tripped
    · rw [if_pos hj, if_pos ((alarmsJudged_iff _).2 (hpart ▸ hj)), hlamps]
      rfl
    · rw [if_neg hj, if_neg (fun hn => hj (hpart ▸ (alarmsJudged_iff _).1 hn)), ← hlamps]
  · have hc : ((10 : Byte), none, Instr.setGroupIntensity dt f) ∈ requestsOf dt false f := by simp [requestsOf]
    have hread' : readRequest (10 : Byte).toNat f.params = some (.setGroup g v) := hread
    intro heard
    have hbank : heard.bank = s.bank := heardRequest_bank ..
    have hlive : heard.groupLive = s.groupLive := by simp [heard]
    refine ⟨fun hb => ?_, fun hb hg => ?_, fun hb hg hl => ?_⟩
    · refine exec_refused hc h hread' (.inl hp) (why := .state) ?_
      show setGroup heard g v = _
      unfold setGroup
      rw [hbank, hb]
    · obtain ⟨b, hb⟩ := Option.isSome_iff_exists.1 hb
      subst hg
      exact exec_acted hc h hread' (.inl hp) (setGroup_lit (hbank.trans hb) v)
    · obtain ⟨b, hb⟩ := Option.isSome_iff_exists.1 hb
      rw [← hlive]
      exact exec_acted hc h hread' (.inl hp) (setGroup_group (hbank.trans hb) hg (hlive ▸ hl) v)
  · have hc : ((11 : Byte), none, Instr.reprobeUnit dt f) ∈ requestsOf dt false f := by simp [requestsOf]
    have hread' : readRequest (11 : Byte).toNat f.params = some (.reprobe a) := hread
    intro heard
    have hbank : heard.bank = s.bank := heardRequest_bank ..
    have hunits : heard.units = s.units := by simp [heard]
    refine ⟨fun hno => ?_, fun b u hb hk hu => ?_⟩
    · refine exec_refused hc h hread' (.inl hp) (why := .undefined) ?_
      show reprobeUnit heard a = _
      unfold reprobeUnit
      rw [hbank]
      rcases hno with hb | ⟨b, hb, hk⟩
      · rw [hb]
      · rw [hb]
        exact if_pos hk
    · intro reset told probe probed
      have hheard : recAt heard.units a = some u := hunits ▸ hu
      have hentered : enterProbing heard a = probed := by
        rw [enterProbing_some hheard, hunits]
        rfl
      have htoldUnits : told.units = modifyRec s.units a probingRec := by
        simp only [told]
        split
        · rfl
        · simp only [raise_same]
          rfl
      have hverdict : requestTaken heard (.reprobe a) =
          .acted (if u.state = .active then unitObjectsLost b a probed else probed) [] := by
        show reprobeUnit heard a = _
        unfold reprobeUnit unitProbed
        rw [hbank, hb]
        dsimp only
        rw [if_neg hk, unitActive_of hheard, hentered]
        by_cases ha : u.state = .active <;> simp [ha]
      refine ⟨exec_acted hc h hread' (.inl hp) hverdict, fun hroom => ?_, fun ha => ?_⟩
      · have hlength : told.outQueue.length < 24 := by
          have hreset : reset.outQueue.length ≤ s.outQueue.length + 1 := loopHeard_outQueue (s.advance dt)
          have htold : told.outQueue.length ≤ reset.outQueue.length + 1 := by
            simp only [told]
            split
            · exact Nat.le_succ _
            · exact raise_outQueue _ _ _ _
          omega
        refine ⟨place_onItsWay hlength, ?_⟩
        have hrec : recAt told.units a = some (probingRec u) := by
          rw [htoldUnits, recAt_modifyRec_self, hu]
          rfl
        exact place_probe_self hlength hrec
      · intro t
        have hsame : probed.part = s.part ∧ probed.tracks = s.tracks ∧ probed.levers = s.levers ∧ probed.lamps = s.lamps ∧
            probed.sections = s.sections := by
          have htold : told.part = s.part ∧ told.tracks = s.tracks ∧ told.levers = s.levers ∧ told.lamps = s.lamps ∧
              told.sections = s.sections := by
            simp only [told]
            split <;> simp [reset, heard]
          simpa [probed] using htold
        obtain ⟨h1, h2, h3, h4, h5⟩ := hsame
        obtain ⟨new, hfell, -⟩ := unitTold_fell (s := s) b a h1 h2 h3 h4 h5
        have hreplied := hfell.same (y := place (unitObjectsLost b a probed) (replyTo 11 f 0 0 [])) (by simp only [place_same])
          (by simp only [place_same]) (by simp only [place_same]) (by simp only [place_same]) (by simp only [place_same])
        have hfinal : t.tracks = (place (unitObjectsLost b a probed) (replyTo 11 f 0 0 [])).tracks := by simp only [t, finish_same]
        refine ⟨hreplied.objectsFell (fun n hn => .inr ⟨rfl, hn⟩) [] [] _, ?_⟩
        rw [hfinal]
        exact hreplied.readersFollow (.concluded (finish_concluded _ _))

end Sys2Proof.Machine
end

section
/-! PROOF. The idle pattern and the loop's watch timer: at a break every unit's objects fall (R15, R16, R30). -/

namespace Sys2Proof.Machine

/-- A unit's record after a loop break (R30). -/
def brokenUnit (u : UnitRec) : UnitRec :=
  match u.state with
  | .active => { u with state := .silent, report := none }
  | .probing => { u with state := .silent, probeWindow := none }
  | _ => u

theorem brokenUnit_other {u : UnitRec} (h1 : u.state ≠ .active) (h2 : u.state ≠ .probing) : brokenUnit u = u := by
  unfold brokenUnit
  split
  · next h => exact absurd h h1
  · next h => exact absurd h h2
  · rfl

theorem brokenUnit_state (u : UnitRec) : (brokenUnit u).state ≠ .active ∧ (brokenUnit u).state ≠ .probing := by
  obtain ⟨state, _, _, _, _, _, _, _, _, _⟩ := u
  cases state <;> simp [brokenUnit]

theorem brokenUnit_idem (u : UnitRec) : brokenUnit (brokenUnit u) = brokenUnit u :=
  brokenUnit_other (brokenUnit_state u).1 (brokenUnit_state u).2

/-- The objects of the ACTIVE units among the addresses `as`. -/
def activeLost (b : Bank) (s : State) (as : List Nat) (k : UnitKind) (n : Nat) : Prop :=
  ∃ a ∈ as, s.unitActive a = true ∧ b.kindAt a = k ∧ n ∈ unitObjects b a

/-- The units of the addresses `as` have been broken, from `s`, on the state `broken` in which LOOP_BROKEN stands told. -/
structure Breaks (b : Bank) (s due broken : State) (as : List Nat) (y : State) : Prop where
  form : ∃ us ts ls ps ns v, y = { broken with
    units := us, tracks := ts, levers := ls, lamps := ps, sections := ns, events := v }
  told : y.events ≠ []
  units : ∀ a, recAt y.units a = if a ∈ as then (recAt s.units a).map brokenUnit else recAt s.units a
  fell : ∃ new, Fell b (activeLost b s as) s y new ∧ Raised due y ((.loopBroken, 0, 0) :: new)

theorem Fell.lost_congr {b : Bank} {lost lost' : UnitKind → Nat → Prop} {s x : State} {new : List (EventKind × Nat × Nat)}
    (h : Fell b lost s x new) (hl : ∀ k n, lost' k n ↔ lost k n) : Fell b lost' s x new where
  part := h.part
  tracks := h.tracks.congr (hl .tu) rfl
  levers := h.levers.congr (hl .lfu) rfl
  lamps := h.lamps.congr (hl .lu) rfl
  sections := h.sections.congr (hl .iu) rfl
  told e := by
    simp only [hl]
    exact h.told e

theorem modifyRec_recAt_map {α : Type} {r s : Recs α} {as : List Nat} {g f : α → α} {a : Nat}
    (h : ∀ m, recAt r m = if m ∈ as then (recAt s m).map g else recAt s m) (ha : a ∉ as)
    (hf : ∀ x, recAt s a = some x → f x = g x) (m : Nat) :
    recAt (modifyRec r a f) m = if m ∈ a :: as then (recAt s m).map g else recAt s m := by
  rw [recAt_modifyRec, h m]
  by_cases hm : m = a
  · subst hm
    rw [if_pos rfl, if_neg ha, if_pos (List.mem_cons_self ..)]
    cases hx : recAt s m with
    | none => rfl
    | some x => rw [Option.map_some, Option.map_some, hf x hx]
  · rw [if_neg hm]
    simp only [List.mem_cons, hm, false_or]

/-- A unit that is not ACTIVE, or was broken before, takes no object with it. -/
theorem Breaks.passed {b : Bank} {s due broken y : State} {as : List Nat} (h : Breaks b s due broken as y) {a : Nat}
    (ha : s.unitActive a = true → a ∈ as) {us : Recs UnitRec}
    (hus : ∀ m, recAt us m = if m ∈ a :: as then (recAt s.units m).map brokenUnit else recAt s.units m) :
    Breaks b s due broken (a :: as) { y with units := us } := by
  obtain ⟨⟨_, ts, ls, ps, ns, v, hform⟩, htold, -, new, hfell, hraised⟩ := h
  refine ⟨⟨us, ts, ls, ps, ns, v, by rw [hform]⟩, htold, hus, new, ?_, hraised.congr rfl rfl rfl⟩
  refine Fell.lost_congr (hfell.same (y := { y with units := us }) rfl rfl rfl rfl rfl) fun k n => ?_
  constructor
  · rintro ⟨z, hz, hactive, hk, hn⟩
    rcases List.mem_cons.1 hz with rfl | hz
    · exact ⟨z, ha hactive, hactive, hk, hn⟩
    · exact ⟨z, hz, hactive, hk, hn⟩
  · rintro ⟨z, hz, hrest⟩
    exact ⟨z, List.mem_cons_of_mem _ hz, hrest⟩

/-- An ACTIVE unit takes its objects with it. -/
theorem Breaks.fallen {b : Bank} {s due broken y : State} {as : List Nat} (h : Breaks b s due broken as y) {a : Nat}
    (ha : s.unitActive a = true) {us : Recs UnitRec}
    (hus : ∀ m, recAt us m = if m ∈ a :: as then (recAt s.units m).map brokenUnit else recAt s.units m) :
    Breaks b s due broken (a :: as) (unitObjectsLost b a { y with units := us }) := by
  obtain ⟨⟨_, ts, ls, ps, ns, v, hform⟩, htold, -, new, hfell, hraised⟩ := h
  obtain ⟨more, hlost, hmore⟩ := (hfell.same (y := { y with units := us }) rfl rfl rfl rfl rfl).unit (hraised.congr rfl rfl rfl) a
  obtain ⟨ts', ls', ps', ns', v', hform', htold', -⟩ := unitObjectsLost_told (x := { y with units := us }) htold b a
  refine ⟨⟨us, ts', ls', ps', ns', v', by rw [hform', hform]⟩, by rw [hform']; exact htold', fun m => ?_, new ++ more, ?_, hmore⟩
  · rw [hform']
    exact hus m
  · refine hlost.lost_congr fun k n => ?_
    constructor
    · rintro ⟨z, hz, hactive, hk, hn⟩
      rcases List.mem_cons.1 hz with rfl | hz
      · exact .inr ⟨hk.symm, hn⟩
      · exact .inl ⟨z, hz, hactive, hk, hn⟩
    · rintro (⟨z, hz, hrest⟩ | ⟨hk, hn⟩)
      · exact ⟨z, List.mem_cons_of_mem _ hz, hrest⟩
      · exact ⟨a, List.mem_cons_self .., ha, hk.symm, hn⟩

theorem unitBroken_other {y : State} {a : Nat} (h : ∀ u, recAt y.units a = some u → u.state ≠ .active ∧ u.state ≠ .probing)
    (b : Bank) : unitBroken b y a = y := by
  unfold unitBroken
  split
  · next u hu =>
    split
    · next hs => exact absurd hs (h u hu).1
    · next hs => exact absurd hs (h u hu).2
    · rfl
  · rfl

theorem Breaks.unit {b : Bank} {s due broken y : State} {as : List Nat} (h : Breaks b s due broken as y) (a : Nat) :
    Breaks b s due broken (a :: as) (unitBroken b y a) := by
  by_cases ha : a ∈ as
  · have hrec := h.units a
    rw [if_pos ha] at hrec
    rw [unitBroken_other fun u hu => by
      rw [hrec] at hu
      obtain ⟨z, -, rfl⟩ := Option.map_eq_some_iff.1 hu
      exact brokenUnit_state z]
    refine h.passed (us := y.units) (fun _ => ha) fun m => ?_
    rw [h.units m]
    by_cases hm : m = a
    · rw [if_pos (hm ▸ ha), if_pos (hm ▸ List.mem_cons_self ..)]
    · simp only [List.mem_cons, hm, false_or]
  · have hrec := h.units a
    rw [if_neg ha] at hrec
    have hmodify := fun f hf => modifyRec_recAt_map (f := f) h.units ha hf
    cases hu : recAt s.units a with
    | none =>
      rw [hu] at hrec
      have hidle : ¬ s.unitActive a = true := by
        rw [State.unitActive, hu]
        exact Bool.noConfusion
      rw [unitBroken_other fun u hu' => by rw [hrec] at hu'; cases hu']
      refine h.passed (us := y.units) (fun hactive => absurd hactive hidle) fun m => ?_
      rw [h.units m]
      by_cases hm : m = a
      · rw [hm, if_neg ha, if_pos (List.mem_cons_self ..), hu]
        rfl
      · simp only [List.mem_cons, hm, false_or]
    | some u =>
      rw [hu] at hrec
      have hstate := unitActive_of hu
      by_cases h1 : u.state = .active
      · have heq : unitBroken b y a = unitObjectsLost b a (modifyUnit y a fun v => { v with state := .silent, report := none }) := by
          unfold unitBroken
          rw [hrec]
          dsimp only
          rw [h1]
        rw [heq]
        refine h.fallen (hstate.trans (decide_eq_true h1)) (hmodify _ fun x hx => ?_)
        obtain rfl := Option.some.inj (hu.symm.trans hx)
        unfold brokenUnit
        rw [h1]
      · have hidle : ¬ s.unitActive a = true := by
          rw [hstate, decide_eq_true_eq]
          exact h1
        by_cases h2 : u.state = .probing
        · have heq : unitBroken b y a = modifyUnit y a fun v => { v with state := .silent, probeWindow := none } := by
            unfold unitBroken
            rw [hrec]
            dsimp only
            rw [h2]
          rw [heq]
          refine h.passed (fun hactive => absurd hactive hidle) (hmodify _ fun x hx => ?_)
          obtain rfl := Option.some.inj (hu.symm.trans hx)
          unfold brokenUnit
          rw [h2]
        · rw [unitBroken_other fun v hv => by
            obtain rfl := Option.some.inj (hrec.symm.trans hv)
            exact ⟨h1, h2⟩]
          refine h.passed (us := y.units) (fun hactive => absurd hactive hidle) fun m => ?_
          rw [h.units m]
          by_cases hm : m = a
          · rw [hm, if_neg ha, if_pos (List.mem_cons_self ..), hu, Option.map_some, brokenUnit_other h1 h2]
          · simp only [List.mem_cons, hm, false_or]

theorem Breaks.all {b : Bank} {s due broken : State} (ns : List Nat) {as : List Nat} {y : State} (h : Breaks b s due broken as y) :
    Breaks b s due broken (ns.reverse ++ as) (ns.foldl (unitBroken b) y) := by
  induction ns generalizing as y with
  | nil => exact h
  | cons a ns ih =>
    have hrest := ih (h.unit a)
    rwa [List.foldl_cons, List.reverse_cons, List.append_assoc]

/-- Settles O4: the units are broken one by one, and what fell with each stays fallen. -/
theorem loopWatch : Obligations.LoopWatch := by
  unfold Obligations.LoopWatch
  intro dt s hs due watched broken
  have hexec : exec (.loopWatchTimerExpiry dt) s = .next (watchExpires (s.advance dt)) := next_awake (e := watchExpires) rfl hs
  have hwatch : (s.advance dt).watch = s.watch := by simp
  have hloop : due.loop = s.loop := by simp [due]
  have hup : s.loop = .up → watchExpires (s.advance dt) = finish due (loopBroken due) := by
    intro hl
    have hdue : ((s.advance dt).warp s.watch).loop = .up := hloop.trans hl
    unfold watchExpires
    rw [hwatch]
    dsimp only
    rw [hdue]
  have hdown : s.loop = .broken → watchExpires (s.advance dt) = watched := by
    intro hl
    have hdue : ((s.advance dt).warp s.watch).loop = .broken := hloop.trans hl
    unfold watchExpires
    rw [hwatch]
    dsimp only
    rw [hdue]
    exact rfl
  refine ⟨?_, fun hl => ?_, fun hl hactive => ?_, fun b hl hb => ?_⟩
  · exact next_awake (e := watchRestarted) rfl hs
  · rw [hexec, hdown hl]
  · have hbank : due.bank = none := by simp [State.bank, due, hactive]
    have heq : loopBroken due = broken := by
      unfold loopBroken
      rw [hbank]
      rfl
    rw [hexec, hup hl, heq, finish, finishWith_none _ _ _ _ (by simp [broken, watched, due, hactive])]
  · have hbank : due.bank = some b := (State.bank_of _ _ (by simp [due])).trans hb
    have hbroken : broken.part = s.part ∧ broken.tracks = s.tracks ∧ broken.levers = s.levers ∧ broken.lamps = s.lamps ∧
        broken.sections = s.sections ∧ broken.units = s.units := by simp [broken, watched, due]
    obtain ⟨h1, h2, h3, h4, h5, h6⟩ := hbroken
    let x := (s.units.map Prod.fst).foldl (unitBroken b) broken
    have heq : loopBroken due = x := by
      have hall : loopBroken due = (broken.units.map Prod.fst).foldl (unitBroken b) broken := by
        unfold loopBroken
        rw [hbank]
        rfl
      rw [hall, h6]
    have hwatched : Raised due { watched with loop := .broken } [] := .of_same rfl rfl
    have htold : Raised due broken [(.loopBroken, 0, 0)] := hwatched.raise (.loopBroken, 0, 0)
    have hstart : Breaks b s due broken [] broken := by
      refine ⟨⟨_, _, _, _, _, _, rfl⟩, htold.events_ne_nil (by simp), fun a => by rw [h6]; simp, [], ?_, htold⟩
      refine (Fell.refl b h1 h2 h3 h4 h5).lost_congr fun k n => ?_
      simp [activeLost]
    have hall := hstart.all (s.units.map Prod.fst)
    rw [List.append_nil] at hall
    obtain ⟨⟨us, ts, ls, ps, ns, v, hform⟩, -, hunits, new, hfell, hraised⟩ := hall
    have hmem : ∀ a u, recAt s.units a = some u → a ∈ (s.units.map Prod.fst).reverse := fun a u hu =>
      List.mem_reverse.2 (List.mem_map_of_mem (recAt_mem hu))
    have hactive : ∀ a, s.unitActive a = true → ∃ u, recAt s.units a = some u := by
      intro a ha
      unfold State.unitActive at ha
      split at ha
      · next u hu => exact ⟨u, hu⟩
      · cases ha
    have hlost : ∀ n, activeLost b s (s.units.map Prod.fst).reverse .lu n ↔
        ∃ a, s.unitActive a = true ∧ b.kindAt a = .lu ∧ n ∈ unitObjects b a := by
      intro n
      constructor
      · rintro ⟨a, -, hrest⟩
        exact ⟨a, hrest⟩
      · rintro ⟨a, ha, hrest⟩
        obtain ⟨u, hu⟩ := hactive a ha
        exact ⟨a, hmem a u hu, ha, hrest⟩
    have hfinal : (finish due x).tracks = x.tracks := by simp only [finish_same]
    have hrec : ∀ a u, recAt s.units a = some u → recAt x.units a = some (brokenUnit u) := by
      intro a u hu
      have hbreak := hunits a
      rw [if_pos (hmem a u hu), hu] at hbreak
      exact hbreak
    refine ⟨x, new, by rw [hexec, hup hl, heq], ⟨us, ts, ls, ps, ns, v, hform⟩, hraised.joined, hfell.lampsFell hlost, ?_,
      fun a u hu => ⟨fun hs => ⟨?_, ?_⟩, fun hs => ?_, fun hs => ?_, fun hs => ?_⟩⟩
    · rw [hfinal]
      exact hfell.readersFollow (.concluded (finish_concluded _ _))
    · exact finish_unit (by rw [hrec a u hu, brokenUnit, hs]) rfl
    · refine hfell.objectsFell (fun n hn => ⟨a, hmem a u hu, ?_, rfl, hn⟩) [] [] due
      rw [unitActive_of hu, decide_eq_true hs]
    · exact finish_unit (by rw [hrec a u hu, brokenUnit, hs]) rfl
    · have hkept : brokenUnit u = u := brokenUnit_other (by rcases hs with h | h <;> simp [h]) (by rcases hs with h | h <;> simp [h])
      exact finish_unit (by rw [hrec a u hu, hkept]) (by rcases hs with h | h <;> simp [UnitRec.probed, h])
    · have hkept : brokenUnit u = u := brokenUnit_other (by simp [hs]) (by simp [hs])
      obtain ⟨w, hw, hstays⟩ := (finish_concluded due x).units.2 a u (by rw [hrec a u hu, hkept])
      unfold UnitStays at hstays
      rw [hs] at hstays
      obtain ⟨e, rfl⟩ := hstays
      exact ⟨e, by rw [hw, hs]⟩

end Sys2Proof.Machine
end

section
/-! PROOF. Counted reports: the report timer, and the faults of a diagram unit (R27, R158). -/

namespace Sys2Proof.Machine

/-! ### The assigned channels of a unit -/

theorem assignedChannels_mem {b : Bank} {a ch n : Nat} :
    (ch, n) ∈ b.assignedChannels a ↔ (b.channelObjects a)[ch]? = some n ∧ n ≠ 0 := by
  unfold Bank.assignedChannels
  rw [List.mem_filter, List.mem_map]
  constructor
  · rintro ⟨⟨⟨x, i⟩, hx, he⟩, hn⟩
    obtain ⟨rfl, rfl⟩ : i = ch ∧ x = n := by simpa using he
    exact ⟨List.mem_zipIdx_iff_getElem?.1 hx, by simpa using hn⟩
  · rintro ⟨hx, hn⟩
    exact ⟨⟨(n, ch), List.mem_zipIdx_iff_getElem?.2 hx, rfl⟩, by simpa using hn⟩

theorem assignedChannels_nodup (b : Bank) (a : Nat) : ((b.assignedChannels a).map Prod.fst).Nodup := by
  unfold Bank.assignedChannels
  refine List.Nodup.sublist ((List.filter_sublist ..).map Prod.fst) ?_
  rw [List.map_map]
  have hfst : (Prod.fst ∘ fun p : Nat × Nat => (p.2, p.1)) = Prod.snd := rfl
  rw [hfst, List.zipIdx_map_snd]
  exact List.nodup_range'

theorem assignedChannels_lt {b : Bank} {a ch n : Nat} (h : (ch, n) ∈ b.assignedChannels a) : ch < (b.kindAt a).channels := by
  obtain ⟨hget, -⟩ := assignedChannels_mem.1 h
  obtain ⟨hlt, -⟩ := List.getElem?_eq_some_iff.1 hget
  unfold Bank.channelObjects at hlt
  rw [List.length_map, List.length_take] at hlt
  omega

/-! ### The report timer of a counted report (R27) -/

theorem countedState_unit {s : State} {b : Bank} {f : Frame} {u : UnitRec} (hu : recAt s.units (srcOf f) = some u) (dt : Time) :
    recAt (countedState s b f dt).units (srcOf f) =
      some { u with report := some ((s.now + dt).plus ((b.rosterAt (srcOf f)).timeout.toNat * 10)) } := by
  rw [countedState_eq]
  dsimp only
  rw [recAt_modifyRec_self, hu]
  rfl

theorem exec_counted {s : State} {b : Bank} {k : UnitKind} {kind : Byte} {f : Frame} {u : UnitRec} {dt : Time} {c : Instr}
    (hc : exec c s = .next (frameArrival s dt kind f)) (h : Counted s b k kind f u)
    (hk : k.reports.map FrameKind.code = some kind.toNat) (hh : kind ≠ 8 ∨ s.switchHeld = false) :
    exec c s = .next (concluded (s.advance dt) (reportTaken b (srcOf f) k f.payload (countedState s b f dt))) := by
  rw [hc, counted_arrival h hk hh]
  rfl

theorem leversTaken_units {b : Bank} {a : Nat} {bytes : List Byte} {s : State} (h : s.switchHeld = false) :
    ∃ x ended, leversTaken b a bytes s = .changed x ended ∧ x.units = s.units := by
  have hheld : heldCompletes (leversWritten (leverOutcomes s b a bytes) s) = false := by
    simp [heldCompletes, h]
  unfold leversTaken
  dsimp only
  split
  · exact ⟨_, _, rfl, by simp⟩
  · rw [if_neg (by rw [hheld]; exact Bool.noConfusion)]
    exact ⟨_, _, rfl, by simp⟩

theorem samplesTaken_units (b : Bank) (a : Nat) (bytes : List Byte) (s : State) :
    ∃ x pass, samplesTaken b a bytes s = .changed x [] pass ∧ x.units = s.units := by
  refine ⟨_, _, rfl, ?_⟩
  simp only [secondPass_same, modesComputed]
  rw [← concludeLevers]
  simp only [concludeLevers_same, firstPass_same]

/-- A unit that is ACTIVE and known to the end of its arrival has its record then. -/
theorem concluded_unit {s x : State} {ended : List (Nat × Position)} {pass : List State} {a : Nat} {v : UnitRec}
    (hx : recAt x.units a = some v) (hv : v.state = .active) : recAt (finishWith ended pass s x).units a = some v :=
  (finishWith_concluded ended pass s x).unit hx (by simp [UnitRec.probed, hv])

/-! ### The faults of a diagram unit (R158) -/

theorem faultTaken_unit {s : State} {a : Nat} {v : UnitRec} (hv : recAt s.units a = some v) (bytes : List Byte) (ch o : Nat) :
    faultTaken a bytes s ch o =
      if v.faults.getD ch .none = reportedFault bytes ch then s
      else raise (modifyUnit s a fun v => { v with faults := v.faults.set ch (reportedFault bytes ch) }) .diagramFault o
        (reportedFault bytes ch).code := by
  unfold faultTaken
  rw [hv]

/-- Channel `p.1` of a report, where it changes the fault that stands in `faults`, as the event of output `p.2` (R158). -/
def faultEvents (bytes : List Byte) (faults : List OutputFault) (p : Nat × Nat) : List (EventKind × Nat × Nat) :=
  if faults.getD p.1 .none = reportedFault bytes p.1 then [] else [(.diagramFault, p.2, (reportedFault bytes p.1).code)]

/-- The faults after the channels of a list. -/
def faultsWritten (bytes : List Byte) (l : List (Nat × Nat)) (faults : List OutputFault) : List OutputFault :=
  l.foldl (fun fs p => fs.set p.1 (reportedFault bytes p.1)) faults

theorem faultsWritten_other {bytes : List Byte} {l : List (Nat × Nat)} {ch : Nat} (h : ch ∉ l.map Prod.fst)
    (faults : List OutputFault) : (faultsWritten bytes l faults)[ch]? = faults[ch]? := by
  induction l generalizing faults with
  | nil => rfl
  | cons p l ih =>
    rw [List.map_cons, List.mem_cons, not_or] at h
    show (faultsWritten bytes l (faults.set p.1 (reportedFault bytes p.1)))[ch]? = _
    rw [ih h.2, List.getElem?_set_ne (Ne.symm h.1)]

theorem faultsWritten_length (bytes : List Byte) (l : List (Nat × Nat)) (faults : List OutputFault) :
    (faultsWritten bytes l faults).length = faults.length := by
  induction l generalizing faults with
  | nil => rfl
  | cons p l ih =>
    show (faultsWritten bytes l (faults.set p.1 (reportedFault bytes p.1))).length = _
    rw [ih, List.length_set]

theorem faultsWritten_self {bytes : List Byte} {l : List (Nat × Nat)} (hd : (l.map Prod.fst).Nodup) {p : Nat × Nat} (hp : p ∈ l)
    {faults : List OutputFault} (hlt : p.1 < faults.length) :
    (faultsWritten bytes l faults)[p.1]? = some (reportedFault bytes p.1) := by
  induction l generalizing faults with
  | nil => cases hp
  | cons q l ih =>
    rw [List.map_cons, List.nodup_cons] at hd
    show (faultsWritten bytes l (faults.set q.1 (reportedFault bytes q.1)))[p.1]? = _
    rcases List.mem_cons.1 hp with rfl | hp
    · rw [faultsWritten_other hd.1, List.getElem?_set_self hlt]
    · exact ih hd.2 hp (by rwa [List.length_set])

/-- A diagram unit's report writes its channels one by one, each change told of. -/
theorem faultsTakenOver {a : Nat} {bytes : List Byte} (l : List (Nat × Nat)) (hd : (l.map Prod.fst).Nodup) {d s : State}
    {v : UnitRec} {new : List (EventKind × Nat × Nat)} (hv : recAt s.units a = some v) (hlt : ∀ p ∈ l, p.1 < v.faults.length)
    (hr : Raised d s new) :
    let t := l.foldl (fun s p => faultTaken a bytes s p.1 p.2) s
    recAt t.units a = some { v with faults := faultsWritten bytes l v.faults } ∧
      (∀ z, z ≠ a → recAt t.units z = recAt s.units z) ∧
      Raised d t (new ++ l.flatMap (faultEvents bytes v.faults)) ∧
      ∃ us e q n y p, t = { s with units := us, events := e, outQueue := q, seq := n, sending := y, pendingReturns := p } := by
  induction l generalizing s v new with
  | nil => exact ⟨hv, fun _ _ => rfl, by simpa using hr, _, _, _, _, _, _, rfl⟩
  | cons p l ih =>
    rw [List.map_cons, List.nodup_cons] at hd
    have hstep : ∃ s', faultTaken a bytes s p.1 p.2 = s' ∧
        recAt s'.units a = some { v with faults := v.faults.set p.1 (reportedFault bytes p.1) } ∧
        (∀ z, z ≠ a → recAt s'.units z = recAt s.units z) ∧ Raised d s' (new ++ faultEvents bytes v.faults p) ∧
        ∃ us e q n y w, s' = { s with units := us, events := e, outQueue := q, seq := n, sending := y, pendingReturns := w } := by
      rw [faultTaken_unit hv]
      unfold faultEvents
      have hp := hlt p (List.mem_cons_self ..)
      by_cases hsame : v.faults.getD p.1 .none = reportedFault bytes p.1
      · rw [if_pos hsame, if_pos hsame]
        have hset : v.faults.set p.1 (reportedFault bytes p.1) = v.faults := by
          rw [← hsame, List.getD_eq_getElem?_getD, List.getElem?_eq_getElem hp, Option.getD_some, List.set_getElem_self]
        exact ⟨s, rfl, by rw [hset, hv], fun _ _ => rfl, by simpa using hr, _, _, _, _, _, _, rfl⟩
      · rw [if_neg hsame, if_neg hsame]
        let written := modifyUnit s a fun v => { v with faults := v.faults.set p.1 (reportedFault bytes p.1) }
        have hwritten : Raised d written new := hr.congr rfl rfl rfl
        obtain ⟨e, q, n, y, w, hraise⟩ := raise_form written .diagramFault p.2 (reportedFault bytes p.1).code
        refine ⟨_, rfl, ?_, fun z hz => ?_, hwritten.raise (.diagramFault, p.2, (reportedFault bytes p.1).code), _, e, q, n, y, w,
          hraise⟩
        · simp [hv]
        · simp [recAt_modifyRec, hz]
    obtain ⟨s', heq, hrec, hother, hraised, us, e, q, n, y, w, hform⟩ := hstep
    have hrest := ih hd.2 hrec (fun c hc => by simpa using hlt c (List.mem_cons_of_mem _ hc)) hraised
    rw [← heq] at hrest
    obtain ⟨hrec', hother', hraised', us', e', q', n', y', w', hform'⟩ := hrest
    have hevents : l.flatMap (faultEvents bytes (v.faults.set p.1 (reportedFault bytes p.1))) =
        l.flatMap (faultEvents bytes v.faults) := by
      refine List.flatMap_congr fun c hc => ?_
      have hne : p.1 ≠ c.1 := fun hcp => hd.1 (hcp ▸ List.mem_map_of_mem hc)
      unfold faultEvents
      rw [List.getD_eq_getElem?_getD, List.getD_eq_getElem?_getD, List.getElem?_set_ne hne]
    refine ⟨hrec', fun z hz => ?_, ?_, us', e', q', n', y', w', ?_⟩
    · rw [List.foldl_cons, hother' z hz, heq, hother z hz]
    · rw [List.flatMap_cons, ← List.append_assoc, ← hevents]
      exact hraised'
    · rw [List.foldl_cons, hform', heq, hform]

/-- The fault code of a channel: its two bits, the highest of its byte first (13.5). -/
theorem reportedFault_eq (bytes : List Byte) (ch : Nat) :
    reportedFault bytes ch = match (byteAt bytes (ch / 4)).toNat / 4 ^ (3 - ch % 4) % 4 with
      | 0 => OutputFault.none | 1 => .openCircuit | _ => .short := by
  have hpow : (2 : Nat) ^ (6 - 2 * (ch % 4)) = 4 ^ (3 - ch % 4) := by
    rw [show (4 : Nat) = 2 ^ 2 from rfl, ← Nat.pow_mul, Nat.mul_sub]
  unfold reportedFault
  rw [hpow]
  have hlt : (byteAt bytes (ch / 4)).toNat / 4 ^ (3 - ch % 4) % 4 < 4 := Nat.mod_lt _ (by decide)
  generalize (byteAt bytes (ch / 4)).toNat / 4 ^ (3 - ch % 4) % 4 = x at hlt
  interval_cases x <;> rfl

/-- Settles O28. -/
theorem diagReportWritesFaults : Obligations.DiagReportWritesFaults := by
  unfold Obligations.DiagReportWritesFaults
  intro dt f s b u h hl fault heard
  have hfault : ∀ ch, fault ch = reportedFault f.payload ch := fun ch => (reportedFault_eq f.payload ch).symm
  let a := srcOf f
  let v : UnitRec := { u with report := some ((s.now + dt).plus ((b.rosterAt a).timeout.toNat * 10)) }
  have hv : recAt (countedState s b f dt).units a = some v := countedState_unit h.unit dt
  have hrange : ∀ p ∈ b.assignedChannels a, p.1 < v.faults.length := by
    intro p hp
    have hlt := assignedChannels_lt hp
    rw [show b.kindAt a = .du from h.rostered] at hlt
    exact lt_of_lt_of_eq hlt hl.symm
  have hstart : Raised heard (countedState s b f dt) [] := .of_same (by rw [countedState_eq]) (by rw [countedState_eq])
  obtain ⟨hrec, hothers, hraised, us, e, q, n, y, p, hform⟩ :=
    faultsTakenOver (bytes := f.payload) (b.assignedChannels a) (assignedChannels_nodup b a) hv hrange hstart
  have hunits : us = ((b.assignedChannels a).foldl (fun s p => faultTaken a f.payload s p.1 p.2) (countedState s b f dt)).units := by
    rw [hform]
  refine ⟨_, { v with faults := faultsWritten f.payload (b.assignedChannels a) v.faults }, _,
    (exec_counted rfl h rfl (.inl (by decide))).trans rfl, ⟨us, e, q, n, y, p, ?_, fun z hz => ?_⟩, hraised.joined, ?_,
    concluded_unit hrec h.active, h.active, (faultsWritten_length ..).trans hl, fun c hc => ?_, fun ch hch => ?_⟩
  · exact hform.trans (by rw [countedState_eq])
  · rw [hunits, hothers z hz, countedState_eq]
    dsimp only
    rw [recAt_modifyRec, if_neg hz]
  · rw [List.nil_append, List.filterMap_eq_flatMap_toList]
    refine List.flatMap_congr fun c _ => ?_
    rw [hfault, faultEvents, show v.faults = u.faults from rfl]
    by_cases hs : u.faults.getD c.1 .none = reportedFault f.payload c.1
    · rw [if_pos hs, if_pos hs]
      rfl
    · rw [if_neg hs, if_neg hs]
      rfl
  · rw [hfault]
    exact faultsWritten_self (assignedChannels_nodup b a) hc (hrange c hc)
  · exact faultsWritten_other hch v.faults

/-- Of its unit's record a DIAG_REPORT writes the faults alone. -/
theorem faultsTaken_unit (b : Bank) (a : Nat) (bytes : List Byte) {s : State} {v : UnitRec} (hv : recAt s.units a = some v) :
    ∃ fs, recAt (faultsTaken b a bytes s).units a = some { v with faults := fs } := by
  refine foldl_keeps (P := fun x => ∃ fs, recAt x.units a = some { v with faults := fs }) (fun x p hx => ?_) _ ⟨v.faults, hv⟩
  obtain ⟨fs, hfs⟩ := hx
  rw [faultTaken_unit hfs]
  split
  · exact ⟨fs, hfs⟩
  · exact ⟨fs.set p.1 (reportedFault bytes p.1), by simp [hfs]⟩

/-- Settles O15: a report's owners keep the units' records, but for a diagram unit's faults. -/
theorem countedReportRestartsItsTimer : Obligations.CountedReportRestartsItsTimer := by
  unfold Obligations.CountedReportRestartsItsTimer
  intro dt f s b u timed
  have hunit : ∀ {k : UnitKind} {kind : Byte}, Counted s b k kind f u →
      recAt (countedState s b f dt).units (srcOf f) = some timed := fun h => countedState_unit h.unit dt
  refine ⟨fun h hheld => ?_, fun h => ?_, fun h => ?_, fun h => ?_, fun h => ?_⟩
  · have hcounted : (countedState s b f dt).switchHeld = false := by
      rw [countedState_eq]
      simpa using hheld
    obtain ⟨x, ended, htaken, hx⟩ := leversTaken_units (b := b) (a := srcOf f) (bytes := f.payload) hcounted
    refine ⟨_, exec_counted rfl h rfl (.inr hheld), ?_⟩
    rw [reportTaken, htaken]
    exact concluded_unit (hx ▸ hunit h) h.active
  · obtain ⟨x, pass, htaken, hx⟩ := samplesTaken_units b (srcOf f) f.payload (countedState s b f dt)
    refine ⟨_, exec_counted rfl h rfl (.inl (by decide)), ?_⟩
    rw [reportTaken, htaken]
    exact concluded_unit (hx ▸ hunit h) h.active
  · refine ⟨_, exec_counted rfl h rfl (.inl (by decide)), concluded_unit ?_ h.active⟩
    simp only [lampsTaken_same]
    exact hunit h
  · refine ⟨_, exec_counted rfl h rfl (.inl (by decide)), concluded_unit ?_ h.active⟩
    simp only [instrumentsTaken_same]
    exact hunit h
  · obtain ⟨fs, hfs⟩ := faultsTaken_unit b (srcOf f) f.payload (hunit h)
    exact ⟨_, { timed with faults := fs }, exec_counted rfl h rfl (.inl (by decide)), concluded_unit hfs h.active, rfl⟩

end Sys2Proof.Machine
end

section
/-! PROOF. Refresh timers: the expiry, and what every later placing in the arrival leaves of it (R11). -/

namespace Sys2Proof.Machine

/-- The refresh timer of an address runs its full period from a time, at which the part stands and uses a bank. -/
structure RefreshRuns (b : Bank) (time : Time) (a : Nat) (s : State) : Prop where
  now : s.now = time
  bank : s.bank = some b
  timer : recAt s.refresh a = (b.kindAt a).refreshed.map fun k => time.plus k.period

section
variable {b : Bank} {time : Time} {a : Nat} {s : State}

theorem RefreshRuns.same (h : RefreshRuns b time a s) {t : State} (hn : t.now = s.now) (ha : t.active = s.active)
    (hr : t.refresh = s.refresh) : RefreshRuns b time a t where
  now := hn.trans h.now
  bank := (State.bank_of _ _ ha).trans h.bank
  timer := hr ▸ h.timer

theorem RefreshRuns.restartRefresh (h : RefreshRuns b time a s) (k : FrameKind) (z : Nat) :
    RefreshRuns b time a (restartRefresh s k z) := by
  unfold Machine.restartRefresh
  rw [h.bank]
  dsimp only
  split
  · next hk =>
    refine ⟨h.now, h.bank, ?_⟩
    show recAt (modifyRec s.refresh z fun _ => s.after k.period) a = _
    rw [recAt_modifyRec]
    split
    · next haz =>
      subst haz
      rw [h.timer, hk, Option.map_some, Option.map_some, State.after, h.now]
    · exact h.timer
  · exact h

theorem RefreshRuns.takeFrame (h : RefreshRuns b time a s) (f : OutFrame) (rest : List OutFrame) :
    RefreshRuns b time a (takeFrame s f rest) := by
  unfold Machine.takeFrame
  refine RefreshRuns.restartRefresh ?_ f.kind f.dest
  split
  · exact h.same rfl rfl rfl
  · exact h.same rfl rfl rfl

theorem RefreshRuns.arbiter (h : RefreshRuns b time a s) : RefreshRuns b time a (arbiter s) := by
  unfold Machine.arbiter
  split
  · split
    · exact h.takeFrame _ _
    · exact h
  · exact h

theorem RefreshRuns.queueJoined (h : RefreshRuns b time a s) (q : List OutFrame) : RefreshRuns b time a (queueJoined s q) := by
  have hq : RefreshRuns b time a { s with outQueue := q } := h.same rfl rfl rfl
  unfold Machine.queueJoined
  split
  · exact hq.arbiter
  · exact hq

theorem RefreshRuns.raise (h : RefreshRuns b time a s) (k : EventKind) (o d : Nat) : RefreshRuns b time a (raise s k o d) :=
  h.same (by simp) (by simp) (by simp)

theorem RefreshRuns.windowEnd {g : State → OutFrame → State}
    (hg : ∀ t f, RefreshRuns b time a t → RefreshRuns b time a (g t f)) (h : RefreshRuns b time a s) (z : Nat) :
    RefreshRuns b time a (windowEnd g s z) := by
  have hunit : ∀ f, RefreshRuns b time a (modifyUnit s z f) := fun f => h.same rfl rfl rfl
  unfold Machine.windowEnd
  split
  · split
    · split
      · exact hg _ _ (hunit _)
      · exact (hunit _).raise _ _ _
    · exact hunit _
    · exact h
  · exact h

theorem RefreshRuns.placeFuel (k : Nat) (h : RefreshRuns b time a s) (f : OutFrame) : RefreshRuns b time a (placeFuel k s f) := by
  have hdropped : ∀ {t : State} (h : RefreshRuns b time a t) (q : List OutFrame) (d : Bool) (x : OutFrame), RefreshRuns b time a
      (Machine.raise { Machine.queueJoined t q with restartDue := d } .frameDropped x.dest x.kind.code) := by
    intro t h q d x
    have hjoined := h.queueJoined q
    have hdue : RefreshRuns b time a { Machine.queueJoined t q with restartDue := d } := ⟨hjoined.now, hjoined.bank, hjoined.timer⟩
    exact hdue.raise _ _ _
  induction k generalizing s f with
  | zero =>
    unfold Machine.placeFuel
    dsimp only
    split
    · exact h.queueJoined _
    · split <;> exact hdropped h _ _ _
  | succ k ih =>
    unfold Machine.placeFuel
    dsimp only
    split
    · exact h.queueJoined _
    · split
      · exact RefreshRuns.windowEnd (fun _ _ h => ih h _) (hdropped h _ _ _) _
      · exact hdropped h _ _ _

theorem RefreshRuns.place (h : RefreshRuns b time a s) (f : OutFrame) : RefreshRuns b time a (place s f) := h.placeFuel 3 f

/-- Nothing in the end of an arrival stops the timer, or restarts it at another time. -/
theorem refreshRuns_endKeeps (b : Bank) (time : Time) (a : Nat) : EndKeeps (RefreshRuns b time a) where
  tell _ _ _ _ _ h := h.raise _ _ _
  levers _ _ h := h.same rfl rfl rfl
  lamps _ _ h := h.same rfl rfl rfl
  begin_running _ h := h.same rfl rfl rfl
  outputs _ _ h := h.same rfl rfl rfl
  placed _ _ _ f _ _ h := h.place f
  instr _ _ _ _ h := h.same (by simp) (by simp) (by simp)
  arbiters _ h := RefreshRuns.same h.arbiter rfl rfl rfl

end

theorem stateCommand_of_refreshed {s : State} {b : Bank} {a : Nat} {k : FrameKind} (h : (b.kindAt a).refreshed = some k) :
    ∃ f, stateCommand s b a = some f ∧ f.kind = k ∧ f.dest = a := by
  unfold stateCommand
  cases hk : b.kindAt a <;> rw [hk] at h <;> simp only [UnitKind.refreshed, Option.some.injEq, reduceCtorEq] at h <;>
    exact ⟨_, rfl, h, rfl⟩

theorem period_of_refreshed {u : UnitKind} {k : FrameKind} (h : u.refreshed = some k) :
    k.period = if k = .diagramSet then 200 else 100 := by
  cases u <;> simp only [UnitKind.refreshed, Option.some.injEq, reduceCtorEq] at h <;> subst h <;> rfl

/-- Settles O7. -/
theorem refreshPlacesTheCommand : Obligations.RefreshPlacesTheCommand := by
  unfold Obligations.RefreshPlacesTheCommand
  intro dt a s b e k hs hb hr hk due period timed
  obtain ⟨f, hf, hkind, hdest⟩ := stateCommand_of_refreshed (s := due) hk
  have hperiod : k.period = period := period_of_refreshed hk
  have hbank : (s.advance dt).bank = some b := (State.bank_of _ _ (by simp)).trans hb
  have hrefresh : recAt (s.advance dt).refresh a = some e := by simpa using hr
  have htimed : { due with refresh := modifyRec due.refresh a fun _ => due.after f.kind.period } = timed := by
    rw [hkind, hperiod, show due.refresh = s.refresh by simp [due]]
    rfl
  have hruns : RefreshRuns b due.now a timed := by
    refine ⟨rfl, (State.bank_of _ _ (by simp [timed, due])).trans hb, ?_⟩
    show recAt (modifyRec s.refresh a fun _ => due.now.plus period) a = _
    rw [recAt_modifyRec_self, hr, hk, Option.map_some, Option.map_some, hperiod]
  refine ⟨f, hf, hkind, hdest, ?_, fun hroom => place_onItsWay (by simpa [timed, due] using hroom), ?_⟩
  · rw [next_awake (e := refreshExpires a) rfl hs, refreshExpires, hrefresh, hbank]
    dsimp only
    rw [hf]
    dsimp only
    rw [htimed]
  · have hend := ((refreshRuns_endKeeps b due.now a).finishWith [] [] due (hruns.place f)).timer
    rw [hk, Option.map_some, hperiod] at hend
    exact hend

end Sys2Proof.Machine
end

section
/-! PROOF. How a frame joins the outbound queue (R8, R9, R22). -/

namespace Sys2Proof.Machine

/-! ### The newest frame of a class -/

theorem takeNewest_none {c : Nat} {q : List OutFrame} (h : ∀ g ∈ q, g.kind.cls ≠ c) : takeNewest c q = none := by
  induction q with
  | nil => rfl
  | cons f q ih =>
    unfold takeNewest
    rw [ih fun g hg => h g (List.mem_cons_of_mem _ hg)]
    exact if_neg (h f (List.mem_cons_self ..))

theorem takeNewest_split {c : Nat} {older younger : List OutFrame} {g : OutFrame} (hg : g.kind.cls = c)
    (h : ∀ x ∈ younger, x.kind.cls ≠ c) : takeNewest c (older ++ g :: younger) = some (g, older ++ younger) := by
  induction older with
  | nil =>
    rw [List.nil_append]
    unfold takeNewest
    rw [takeNewest_none h]
    exact if_pos hg
  | cons f older ih =>
    rw [List.cons_append]
    unfold takeNewest
    rw [ih]
    rfl

/-! ### What joins and what is dropped (R8, R9) -/

/-- The frames that a frame replaces (R8). -/
def replaces (f g : OutFrame) : Prop :=
  (f.kind = .lockSet ∨ f.kind = .repeaterSet ∨ f.kind = .diagramSet) ∧ g.kind = f.kind ∧ g.dest = f.dest

theorem replaces_iff (f g : OutFrame) :
    (carriesState f.kind && g.kind = f.kind && g.dest = f.dest) = true ↔ replaces f g := by
  have hcarries : carriesState f.kind = true ↔ f.kind = .lockSet ∨ f.kind = .repeaterSet ∨ f.kind = .diagramSet := by
    cases f.kind <;> simp [carriesState]
  unfold replaces
  rw [Bool.and_eq_true, Bool.and_eq_true, hcarries, decide_eq_true_eq, decide_eq_true_eq, and_assoc]

theorem any_replaces (q : List OutFrame) (f : OutFrame) :
    q.any (fun g => carriesState f.kind && g.kind = f.kind && g.dest = f.dest) = true ↔ ∃ g ∈ q, replaces f g := by
  rw [List.any_eq_true]
  exact exists_congr fun g => and_congr_right fun _ => replaces_iff f g

theorem queueJoin_same {q : List OutFrame} {f : OutFrame} (h : ∃ g ∈ q, replaces f g) : queueJoin q f =
    (q.map fun g => if carriesState f.kind && g.kind = f.kind && g.dest = f.dest then { g with payload := f.payload } else g, none) := by
  unfold queueJoin
  exact if_pos ((any_replaces q f).2 h)

section
variable {q : List OutFrame} {f : OutFrame} (h : ∀ g ∈ q, ¬ replaces f g)
include h

theorem not_any_replaces : ¬ q.any (fun g => carriesState f.kind && g.kind = f.kind && g.dest = f.dest) = true := fun hany =>
  let ⟨g, hg, hr⟩ := (any_replaces q f).1 hany
  h g hg hr

theorem queueJoin_room (hq : q.length < 24) : queueJoin q f = (q ++ [f], none) := by
  unfold queueJoin
  dsimp only
  rw [if_neg (not_any_replaces h)]
  exact if_pos hq

theorem queueJoin_low (hq : 24 ≤ q.length) (hf : 3 ≤ f.kind.cls) : queueJoin q f = (q, some f) := by
  unfold queueJoin
  dsimp only
  rw [if_neg (not_any_replaces h), if_neg (show ¬ q.length < Config.outQueueMax from Nat.not_lt.2 hq)]
  exact if_pos hf

theorem queueJoin_displaces (hq : 24 ≤ q.length) (hf : f.kind.cls < 3) {g : OutFrame} {kept : List OutFrame}
    (hg : takeNewest 4 q = some (g, kept) ∨ (takeNewest 4 q = none ∧ takeNewest 3 q = some (g, kept))) :
    queueJoin q f = (kept ++ [f], some g) := by
  unfold queueJoin
  dsimp only
  rw [if_neg (not_any_replaces h), if_neg (show ¬ q.length < Config.outQueueMax from Nat.not_lt.2 hq), if_neg (Nat.not_le.2 hf)]
  rcases hg with hg | ⟨hn, hg⟩
  · rw [hg]
  · rw [hn]
    dsimp only
    rw [hg]

theorem queueJoin_urgent (hq : 24 ≤ q.length) (hf : f.kind.cls < 3) (h4 : takeNewest 4 q = none) (h3 : takeNewest 3 q = none) :
    queueJoin q f = (q, some f) := by
  unfold queueJoin
  dsimp only
  rw [if_neg (not_any_replaces h), if_neg (show ¬ q.length < Config.outQueueMax from Nat.not_lt.2 hq), if_neg (Nat.not_le.2 hf), h4]
  dsimp only
  rw [h3]

end

/-! ### Probes dropped one upon another (R22, R23) -/

/-- A probe joins, or is itself dropped. -/
theorem queueJoin_probe (q : List OutFrame) (a : Nat) :
    queueJoin q { kind := .identProbe, dest := a } = (q ++ [{ kind := .identProbe, dest := a }], none) ∨
    (24 ≤ q.length ∧ queueJoin q { kind := .identProbe, dest := a } = (q, some { kind := .identProbe, dest := a })) := by
  have hnew : ∀ g ∈ q, ¬ replaces { kind := .identProbe, dest := a } g := fun g _ hr => by simp [replaces] at hr
  rcases Nat.lt_or_ge q.length 24 with hq | hq
  · exact .inl (queueJoin_room hnew hq)
  · exact .inr ⟨hq, queueJoin_low hnew hq (Nat.le_refl 3)⟩

/-- Dropped out of a full queue, a frame leaves the queue `q` and FRAME_DROPPED. -/
def frameDropped (s : State) (q : List OutFrame) (g : OutFrame) : State :=
  raise { s with outQueue := q, restartDue := s.restartDue || g.restart } .frameDropped g.dest g.kind.code

theorem frameDropped_units (s : State) (q : List OutFrame) (g : OutFrame) : (frameDropped s q g).units = s.units := by
  unfold frameDropped
  simp only [raise_same]

theorem placeFuel_joined {s : State} {f : OutFrame} {q : List OutFrame} (h : queueJoin s.outQueue f = (q, none)) (k : Nat) :
    placeFuel k s f = queueJoined s q := by
  cases k <;> (unfold placeFuel; dsimp only; rw [h])

theorem placeFuel_dropped {s : State} {f g : OutFrame} {q : List OutFrame} (h : queueJoin s.outQueue f = (q, some g))
    (hs : s.outQueue ≠ []) (k : Nat) : placeFuel (k + 1) s f =
      if g.kind = .identProbe then windowEnd (placeFuel k) (frameDropped s q g) g.dest else frameDropped s q g := by
  unfold placeFuel
  dsimp only
  rw [h]
  dsimp only
  rw [queueJoined_waits s q hs]
  rfl

/-! ### The end of a dropped probe's window (R23, R24) -/

section
variable {s : State} {a : Nat} {u : UnitRec} (hu : recAt s.units a = some u) (p : State → OutFrame → State)
include hu

theorem windowEnd_other (hp : u.state ≠ .probing) (ha : u.state ≠ .absent) : windowEnd p s a = s := by
  unfold windowEnd
  rw [hu]
  dsimp only
  cases hst : u.state with
  | probing => exact absurd hst hp
  | absent => exact absurd hst ha
  | _ => rfl

end

theorem windowEnd_none {s : State} {a : Nat} (hu : recAt s.units a = none) (p : State → OutFrame → State) : windowEnd p s a = s := by
  unfold windowEnd
  simp only [hu]

/-- A window's end depends on how probes are placed only where it places one. -/
theorem windowEnd_congr {p p' : State → OutFrame → State} {s : State} {a : Nat}
    (h : ∀ u, recAt s.units a = some u → u.state = .probing → u.probeCount < 2 → ∀ t : State,
      t.units = modifyRec s.units a (fun v => { v with probeWindow := none, probeCount := u.probeCount + 1 }) →
      p t { kind := .identProbe, dest := a } = p' t { kind := .identProbe, dest := a }) :
    windowEnd p s a = windowEnd p' s a := by
  cases hu : recAt s.units a with
  | none => rw [windowEnd_none hu, windowEnd_none hu]
  | some u =>
    by_cases hp : u.state = .probing
    · rcases Nat.lt_or_ge u.probeCount 2 with hc | hc
      · rw [windowEnd_probing hu hp hc, windowEnd_probing hu hp hc]
        exact h u hu hp hc _ rfl
      · rw [windowEnd_third hu hp hc, windowEnd_third hu hp hc]
    · by_cases ha : u.state = .absent
      · rw [windowEnd_absent hu ha, windowEnd_absent hu ha]
      · rw [windowEnd_other hu p hp ha, windowEnd_other hu p' hp ha]

/-- Three windows at most follow one another, so that more fuel changes nothing. -/
theorem placeFuel_probe (k : Nat) {s : State} {a : Nat}
    (h : ∀ u, recAt s.units a = some u → u.state = .probing → 2 ≤ u.probeCount + k) :
    placeFuel (k + 1) s { kind := .identProbe, dest := a } = placeFuel (k + 2) s { kind := .identProbe, dest := a } := by
  rcases queueJoin_probe s.outQueue a with hj | ⟨hq, hj⟩
  · rw [placeFuel_joined hj, placeFuel_joined hj]
  · have hs : s.outQueue ≠ [] := fun he => by simp [he] at hq
    rw [placeFuel_dropped hj hs, placeFuel_dropped hj hs, if_pos rfl, if_pos rfl]
    refine windowEnd_congr fun u hu hp hc t ht => ?_
    rw [frameDropped_units] at hu ht
    have hk := h u hu hp
    cases k with
    | zero => exact absurd hk (Nat.not_le.2 hc)
    | succ k =>
      refine placeFuel_probe k fun v hv _ => ?_
      rw [ht, recAt_modifyRec_self, hu] at hv
      cases hv
      change 2 ≤ u.probeCount + 1 + k
      omega
termination_by k

/-- A dropped probe's window ends as any does: a further probe is placed in full. -/
theorem windowEnd_placed (s : State) (a : Nat) : windowEnd (placeFuel 2) s a = windowEnd place s a := by
  refine windowEnd_congr fun u hu _ _ t ht => placeFuel_probe 1 fun v hv _ => ?_
  rw [ht, recAt_modifyRec_self, hu] at hv
  cases hv
  change 2 ≤ u.probeCount + 1 + 1
  omega

/-- Settles O10, by what the queue join gives; a probe that is dropped in turn meets a raised count, so the fuel of `place` suffices. -/
theorem frameJoinsTheQueue : Obligations.FrameJoinsTheQueue := by
  unfold Obligations.FrameJoinsTheQueue
  intro s f same windowEnds dropped queued
  have hwindow : ∀ q g a, windowEnd (placeFuel 2) (frameDropped s q g) a = windowEnds (frameDropped s q g) a := by
    intro q g a
    have hnow : (frameDropped s q g).now = s.now := by
      unfold frameDropped
      simp only [raise_same]
    rw [windowEnd_placed]
    change _ = match recAt (frameDropped s q g).units a with | some u => _ | none => _
    cases hu : recAt (frameDropped s q g).units a with
    | none => exact windowEnd_none hu place
    | some u =>
      dsimp only
      split_ifs with hp hc ha
      · exact windowEnd_probing hu hp hc
      · refine (windowEnd_third hu hp (Nat.not_lt.1 hc)).trans ?_
        unfold modifyUnit State.after
        rw [hnow]
        rfl
      · exact windowEnd_absent hu ha
      · exact windowEnd_other hu place hp ha
  have hdropped : s.outQueue ≠ [] → ∀ q g, queueJoin s.outQueue f = (q, some g) → place s f = dropped q g := by
    intro hne q g hj
    refine (placeFuel_dropped hj hne 2).trans ?_
    rw [hwindow]
    rfl
  refine ⟨fun h => ?_, fun h => ⟨fun he => ?_, fun hne hq => ?_, fun hq hf => ?_, fun hq hf h3 => ?_, ?_⟩⟩
  · have hne : s.outQueue ≠ [] := fun he => by
      obtain ⟨g, hg, -⟩ := h
      simp [he] at hg
    refine (placeFuel_joined (queueJoin_same h) 3).trans ?_
    rw [queueJoined_waits s _ hne]
    congr 1
    refine List.map_congr_left fun g _ => ?_
    exact if_congr (replaces_iff f g) rfl rfl
  · refine (placeFuel_joined (queueJoin_room h (by rw [he]; decide)) 3).trans ?_
    unfold queueJoined
    rw [if_pos (by rw [he]; rfl)]
  · exact (placeFuel_joined (queueJoin_room h hq) 3).trans (queueJoined_waits s _ hne)
  all_goals have hfull : 24 ≤ s.outQueue.length → s.outQueue ≠ [] := fun hq he => by simp [he] at hq
  · exact hdropped (hfull hq) _ _ (queueJoin_low h hq hf)
  · exact hdropped (hfull hq) _ _ (queueJoin_urgent h hq hf (takeNewest_none fun g hg hc => absurd (h3 g hg) (by omega))
      (takeNewest_none fun g hg hc => absurd (h3 g hg) (by omega)))
  · intro older g younger hq hf hqueue hg
    refine hdropped (hfull hq) _ _ (queueJoin_displaces h hq hf ?_)
    rcases hg with ⟨hg, hy⟩ | ⟨hg, hno, hy⟩
    · exact .inl (by rw [hqueue]; exact takeNewest_split hg hy)
    · exact .inr ⟨takeNewest_none hno, by rw [hqueue]; exact takeNewest_split hg hy⟩

end Sys2Proof.Machine
end

section
/-! PROOF. What a LEVER_REPORT gives for each lever, and the trip of a second violation (R71, R80, R81). -/

namespace Sys2Proof.Machine

/-! ### One lever of a report (R71, R75, R76, R77, R80) -/

theorem reportedPosition_known (bytes : List Byte) (ch : Nat) : reportedPosition bytes ch ≠ .unknown := by
  unfold reportedPosition
  cases (byteAt bytes ch).getLsbD 0 <;> cases (byteAt bytes ch).getLsbD 1 <;> simp

section
variable {l : LeverRec} (hfits : leverFits l) {pos : Position} (hpos : pos ≠ .unknown) (s : State) (e : LeverEntry) (c : Bool)

/-- LEVER_CONTACT_FAULT goes with the arrival at FAULT (R71). -/
theorem leverTakes_contactFault :
    (leverTakes s e l pos c).contactFault = if pos = .fault ∧ l.position ≠ .fault then some l.position else none := by
  unfold leverTakes
  split
  · next h => rw [if_neg fun hf => hf.2 (h.1.symm.trans hf.1)]
  · cases pos with
    | fault => by_cases h : l.position = .fault <;> simp [arriveFault, h]
    | normal => cases l.release <;> simp [arriveNormal]
    | reverse => cases l.release <;> simp [arriveReverse]
    | mid => cases l.release <;> simp [arriveMid]
    | unknown => rfl

include hfits in
/-- A violation is an end left against the lock (R80). -/
theorem leverTakes_violated :
    (leverTakes s e l pos c).violated = if leavesLocked l pos then some l.position else none := by
  unfold leverTakes leavesLocked
  unfold leverFits at hfits
  split
  · next h =>
    rw [h.1]
    cases l.position <;> simp
  · cases hr : l.release <;> rw [hr] at hfits <;> cases pos <;>
      simp_all [arriveNormal, arriveReverse, arriveMid, arriveFault, violation?]

include hfits in
/-- A FREE stroke ends at REVERSE or at FAULT (R97; log entry 49). -/
theorem leverTakes_endedFree : (leverTakes s e l pos c).endedFree =
    if (pos = .reverse ∨ pos = .fault) ∧ l.lock = .free then leftOf l.release else none := by
  unfold leverTakes
  unfold leverFits at hfits
  split
  · next h =>
    cases hr : l.release <;> rw [hr] at hfits <;> simp_all [leftOf]
  · cases hr : l.release <;> rw [hr] at hfits <;> cases pos <;>
      simp_all [arriveNormal, arriveReverse, arriveMid, arriveFault, leftOf]

include hfits in
theorem leverTakes_violation :
    (leverTakes s e l pos c).record.violation = (l.violation || leavesLocked l pos) := by
  unfold leverTakes leavesLocked
  unfold leverFits at hfits
  split
  · next h =>
    rw [h.1]
    cases l.position <;> simp
  · cases hr : l.release <;> rw [hr] at hfits <;> cases pos <;> cases hl : l.lock <;>
      simp_all [arriveNormal, arriveReverse, arriveMid, arriveFault, violation?]

end

/-! ### The levers of a report -/

/-- What a report gives for the lever of one channel. -/
def outcomeOf (s : State) (b : Bank) (bytes : List Byte) (ch n : Nat) (l : LeverRec) : LeverOutcome :=
  leverTakes s (b.leverEntry n) l (reportedPosition bytes ch) (reportedCatch bytes ch)

theorem mem_leverOutcomes {s : State} {b : Bank} {a : Nat} {bytes : List Byte} {n : Nat} {o : LeverOutcome} :
    (n, o) ∈ leverOutcomes s b a bytes ↔
      ∃ ch l, (ch, n) ∈ b.assignedChannels a ∧ recAt s.levers n = some l ∧ o = outcomeOf s b bytes ch n l := by
  unfold leverOutcomes
  rw [List.mem_filterMap]
  constructor
  · rintro ⟨⟨ch, m⟩, hm, ho⟩
    obtain ⟨l, hl, he⟩ := Option.map_eq_some_iff.1 ho
    cases he
    exact ⟨ch, l, hm, hl, rfl⟩
  · rintro ⟨ch, l, hm, hl, rfl⟩
    exact ⟨(ch, n), hm, by rw [hl]; rfl⟩

theorem leverOutcomes_nodup {b : Bank} {a : Nat} (hd : ((b.assignedChannels a).map Prod.snd).Nodup) (s : State)
    (bytes : List Byte) : ((leverOutcomes s b a bytes).map Prod.fst).Nodup := by
  refine hd.sublist ?_
  unfold leverOutcomes
  generalize b.assignedChannels a = l
  induction l with
  | nil => exact List.Sublist.slnil
  | cons p l ih =>
    rw [List.filterMap_cons]
    cases hp : recAt s.levers p.2 with
    | none => exact ih.cons _
    | some r => exact ih.cons_cons _

theorem leversWritten_other {os : List (Nat × LeverOutcome)} {n : Nat} (hn : n ∉ os.map Prod.fst) (s : State) :
    recAt (leversWritten os s).levers n = recAt s.levers n := by
  induction os generalizing s with
  | nil => rfl
  | cons o os ih =>
    rw [List.map_cons, List.mem_cons, not_or] at hn
    refine (ih hn.2 _).trans ?_
    exact (recAt_modifyRec s.levers o.1 n fun _ => o.2.record).trans (if_neg hn.1)

theorem leversWritten_self {os : List (Nat × LeverOutcome)} {n : Nat} {o : LeverOutcome} (hd : (os.map Prod.fst).Nodup)
    (ho : (n, o) ∈ os) {s : State} {l : LeverRec} (hl : recAt s.levers n = some l) :
    recAt (leversWritten os s).levers n = some o.record := by
  induction os generalizing s l with
  | nil => cases ho
  | cons p os ih =>
    rw [List.map_cons, List.nodup_cons] at hd
    rcases List.mem_cons.1 ho with rfl | ho
    · refine (leversWritten_other hd.1 _).trans ?_
      refine (recAt_modifyRec_self s.levers n fun _ => o.record).trans ?_
      rw [hl]
      rfl
    · have hp : n ≠ p.1 := fun h => hd.1 (h ▸ List.mem_map_of_mem (f := Prod.fst) ho)
      exact ih hd.2 ho (s := modifyLever s p.1 fun _ => p.2.record) (l := l)
        ((recAt_modifyRec s.levers p.1 n fun _ => p.2.record).trans ((if_neg hp).trans hl))

/-- The levers that a report violates are those it takes off an end against their locks (R80). -/
theorem mem_violatedBy {s : State} {b : Bank} {a : Nat} {bytes : List Byte} (hfits : ∀ p ∈ s.levers, leverFits p.2) {n : Nat} :
    n ∈ violatedBy (leverOutcomes s b a bytes) ↔ ∃ ch l, (ch, n) ∈ b.assignedChannels a ∧ recAt s.levers n = some l ∧
      leavesLocked l (reportedPosition bytes ch) = true := by
  have hviolated : ∀ ch l, recAt s.levers n = some l →
      ((outcomeOf s b bytes ch n l).violated.isSome = true ↔ leavesLocked l (reportedPosition bytes ch) = true) := by
    intro ch l hl
    unfold outcomeOf
    rw [leverTakes_violated (hfits _ (recAt_mem hl))]
    split <;> simp_all
  unfold violatedBy
  rw [List.mem_filterMap]
  constructor
  · rintro ⟨⟨m, o⟩, hm, ho⟩
    obtain ⟨ch, l, hch, hl, rfl⟩ := mem_leverOutcomes.1 hm
    split at ho
    · next hv =>
      cases ho
      exact ⟨ch, l, hch, hl, (hviolated ch l hl).1 hv⟩
    · cases ho
  · rintro ⟨ch, l, hch, hl, hv⟩
    exact ⟨(n, outcomeOf s b bytes ch n l), mem_leverOutcomes.2 ⟨ch, l, hch, hl, rfl⟩, if_pos ((hviolated ch l hl).2 hv)⟩

/-- The trip names the lowest of the violated levers (R81). -/
theorem multiViolation_lowest {before : Recs LeverRec} {vs : List Nat} {n : Nat} (hn : n ∈ vs) (hmin : ∀ m ∈ vs, n ≤ m)
    (hmore : (∃ m ∈ vs, m ≠ n) ∨ ∃ p ∈ before, p.1 ≠ n ∧ p.2.violation = true) : multiViolation before vs = some n := by
  have hlow : vs.min? = some n := List.min?_eq_some_iff.2 ⟨hn, hmin⟩
  unfold multiViolation
  rw [hlow]
  dsimp only
  refine if_pos ?_
  rw [Bool.or_eq_true]
  rcases hmore with ⟨m, hm, hne⟩ | ⟨p, hp, hne, hv⟩
  · left
    rw [decide_eq_true_eq]
    rcases vs with _ | ⟨x, _ | ⟨y, ys⟩⟩
    · cases hn
    · exact absurd ((List.mem_singleton.1 hm).trans (List.mem_singleton.1 hn).symm) hne
    · simp
  · right
    rw [List.any_eq_true]
    exact ⟨p, hp, by simp [hne, hv]⟩

/-! ### The arrival -/

/-- A counted LEVER_REPORT, what a completing switch removes being removed before (R17, R71). -/
theorem exec_leverReport {s : State} {b : Bank} {f : Frame} {u : UnitRec} (h : Counted s b .lfu 8 f u) (dt : Time)
    (hpurged : purgedFor (s.advance dt) 8 f = s.advance dt) :
    exec (.leverReport dt f) s = .next (concluded (s.advance dt) (leversTaken b (srcOf f) f.payload (countedState s b f dt))) := by
  obtain ⟨hv, hsrc, hd⟩ := wfFromUnit_valid h.formed
  have hu : recAt (loopHeard (s.advance dt)).units (srcOf f) = some u := by simpa using h.unit
  change Host.Outcome.next (frameArrival s dt 8 f) = _
  rw [frameArrival, arrival_awake h.awake, frameArrives, if_pos hv, hpurged, frameTreated, if_neg hsrc, if_neg (by simp [hd])]
  simp only [loopHeard_bank, advance_bank, h.bank]
  rw [if_neg (by rw [h.rostered]; decide), if_neg (by decide), if_neg (by decide), h.rostered, if_pos (by decide), reportArrives]
  simp only [hu, h.active, h.rostered]
  rfl

theorem leverEvents_kinds (os : List (Nat × LeverOutcome)) :
    ∀ x ∈ leverEvents os, x.1 = .leverContactFault ∨ x.1 = .leverViolation := by
  intro x hx
  obtain ⟨o, -, ho⟩ := List.mem_flatMap.1 hx
  rcases List.mem_append.1 ho with ho | ho
  · split at ho
    · exact .inl (List.mem_singleton.1 ho ▸ rfl)
    · cases ho
  · split at ho
    · exact .inr (List.mem_singleton.1 ho ▸ rfl)
    · cases ho

/-- A violation flag that stands is not taken away by LE's readings. -/
theorem leverStays_violation (n : Nat) : LeverStays n fun l => l.violation = true where
  locked _ h := h
  decided s b l h := (congrArg LeverRec.violation (decided_core s b n l)).trans h
  tested _ h := h

theorem purgedFor_multiViolation {s : State} {b : Bank} (hb : s.bank = some b) {f : Frame} {n : Nat}
    (h : multiViolation s.levers (violatedBy (leverOutcomes s b (srcOf f) f.payload)) = some n) : purgedFor s 8 f = s := by
  have hnot : completesHeld s 8 f = false := by
    unfold completesHeld
    simp only [hb, h, Option.isNone_some, Bool.and_false, Bool.false_and]
  exact if_neg (Bool.not_eq_true _ ▸ hnot)

/-- Settles O24: the outcomes of the report violate exactly the levers it takes off an end against their locks, so the trip names the
lowest of them. -/
theorem secondViolationTrips : Obligations.SecondViolationTrips := by
  unfold Obligations.SecondViolationTrips
  intro dt f s b u ch n l hcounted hd hfits hpart violated hm hl hleaves hlowest hmore
  have hb := hcounted.bank
  have hmulti : ∀ x : State, x.levers = s.levers →
      multiViolation x.levers (violatedBy (leverOutcomes x b (srcOf f) f.payload)) = some n := by
    intro x hx
    have hmem : ∀ m, m ∈ violatedBy (leverOutcomes x b (srcOf f) f.payload) ↔
        ∃ c, (c, m) ∈ b.assignedChannels (srcOf f) ∧ violated c m := by
      intro m
      rw [mem_violatedBy (hx ▸ hfits), hx]
      exact exists_congr fun c =>
        ⟨fun ⟨l, hc, hr, hv⟩ => ⟨hc, l, hr, hv⟩, fun ⟨hc, l, hr, hv⟩ => ⟨l, hc, hr, hv⟩⟩
    rw [hx]
    refine multiViolation_lowest ((hmem n).2 ⟨ch, hm, l, hl, hleaves⟩) (fun m hm => ?_) ?_
    · obtain ⟨c, hc, hv⟩ := (hmem m).1 hm
      exact hlowest c m hc hv
    · exact hmore.imp (fun ⟨c, m, hc, hne, hv⟩ => ⟨m, (hmem m).2 ⟨c, hc, hv⟩, hne⟩) id
  set counted := countedState s b f dt with hcountedState
  have hlevers : counted.levers = s.levers := by simp [hcountedState, countedState]
  set os := leverOutcomes counted b (srcOf f) f.payload with hos
  set x := raiseAll (leversWritten os counted) (leverEvents os) with hx
  have htaken : leversTaken b (srcOf f) f.payload counted =
      .changed (tripCause x .multiViolation n none none) (endedStrokes os) := by
    unfold leversTaken
    dsimp only
    rw [hmulti counted hlevers]
  have htells : Tells [.trip, .tripRepeated] (s.advance dt) x [] := by
    have hheard : Tells [.trip, .tripRepeated] (s.advance dt) (loopHeard (s.advance dt)) [] :=
      (Tells.refl _ _).loopHeard (by decide) (by decide)
    have hwritten : Tells [.trip, .tripRepeated] (s.advance dt) (leversWritten os counted) [] :=
      hheard.congr (by simp [hcountedState, countedState]) (by simp [hcountedState, countedState])
    have htold := hwritten.raiseAll (by decide) (leverEvents os)
    rwa [ofKinds_nil fun y hy => by rcases leverEvents_kinds os y hy with h | h <;> rw [h] <;> decide] at htold
  refine ⟨_, (exec_leverReport hcounted dt (purgedFor_multiViolation (s := s.advance dt) hb (hmulti (s.advance dt) rfl))).trans (congrArg (fun y => Host.Outcome.next (concluded (s.advance dt) y)) htaken), ?_, ?_⟩
  · refine tripCause_taken (s := s) (due := s.advance dt) rfl htells (by simp [hx, hcountedState, countedState]) ?_ ?_ (by simp [hx, hcountedState, countedState])
      (by simp [hx, hcountedState, countedState]) _ _ _
    all_goals rcases hpart with h | h | h <;> rw [h] <;> exact PartState.noConfusion
  · refine (leverStays_violation n).finishWith _ _ _ ?_
    have hself : recAt (leversWritten os counted).levers n = some (outcomeOf counted b f.payload ch n l).record :=
      leversWritten_self (leverOutcomes_nodup hd _ _) (mem_leverOutcomes.2 ⟨ch, l, hm, hlevers ▸ hl, rfl⟩) (hlevers ▸ hl)
    have hx' : (tripCause x .multiViolation n none none).levers = (leversWritten os counted).levers := by simp [hx]
    refine ⟨_, hx' ▸ hself, ?_⟩
    unfold outcomeOf
    change LeverRec.violation _ = true
    have hl' : leverFits l := hfits _ (recAt_mem hl)
    rw [leverTakes_violation hl', hleaves, Bool.or_true]

end Sys2Proof.Machine
end

section
/-! PROOF. LE's rounds: which strokes an arrival finds lost, each once, and what its readings leave of every lever (R79, R95,
R96, R97). -/

namespace Sys2Proof.Machine

/-! ### A lever through the readings -/

/-- `m'` is what the readings leave of the record `m`, the loss of its stroke told in them or not. -/
structure ReadOn (told : Bool) (m m' : LeverRec) : Prop where
  rest : m' = { m with release := m'.release, lock := m'.lock, strokeLoss := m.strokeLoss || told, lossTold := m.lossTold || told }
  left : leftOf m'.release = leftOf m.release
  stroke : leftOf m.release ≠ none → m'.release = m.release ∧ m'.lock = m.lock

theorem ReadOn.refl (m : LeverRec) : ReadOn false m m := ⟨by simp, rfl, fun _ => ⟨rfl, rfl⟩⟩

theorem decided_stroke (s : State) (b : Bank) (n : Nat) {l : LeverRec} (h : leftOf l.release ≠ none) : decided s b n l = l := by
  unfold decided
  cases hr : l.release <;> simp_all [leftOf, endOf]

theorem decided_left (s : State) (b : Bank) (n : Nat) (l : LeverRec) : leftOf (decided s b n l).release = leftOf l.release := by
  by_cases h : leftOf l.release = none
  · unfold decided
    dsimp only
    split
    · split <;> exact h.symm
    · split <;> exact h.symm
    · split <;> rfl
  · rw [decided_stroke s b n h]

theorem decided_rest (s : State) (b : Bank) (n : Nat) (l : LeverRec) :
    decided s b n l = { l with release := (decided s b n l).release, lock := (decided s b n l).lock } := by
  unfold decided
  dsimp only
  repeat' split
  all_goals rfl

theorem ReadOn.decided {k : Bool} {m m' : LeverRec} (h : ReadOn k m m') (s : State) (b : Bank) (n : Nat) :
    ReadOn k m (decided s b n m') where
  rest := by
    obtain ⟨hrest, -, -⟩ := h
    rw [decided_rest, hrest]
  left := (decided_left s b n m').trans h.left
  stroke hs := by
    rw [decided_stroke s b n (by rwa [h.left])]
    exact h.stroke hs

theorem ReadOn.tested {k : Bool} {m m' : LeverRec} (h : ReadOn k m m') :
    ReadOn true m { m' with strokeLoss := true, lossTold := true } where
  rest := by
    obtain ⟨hrest, -, -⟩ := h
    rw [hrest]
    simp
  left := h.left
  stroke := h.stroke

/-- The end whose list is tested stays the same through the readings (R79). -/
theorem ReadOn.testedEnd {k : Bool} {m m' : LeverRec} (h : ReadOn k m m') (ended : List (Nat × Position)) (n : Nat) :
    testedEnd ended n m' = testedEnd ended n m := by
  unfold Machine.testedEnd
  rw [h.left]
  cases hl : leftOf m.release with
  | none => rfl
  | some stood =>
    dsimp only
    rw [(h.stroke (by rw [hl]; exact Option.some_ne_none _)).2]

/-! ### What a set stroke-loss flag takes from the lists (R90) -/

/-- What holds in `t` holds in `s`: they read the same but for stroke-loss flags that only `t` has set, and for a part that runs
only in `s`. -/
structure ReadsBelow (t s : State) : Prop where
  levers : ∀ n, (recAt t.levers n = none ∧ recAt s.levers n = none) ∨ ∃ x y, recAt t.levers n = some x ∧
    recAt s.levers n = some y ∧ leverRead { x with strokeLoss := false } = leverRead { y with strokeLoss := false } ∧
    (y.strokeLoss = true → x.strokeLoss = true)
  tracks : t.tracks = s.tracks
  sections : t.sections = s.sections
  lamps : ∀ n, lampProven t n = lampProven s n
  links : ∀ l, (t.line l).link = (s.line l).link
  obstructions : ∀ l, t.obstruction l = s.obstruction l
  running : t.part = .running → s.part = .running

theorem readsNormal_lossless (l : LeverRec) : readsNormal l = readsNormal { l with strokeLoss := false } := rfl

theorem readsNormalIf_lossless (l m : LeverRec) (p : Byte) :
    readsNormalIf l m p = readsNormalIf { l with strokeLoss := false } { m with strokeLoss := false } p := rfl

theorem readsReverse_below {x y : LeverRec} (h : leverRead { x with strokeLoss := false } = leverRead { y with strokeLoss := false })
    (hloss : y.strokeLoss = true → x.strokeLoss = true) (hx : readsReverse x = true) : readsReverse y = true := by
  have hposition : x.position = y.position := (LeverRec.mk.inj h).1
  have hviolation : x.violation = y.violation := (LeverRec.mk.inj h).2.2.2.2.1
  unfold readsReverse at hx ⊢
  simp only [Bool.and_eq_true, decide_eq_true_eq, Bool.not_eq_true'] at hx ⊢
  obtain ⟨⟨hpos, hv⟩, hl⟩ := hx
  exact ⟨⟨hposition ▸ hpos, hviolation ▸ hv⟩, Bool.eq_false_iff.2 fun hy => by simp [hloss hy] at hl⟩

theorem ReadsBelow.sectionClear {t s : State} (h : ReadsBelow t s) {b : Bank} {n : Nat} (ht : sectionClear t b n = true) :
    sectionClear s b n = true := by
  unfold Machine.sectionClear at ht ⊢
  rw [h.sections] at ht
  simp only [h.links, h.obstructions] at ht
  cases hr : recAt s.sections n with
  | none => simp [hr] at ht
  | some r =>
    unfold sectionClearTest at ht ⊢
    simp only [hr, Bool.and_eq_true, decide_eq_true_eq] at ht ⊢
    have := h.running
    tauto

theorem ReadsBelow.conditionHolds {t s : State} (h : ReadsBelow t s) {b : Bank} {e : PoolEntry}
    (ht : conditionHolds t b e = true) : conditionHolds s b e = true := by
  have hothers : ∀ n, trackClear t n = trackClear s n ∧ sectionBlocked t b n = sectionBlocked s b n := fun n => by
    unfold trackClear sectionBlocked
    rw [h.tracks, h.sections]
    exact ⟨rfl, rfl⟩
  unfold Machine.conditionHolds at ht ⊢
  simp only [hothers, h.lamps] at ht
  dsimp only
  split_ifs at ht ⊢ with h0 h1 h2 h3 h4 h5 h6 h7
  · rfl
  · rcases h.levers e.object.toNat with ⟨hx, hy⟩ | ⟨x, y, hx, hy, hread, -⟩
    · simp [hx] at ht
    · simp only [hx, hy] at ht ⊢
      rwa [readsNormal_lossless, ← readsNormal_congr hread, ← readsNormal_lossless]
  · rcases h.levers e.object.toNat with ⟨hx, hy⟩ | ⟨x, y, hx, hy, hread, hloss⟩
    · simp [hx] at ht
    · simp only [hx, hy] at ht ⊢
      exact readsReverse_below hread hloss ht
  · rcases h.levers e.object.toNat with ⟨hx, hy⟩ | ⟨x, y, hx, hy, hread, -⟩
    · simp [hx] at ht
    · rcases h.levers e.second.toNat with ⟨hx', hy'⟩ | ⟨x', y', hx', hy', hread', -⟩
      · simp [hx, hx'] at ht
      · simp only [hx, hy, hx', hy'] at ht ⊢
        rwa [readsNormalIf_lossless, ← readsNormalIf_congr hread hread', ← readsNormalIf_lossless]
  · exact ht
  · exact h.sectionClear ht
  · exact ht
  · exact ht

theorem ReadsBelow.listHolds {t s : State} (h : ReadsBelow t s) {b : Bank} {r : ListRange} (hs : listHolds s b r = false) :
    listHolds t b r = false := by
  rw [← Bool.not_eq_true] at hs ⊢
  unfold Machine.listHolds at hs ⊢
  rw [List.all_eq_true] at hs ⊢
  exact fun hall => hs fun e he => h.conditionHolds (hall e he)

theorem readsSame_raise (s : State) (k : EventKind) (o d : Nat) : ReadsSame s (raise s k o d) where
  levers := by simp
  tracks := by simp
  sections := by simp
  lamps n := by simp [lampProven]
  part := by simp
  links l := by cases l <;> simp [State.line]
  obstructions l := by cases l <;> simp [State.obstruction]
  active a := by simp [State.unitActive]

/-- The stroke loss of a lever found, its flag set and its mark too. -/
def lossSet (s : State) (n : Nat) : State := modifyLever s n fun x => { x with strokeLoss := true, lossTold := true }

theorem lossSet_below (s : State) (n : Nat) : ReadsBelow (lossSet s n) s where
  levers m := by
    have hset := recAt_modifyRec s.levers n m fun x => { x with strokeLoss := true, lossTold := true }
    cases hl : recAt s.levers m with
    | none =>
      refine .inl ⟨hset.trans ?_, rfl⟩
      rw [hl]
      split <;> rfl
    | some l =>
      rw [hl] at hset
      by_cases hm : m = n
      · exact .inr ⟨_, l, hset.trans (if_pos hm), rfl, rfl, fun _ => rfl⟩
      · exact .inr ⟨l, l, hset.trans (if_neg hm), rfl, rfl, id⟩
  tracks := rfl
  sections := rfl
  lamps _ := rfl
  links l := by cases l <;> rfl
  obstructions l := by cases l <;> rfl
  running := id

/-! ### The rounds (R79, R96) -/

/-- From `x` LE's readings have come to `y`; the losses they found are `lost`, each a lever and the end that it left. -/
structure Rounds (ended : List (Nat × Position)) (b : Bank) (x y : State) (lost : List (Nat × Position)) : Prop where
  bank : y.bank = x.bank
  once : (lost.map Prod.fst).Nodup
  each : ∀ n m, recAt x.levers n = some m →
    ∃ m', recAt y.levers n = some m' ∧ ReadOn (decide (n ∈ lost.map Prod.fst)) m m'
  absent : ∀ n, recAt x.levers n = none → recAt y.levers n = none
  cause : ∀ n stood, (n, stood) ∈ lost → ∃ m, recAt x.levers n = some m ∧ m.lossTold = false ∧
    testedEnd ended n m = some stood ∧ listHolds y b (listFor (b.leverEntry n) stood) = false
  tells : ∀ ks s base, .frameDropped ∉ ks → .strokeLoss ∈ ks → Tells ks s x base →
    Tells ks s y (base ++ lost.map fun p => (EventKind.strokeLoss, p.1, p.2.code))

section
variable {ended : List (Nat × Position)} {b : Bank} {x y : State} {lost : List (Nat × Position)}

theorem Rounds.refl (ended : List (Nat × Position)) (b : Bank) (x : State) : Rounds ended b x x [] where
  bank := rfl
  once := List.nodup_nil
  each n m hm := ⟨m, hm, by simpa using ReadOn.refl m⟩
  absent _ hn := hn
  cause n stood h := by cases h
  tells ks s base _ _ h := by simpa using h

theorem Rounds.decideAll (h : Rounds ended b x y lost) : Rounds ended b x (decideAll b y) lost where
  bank := h.bank
  once := h.once
  each n m hm := by
    obtain ⟨m', hm', hread⟩ := h.each n m hm
    refine ⟨_, (recAt_mapRec y.levers (decided y b) n).trans (by rw [hm']; rfl), hread.decided y b n⟩
  absent n hn := (recAt_mapRec y.levers (decided y b) n).trans (by rw [h.absent n hn]; rfl)
  cause n stood hn := by
    obtain ⟨m, hm, htold, hend, hlist⟩ := h.cause n stood hn
    exact ⟨m, hm, htold, hend, ((decideAll_readsSame b y).listHolds b _).trans hlist⟩
  tells ks s base hdrop hloss ht := (h.tells ks s base hdrop hloss ht).congr rfl rfl

/-- A test that fires adds its lever to the losses. -/
theorem Rounds.lossSet (h : Rounds ended b x y lost) {n : Nat} {m m' : LeverRec} {stood : Position} (hm : recAt x.levers n = some m)
    (hm' : recAt y.levers n = some m') (hend : testedEnd ended n m = some stood) (htold : m'.lossTold = false)
    (hlist : listHolds y b (listFor (b.leverEntry n) stood) = false) :
    Rounds ended b x (raise (lossSet y n) .strokeLoss n stood.code) (lost ++ [(n, stood)]) := by
  obtain ⟨m₁, hm₁, hread⟩ := h.each n m hm
  obtain rfl : m₁ = m' := Option.some.inj (hm₁.symm.trans hm')
  have hfresh : m.lossTold = false ∧ n ∉ lost.map Prod.fst := by
    have hor := congrArg LeverRec.lossTold hread.rest
    rw [htold] at hor
    simpa using hor.symm
  have hlater : ∀ r, listHolds y b r = false → listHolds (raise (Machine.lossSet y n) .strokeLoss n stood.code) b r = false :=
    fun r hr => ((readsSame_raise ..).listHolds b r).trans ((lossSet_below y n).listHolds hr)
  have hlevers : (raise (Machine.lossSet y n) .strokeLoss n stood.code).levers =
      modifyRec y.levers n fun x => { x with strokeLoss := true, lossTold := true } := by
    simp only [raise_same]
    rfl
  refine ⟨(State.bank_of _ _ (by simp [Machine.lossSet])).trans h.bank, ?_, ?_, fun k hk => ?_, ?_, ?_⟩
  · rw [List.map_append, List.map_singleton]
    exact List.nodup_append.2 ⟨h.once, List.nodup_singleton n, fun a ha c hc hac =>
      hfresh.2 ((show a = n from hac.trans (List.mem_singleton.1 hc)) ▸ ha)⟩
  · intro k l hl
    obtain ⟨l', hl', hread'⟩ := h.each k l hl
    have hset : recAt (raise (Machine.lossSet y n) .strokeLoss n stood.code).levers k =
        if k = n then (recAt y.levers k).map (fun x => { x with strokeLoss := true, lossTold := true }) else recAt y.levers k := by
      rw [hlevers]
      exact recAt_modifyRec ..
    rw [hset, hl']
    by_cases hk : k = n
    · rw [if_pos hk]
      refine ⟨_, rfl, ?_⟩
      have hmem : decide (k ∈ (lost ++ [(n, stood)]).map Prod.fst) = true := by simp [hk]
      rw [hmem]
      exact hread'.tested
    · rw [if_neg hk]
      refine ⟨_, rfl, ?_⟩
      have hmem : decide (k ∈ (lost ++ [(n, stood)]).map Prod.fst) = decide (k ∈ lost.map Prod.fst) := by simp [hk]
      rw [hmem]
      exact hread'
  · rw [hlevers]
    refine (recAt_modifyRec ..).trans ?_
    rw [h.absent k hk]
    split <;> rfl
  · intro k e hk
    rcases List.mem_append.1 hk with hk | hk
    · obtain ⟨l, hl, ht, he, hlists⟩ := h.cause k e hk
      exact ⟨l, hl, ht, he, hlater _ hlists⟩
    · cases List.mem_singleton.1 hk
      exact ⟨m, hm, hfresh.1, hend, hlater _ hlist⟩
  · intro ks s base hdrop hloss ht
    have hbase := h.tells ks s base hdrop hloss ht
    have hset : Tells ks s (Machine.lossSet y n) (base ++ lost.map fun p => (EventKind.strokeLoss, p.1, p.2.code)) :=
      hbase.congr rfl rfl
    have htold' := hset.raise hdrop .strokeLoss n stood.code
    rw [List.map_append, ← List.append_assoc]
    have hkept : ofKinds ks [(EventKind.strokeLoss, n, stood.code)] = [(EventKind.strokeLoss, n, stood.code)] := by
      simp [ofKinds, hloss]
    rwa [hkept] at htold'

theorem Rounds.strokeTest (h : Rounds ended b x y lost) (n : Nat) : ∃ lost', Rounds ended b x (strokeTest b ended y n) lost' := by
  unfold Machine.strokeTest
  cases hm' : recAt y.levers n with
  | none => exact ⟨lost, h⟩
  | some m' =>
    dsimp only
    cases hend : Machine.testedEnd ended n m' with
    | none => exact ⟨lost, h⟩
    | some stood =>
      dsimp only
      split
      · next hfires =>
        simp only [Bool.and_eq_true, Bool.not_eq_true'] at hfires
        obtain ⟨htold, hlist⟩ := hfires
        cases hm : recAt x.levers n with
        | none => exact absurd ((h.absent n hm).symm.trans hm') (Option.some_ne_none _).symm
        | some m =>
          obtain ⟨m₁, hm₁, hread⟩ := h.each n m hm
          obtain rfl : m₁ = m' := Option.some.inj (hm₁.symm.trans hm')
          exact ⟨_, h.lossSet hm hm' ((hread.testedEnd ended n).symm.trans hend) htold hlist⟩
      · exact ⟨lost, h⟩

/-- LE's readings of an arrival: the losses they find are those of exactly the levers whose tested list does not hold in the last
reading, and that have not told of it (R79, R96, R97). -/
theorem concludeLevers_rounds {s : State} (hb : s.bank = some b) (ended : List (Nat × Position)) :
    ∃ lost, Rounds ended b { s with levers := s.levers.map fun p => (p.1, lockedUnless (s.part = .running) p.2) }
        (concludeLevers ended s) lost ∧ Quiet b ended (concludeLevers ended s) := by
  set x : State := { s with levers := s.levers.map fun p => (p.1, lockedUnless (s.part = .running) p.2) } with hx
  have hk : untold x.levers ≤ s.levers.length + 1 := by
    have := List.countP_le_length (p := fun p : Nat × LeverRec => !p.2.lossTold) (l := x.levers)
    simp only [x, List.length_map] at this
    exact this.trans (Nat.le_succ _)
  obtain ⟨z, ⟨lost, hz⟩, hlast, hquiet⟩ := leverRounds_last (P := fun y => ∃ lost, Rounds ended b x y lost) (b := b)
    (ended := ended) (fun y ⟨lost, hy⟩ => ⟨lost, hy.decideAll⟩)
    (fun y hy => foldl_keeps (P := fun y => ∃ lost, Rounds ended b x y lost) (fun _ n ⟨_, h⟩ => h.strokeTest n) _ hy)
    (s.levers.length + 1) x s ⟨[], .refl ended b x⟩ hk
  have hreading : concludeLevers ended s = Machine.decideAll b z := by
    unfold concludeLevers leverReadings
    rw [hb]
    exact hlast
  rw [hreading]
  exact ⟨lost, hz.decideAll, hquiet⟩

/-- Once no test fires any more, a loss was found exactly where the tested list does not hold and none was told before. -/
theorem Rounds.mem_lost (h : Rounds ended b x y lost) (hquiet : Quiet b ended y) {n : Nat} {stood : Position} :
    (n, stood) ∈ lost ↔ ∃ m, recAt x.levers n = some m ∧ m.lossTold = false ∧ testedEnd ended n m = some stood ∧
      listHolds y b (listFor (b.leverEntry n) stood) = false := by
  refine ⟨h.cause n stood, fun ⟨m, hm, htold, hend, hlist⟩ => ?_⟩
  obtain ⟨m', hm', hread⟩ := h.each n m hm
  have hnumber : n ∈ y.levers.map Prod.fst := List.mem_map_of_mem (f := Prod.fst) (recAt_mem hm')
  rcases strokeTest_quiet (hquiet n hnumber) hm' ((hread.testedEnd ended n).trans hend) with ht | hl
  · have hlost : n ∈ lost.map Prod.fst := by
      have hor := congrArg LeverRec.lossTold hread.rest
      rw [ht] at hor
      simpa [htold] using hor
    obtain ⟨⟨k, e⟩, hke, rfl⟩ := List.mem_map.1 hlost
    obtain ⟨l, hl, -, he, -⟩ := h.cause k e hke
    obtain rfl : l = m := Option.some.inj (hl.symm.trans hm)
    rwa [Option.some.inj (he.symm.trans hend)] at hke
  · simp [hl] at hlist

end

end Sys2Proof.Machine
end

section
/-! PROOF. The end of an arrival after LE's readings: only the end of STARTING moves a lever again, and it finds no stroke lost
(R73, R96, R173). -/

namespace Sys2Proof.Machine

/-! ### A reading of levers that are all locked -/

theorem strokeTests_locked {b : Bank} {s : State} (h : ∀ p ∈ s.levers, leftOf p.2.release ≠ none → p.2.lock = .locked) :
    strokeTests b [] s = s := by
  have htest : ∀ n, strokeTest b [] s n = s := by
    intro n
    unfold strokeTest
    cases hl : recAt s.levers n with
    | none => rfl
    | some l =>
      have hend : testedEnd [] n l = none := by
        unfold testedEnd
        cases hleft : leftOf l.release with
        | none => rfl
        | some stood =>
          have hlocked := h _ (recAt_mem hl) (by rw [hleft]; exact Option.some_ne_none _)
          dsimp only at hlocked ⊢
          rw [if_neg (by rw [hlocked]; exact Lock.noConfusion)]
      dsimp only
      rw [hend]
  exact foldl_keeps (P := fun x => x = s) (fun x n hx => hx ▸ htest n) _ rfl

theorem concludeLevers_locked {b : Bank} {s : State} (hb : s.bank = some b) (h : ∀ p ∈ s.levers, p.2.lock = .locked) :
    concludeLevers [] s = decideAll b s := by
  have hunless : s.levers.map (fun p => (p.1, lockedUnless (s.part = .running) p.2)) = s.levers := by
    conv_rhs => rw [← List.map_id s.levers]
    refine List.map_congr_left fun p hp => ?_
    unfold lockedUnless
    split
    · rfl
    · have hlock := h p hp
      obtain ⟨n, l⟩ := p
      cases l
      simp_all
  have htests : strokeTests b [] (decideAll b s) = decideAll b s := by
    refine strokeTests_locked fun p hp hleft => ?_
    obtain ⟨q, hq, rfl⟩ := List.mem_map.1 hp
    have hq' : leftOf q.2.release ≠ none := by rwa [← decided_left s b q.1 q.2]
    dsimp only
    rw [decided_stroke s b q.1 hq']
    exact h q hq
  unfold concludeLevers leverReadings
  rw [hb]
  dsimp only
  rw [hunless]
  unfold leverRounds
  dsimp only
  rw [htests, if_pos rfl]
  rfl

/-! ### What the rest of the end of an arrival keeps -/

/-- What placing keeps, and the end of STARTING where that ends, the end of an arrival keeps after LE's readings. -/
theorem finishWith_keeps {P : State → Prop} (hplace : PlaceKeeps P) {ended : List (Nat × Position)} {s : State}
    (hread : P (concludeLevers ended s)) (hbegin : ∀ x, x.part = .starting → P x → P (concludeLevers [] (startingEnds x)))
    (pass : List State) (old : State) : P (finishWith ended pass old s) := by
  have hstarting : ∀ x, P x → startingChecked x ≠ x → P (concludeLevers [] (startingChecked x)) := by
    intro x hx hne
    rcases startingChecked_cases x with hc | ⟨hp, -, hc⟩
    · exact absurd hc hne
    · rw [hc]
      exact hbegin x hp hx
  have hreadings : P ((readingsWith ended s).getLastD s) := by
    rw [readingsWith_last]
    split
    · exact hread
    · next h => exact hstarting _ hread fun he => h (congrArg State.part he)
  refine hplace.arbiters _ ?_
  have hsettled := hplace.settle (pass.getLastD old) (readingsWith ended s) (hplace.settlePass pass hreadings)
  unfold startingEnded
  dsimp only
  split
  · exact hsettled
  · next h => exact hplace.settle _ _ (hstarting _ hsettled fun he => h (congrArg State.part he))

/-- A kind of event that only LE or what an arrival itself does raises. -/
def ownKinds (ks : List EventKind) : Prop :=
  (∀ k ∈ placingEvents, k ∉ ks) ∧ .lampFault ∉ ks ∧ .lampRecovered ∉ ks ∧ .start ∉ ks

theorem ownKinds.dropped {ks : List EventKind} (h : ownKinds ks) : .frameDropped ∉ ks := h.1 _ (by simp [placingEvents])

theorem Tells.alarmsAgree {ks : List EventKind} (hks : ownKinds ks) {s t : State} {new : List (EventKind × Nat × Nat)}
    (h : Tells ks s t new) : Tells ks s (Machine.alarmsAgree t) new := by
  refine foldl_keeps (P := fun x => Tells ks s x new) (fun x p hx => ?_) t.lamps h
  have hset : Tells ks s (modifyLamp x p.1 fun r => { r with alarm := (alarmAgree p.2.alarm p.2.state).1 }) new := hx.congr rfl rfl
  have hkinds := alarmAgree_kinds p.2.alarm p.2.state
  dsimp only
  revert hset hkinds
  generalize alarmAgree p.2.alarm p.2.state = step
  intro hset hkinds
  unfold Machine.raiseAlarm
  split
  · exact hset.other hks.dropped hks.2.1 _ _
  · next e _ he =>
    have hkind : e ∉ ks := by
      rcases hkinds e he with rfl | rfl
      · exact hks.2.1
      · exact hks.2.2.1
    exact hset.other hks.dropped hkind _ _
  · exact hset

theorem Tells.startingEnds {ks : List EventKind} (hks : ownKinds ks) {s t : State} {new : List (EventKind × Nat × Nat)}
    (h : Tells ks s t new) : Tells ks s (Machine.startingEnds t) new := by
  have hbegun : Tells ks s { t with part := .running, startTimer := none } new := h.congr rfl rfl
  exact (hbegun.alarmsAgree hks).other hks.dropped hks.2.2.2 _ _

/-- From LE's conclusion `c` of an arrival, its end has come to `x`. -/
structure EndedFrom (c x : State) : Prop where
  bank : x.bank = c.bank
  kept : x.part = c.part → x.levers = c.levers
  part : x.part = c.part ∨ (c.part = .starting ∧ x.part = .running)
  each : ∀ n m, recAt c.levers n = some m → ∃ m', recAt x.levers n = some m' ∧ ReadOn false m m'
  absent : ∀ n, recAt c.levers n = none → recAt x.levers n = none
  tells : ∀ ks s new, ownKinds ks → Tells ks s c new → Tells ks s x new

theorem EndedFrom.refl (c : State) : EndedFrom c c where
  bank := rfl
  kept _ := rfl
  part := .inl rfl
  each _ m hm := ⟨m, hm, .refl m⟩
  absent _ h := h
  tells _ _ _ _ h := h

/-- What moves no lever and no part, and raises nothing but what placing raises, goes on. -/
theorem EndedFrom.same {c x y : State} (h : EndedFrom c x) (hbank : y.bank = x.bank) (hlevers : y.levers = x.levers)
    (hpart : y.part = x.part) (htells : ∀ ks s new, ownKinds ks → Tells ks s x new → Tells ks s y new) : EndedFrom c y where
  bank := hbank.trans h.bank
  kept hp := hlevers.trans (h.kept (hpart.symm.trans hp))
  part := hpart ▸ h.part
  each := hlevers ▸ h.each
  absent := hlevers ▸ h.absent
  tells ks s new hks ht := htells ks s new hks (h.tells ks s new hks ht)

theorem EndedFrom.placeKeeps (c : State) : PlaceKeeps (EndedFrom c) where
  outputs _ _ h := h.same rfl rfl rfl fun _ _ _ _ ht => ht.congr rfl rfl
  placed _ _ _ _ _ _ h := h.same (State.bank_of _ _ (by simp)) (by simp) (by simp) fun _ _ _ hks ht => ht.place hks.1 _
  instr _ _ _ _ h := h.same (State.bank_of _ _ (by simp)) (by simp) (by simp) fun _ _ _ hks ht => ht.placeLine hks.1 _ _
  arbiters _ h := h.same (State.bank_of _ _ (by simp)) (by simp) (by simp) fun _ _ _ _ ht => ht.arbiters

/-- Where STARTING ends, every lock was LOCKED, and the reading only decides the levers (R73). -/
theorem EndedFrom.begun {c x : State} (h : EndedFrom c x) {b : Bank} (hb : c.bank = some b) (hheld : LocksHeld c)
    (hx : x.part = .starting) : EndedFrom c (concludeLevers [] (startingEnds x)) := by
  have hc : c.part = .starting := by
    rcases h.part with hp | ⟨hp, -⟩
    · exact hp.symm.trans hx
    · exact hp
  have hlevers : (startingEnds x).levers = c.levers := by
    rw [← h.kept (hx.trans hc.symm)]
    unfold startingEnds
    simp
  have hbank : (startingEnds x).bank = some b := by
    refine Eq.trans (State.bank_of _ _ ?_) (h.bank.trans hb)
    unfold startingEnds
    simp
  have hpart : (startingEnds x).part = .running := by
    unfold startingEnds
    simp
  have hlocked : ∀ p ∈ (startingEnds x).levers, p.2.lock = .locked := hlevers ▸ hheld (hc ▸ PartState.noConfusion)
  have heach : ∀ n, recAt (decideAll b (startingEnds x)).levers n =
      (recAt c.levers n).map (decided (startingEnds x) b n) := fun n =>
    (recAt_mapRec (startingEnds x).levers (decided (startingEnds x) b) n).trans (by rw [hlevers])
  rw [concludeLevers_locked hbank hlocked]
  exact {
    bank := hbank.trans hb.symm
    kept := fun hp => absurd (hpart.symm.trans (hp.trans hc)) PartState.noConfusion
    part := .inr ⟨hc, hpart⟩
    each := fun n m hm => ⟨_, (heach n).trans (by rw [hm]; rfl), (ReadOn.refl m).decided (startingEnds x) b n⟩
    absent := fun n hn => (heach n).trans (by rw [hn]; rfl)
    tells := fun ks s new hks ht => ((h.tells ks s new hks ht).startingEnds hks).congr rfl rfl }

/-- The end of an arrival, from LE's conclusion on. -/
theorem finishWith_ended {s : State} {b : Bank} (hb : s.bank = some b) (ended : List (Nat × Position)) (pass : List State)
    (old : State) : EndedFrom (concludeLevers ended s) (finishWith ended pass old s) := by
  have hbank : (concludeLevers ended s).bank = some b := (State.bank_of _ _ (by simp)).trans hb
  exact finishWith_keeps (EndedFrom.placeKeeps _) (.refl _)
    (fun x hx h => h.begun hbank (concludeLevers_locksHeld ended hb) hx) pass old

end Sys2Proof.Machine
end

section
/-! PROOF. What a counted LEVER_REPORT does to the levers, and the events it raises (R71, R75 to R80, R83, R97). -/

namespace Sys2Proof.Machine

/-! ### The end that is tested for a lever of the report (R79, R97) -/

/-- The end that a lever has left, or is to leave, in its stroke. -/
def strokeLeft (l : LeverRec) : Option Position := (leftOf l.release).or (endOf l.release)

theorem freeStrokeLeft_eq (l : LeverRec) (pos : Position) (run : Bool) : freeStrokeLeft l pos run =
    if l.lock = .free then
      if pos = .mid then (if run then strokeLeft l else none)
      else if pos = .reverse ∨ pos = .fault then leftOf l.release else none
    else none := by
  unfold freeStrokeLeft strokeLeft
  cases pos <;> cases run <;> cases l.release <;> simp [leftOf, endOf]

theorem lockedUnless_fields (run : Bool) (l : LeverRec) : (lockedUnless run l).release = l.release ∧
    (lockedUnless run l).lossTold = l.lossTold ∧ (lockedUnless run l).strokeLoss = l.strokeLoss ∧
    leverCore (lockedUnless run l) = leverCore l ∧ ((lockedUnless run l).lock = .free ↔ run = true ∧ l.lock = .free) := by
  cases run <;> simp [lockedUnless, leverCore]

theorem strokeTold_eq {l : LeverRec} (h : leftOf l.release ≠ none) : strokeTold l = l.lossTold := by
  unfold strokeTold
  cases hr : l.release <;> simp_all [leftOf]

section
variable {l : LeverRec} (hfits : leverFits l)
include hfits

theorem strokeLeft_mid (h : l.position = .mid) : strokeLeft l = leftOf l.release := by
  unfold leverFits at hfits
  unfold strokeLeft
  cases hr : l.release <;> rw [hr] at hfits <;> simp_all [leftOf, endOf]

theorem leftOf_mid (h : l.position ≠ .mid) : leftOf l.release = none := by
  unfold leverFits at hfits
  cases hr : l.release <;> rw [hr] at hfits <;> simp_all [leftOf]

/-- A lever whose record stays as it is. -/
theorem standing_tested {ended : List (Nat × Position)} {n : Nat} (hended : ended.lookup n = none) (run : Bool) :
    testedEnd ended n (lockedUnless run l) = freeStrokeLeft l l.position run := by
  obtain ⟨hrelease, -, -, -, hlock⟩ := lockedUnless_fields run l
  rw [freeStrokeLeft_eq]
  unfold testedEnd
  rw [hrelease]
  by_cases hm : l.position = .mid
  · rw [strokeLeft_mid hfits hm, if_pos hm]
    cases leftOf l.release with
    | none => simp [hended]
    | some stood => cases run <;> simp [hlock]
  · rw [leftOf_mid hfits hm]
    simp [hm, hended]

variable (s : State) (e : LeverEntry) (c : Bool) {pos : Position} (hpos : pos ≠ .unknown)
include hpos

/-- Of the records that a report gives, those at MID are in a stroke (R75, R77). -/
theorem leverTakes_left : leftOf (leverTakes s e l pos c).record.release = if pos = .mid then strokeLeft l else none := by
  unfold leverTakes
  split
  · next h =>
    split
    · next hm => exact (strokeLeft_mid hfits (h.1.symm.trans hm)).symm
    · next hm => exact leftOf_mid hfits fun hp => hm (h.1.trans hp)
  · have hmid := strokeLeft_mid hfits
    cases pos with
    | normal => cases l.release <;> simp [arriveNormal, leftOf]
    | reverse => cases l.release <;> simp [arriveReverse, leftOf]
    | mid => cases hr : l.release <;> simp [arriveMid, hr, leftOf, strokeLeft, endOf]
    | fault => simp [arriveFault, leftOf]
    | unknown => exact absurd rfl hpos

omit hpos in
/-- A stroke that a report leaves at MID keeps its lock, and the mark of its loss where it has begun before (R75, R79). -/
theorem leverTakes_mid (h : strokeLeft l ≠ none) : (leverTakes s e l .mid c).record.lock = l.lock ∧
    (leverTakes s e l .mid c).record.lossTold = strokeTold l := by
  unfold leverTakes
  split
  · next hm =>
    have hleft : leftOf l.release ≠ none := (strokeLeft_mid hfits hm.1.symm) ▸ h
    exact ⟨rfl, (strokeTold_eq hleft).symm⟩
  · unfold strokeLeft at h
    unfold strokeTold
    cases hr : l.release <;> simp_all [arriveMid, leftOf, endOf]

omit hfits in
/-- A report that does not leave a lever at MID leaves the mark of its loss. -/
theorem leverTakes_away (hm : pos ≠ .mid) : (leverTakes s e l pos c).record.lossTold = l.lossTold := by
  unfold leverTakes
  split
  · rfl
  · cases pos with
    | normal => cases l.release <;> simp [arriveNormal]
    | reverse => cases l.release <;> simp [arriveReverse]
    | mid => exact absurd rfl hm
    | fault => rfl
    | unknown => rfl

/-- The end tested for a lever of the report is the one that its FREE stroke left (R79, R97). -/
theorem leverTakes_tested {ended : List (Nat × Position)} {n : Nat}
    (hended : ended.lookup n = (leverTakes s e l pos c).endedFree) (run : Bool) :
    testedEnd ended n (lockedUnless run (leverTakes s e l pos c).record) = freeStrokeLeft l pos run := by
  obtain ⟨hrelease, -, -, -, hlock⟩ := lockedUnless_fields run (leverTakes s e l pos c).record
  rw [leverTakes_endedFree hfits] at hended
  rw [freeStrokeLeft_eq]
  unfold testedEnd
  rw [hrelease, leverTakes_left hfits s e c hpos]
  by_cases hm : pos = .mid
  · subst hm
    rw [if_pos rfl]
    cases hs : strokeLeft l with
    | none => simp [hended]
    | some stood =>
      rw [(leverTakes_mid hfits s e c (by rw [hs]; exact Option.some_ne_none _)).1] at hlock
      cases run <;> simp [hlock]
  · rw [if_neg hm]
    dsimp only
    rw [hended, if_neg hm]
    by_cases hfree : l.lock = .free <;> simp [hfree]

theorem leverTakes_lossTold {run : Bool} {stood : Position} (hfree : freeStrokeLeft l pos run = some stood) :
    (leverTakes s e l pos c).record.lossTold = strokeTold l := by
  rw [freeStrokeLeft_eq] at hfree
  split at hfree
  · split at hfree
    · next hm =>
      split at hfree
      · subst hm
        exact (leverTakes_mid hfits s e c (by rw [hfree]; exact Option.some_ne_none _)).2
      · cases hfree
    · next hm =>
      split at hfree
      · exact (leverTakes_away s e c hpos hm).trans (strokeTold_eq (by rw [hfree]; exact Option.some_ne_none _)).symm
      · cases hfree
  · cases hfree

end

theorem standing_lossTold {l : LeverRec} (hfits : leverFits l) {run : Bool} {stood : Position}
    (hfree : freeStrokeLeft l l.position run = some stood) : l.lossTold = strokeTold l := by
  refine (strokeTold_eq fun hleft => ?_).symm
  rw [freeStrokeLeft_eq] at hfree
  by_cases hm : l.position = .mid
  · rw [strokeLeft_mid hfits hm, hleft] at hfree
    simp at hfree
  · simp [hm, hleft] at hfree

/-! ### The strokes that an arrival finds lost -/

theorem ReadOn.trans {k : Bool} {l m n : LeverRec} (h : ReadOn k l m) (h' : ReadOn false m n) : ReadOn k l n where
  rest := by
    obtain ⟨hrest, -, -⟩ := h
    obtain ⟨hrest', -, -⟩ := h'
    rw [hrest', hrest]
    simp
  left := h'.left.trans h.left
  stroke hl := by
    obtain ⟨hr, hlock⟩ := h.stroke hl
    obtain ⟨hr', hlock'⟩ := h'.stroke (by rwa [h.left])
    exact ⟨hr'.trans hr, hlock'.trans hlock⟩

theorem ReadOn.read {m m' : LeverRec} (h : ReadOn false m m') :
    leverRead { m' with strokeLoss := false } = leverRead { m with strokeLoss := false } ∧ m'.strokeLoss = m.strokeLoss := by
  obtain ⟨hrest, -, -⟩ := h
  rw [hrest]
  exact ⟨rfl, Bool.or_false _⟩

theorem lampProven_cores {y z : State} (h : cores lampCore z.lamps = cores lampCore y.lamps) (n : Nat) :
    lampProven z n = lampProven y n := by
  unfold lampProven
  rcases cores_recAt_cases h n with ⟨hz, hy⟩ | ⟨p, q, hz, hy, hpq⟩
  · rw [hz, hy]
  · rw [hz, hy]
    have hstate : p.state = q.state := (LampRec.mk.inj hpq).1
    simp only [hstate]

/-- Two states that the end of one arrival leaves read the same but for the levers and the part. -/
theorem Concluded.below {x y z : State} (hy : Concluded x y) (hz : Concluded x z)
    (hlevers : ∀ n, (recAt y.levers n = none ∧ recAt z.levers n = none) ∨ ∃ l m, recAt y.levers n = some l ∧
      recAt z.levers n = some m ∧ leverRead { l with strokeLoss := false } = leverRead { m with strokeLoss := false } ∧
      (m.strokeLoss = true → l.strokeLoss = true)) (hpart : y.part = .running → z.part = .running) : ReadsBelow y z where
  levers := hlevers
  tracks := by rw [hy.rest, hz.rest]
  sections := by rw [hy.rest, hz.rest]
  lamps := lampProven_cores (hy.lamps.1.trans hz.lamps.1.symm)
  links l := by
    obtain ⟨⟨_, _, ha⟩, _, _, hb⟩ := hy.lines
    obtain ⟨⟨_, _, ha'⟩, _, _, hb'⟩ := hz.lines
    cases l
    · show y.lineA.link = z.lineA.link
      rw [ha, ha']
    · show y.lineB.link = z.lineB.link
      rw [hb, hb']
  obstructions l := by cases l <;> (rw [hy.rest, hz.rest]; rfl)
  running := hpart

theorem decided_fits (s : State) (b : Bank) (n : Nat) {l : LeverRec} (h : leverFits l) : leverFits (decided s b n l) := by
  unfold leverFits at h
  unfold decided
  cases hr : l.release <;> simp only [hr] at h <;> simp only [endOf]
  case nLocked | nFree | rLocked | rFree => split <;> simpa [leverFits] using h
  case strokeN | strokeR | unknown => simpa [leverFits, hr] using h

theorem leverStays_fits (n : Nat) : LeverStays n leverFits where
  locked _ h := h
  decided s b _ h := decided_fits s b n h
  tested _ h := h

/-- The strokes that the end of an arrival finds lost, and what it leaves of the levers (R79, R95, R96, R97). -/
structure EndStrokes (ended : List (Nat × Position)) (b : Bank) (x t : State) (lost : List (Nat × Position)) : Prop where
  once : (lost.map Prod.fst).Nodup
  each : ∀ n r, recAt x.levers n = some r →
    ∃ l, recAt t.levers n = some l ∧ ReadOn (decide (n ∈ lost.map Prod.fst)) (lockedUnless (x.part = .running) r) l
  fits : ∀ n r l, recAt x.levers n = some r → leverFits r → recAt t.levers n = some l → leverFits l
  cause : ∀ n stood, (n, stood) ∈ lost → ∃ r, recAt x.levers n = some r ∧ r.lossTold = false ∧
    testedEnd ended n (lockedUnless (x.part = .running) r) = some stood ∧
    (t.part = x.part → listHolds t b (listFor (b.leverEntry n) stood) = false)
  found : ∀ n stood r, recAt x.levers n = some r → r.lossTold = false →
    testedEnd ended n (lockedUnless (x.part = .running) r) = some stood →
    listHolds t b (listFor (b.leverEntry n) stood) = false → (n, stood) ∈ lost
  tells : ∀ ks s base, ownKinds ks → .strokeLoss ∈ ks → Tells ks s x base →
    Tells ks s t (base ++ lost.map fun p => (EventKind.strokeLoss, p.1, p.2.code))

theorem finishWith_strokes {x : State} {b : Bank} (hb : x.bank = some b) (ended : List (Nat × Position)) (pass : List State)
    (old : State) : ∃ lost, EndStrokes ended b x (finishWith ended pass old x) lost := by
  obtain ⟨lost, hrounds, hquiet⟩ := concludeLevers_rounds hb ended
  have hend := finishWith_ended hb ended pass old
  have hc := concludeLevers_concluded ended x
  have ht := finishWith_concluded ended pass old x
  set c := concludeLevers ended x
  set t := finishWith ended pass old x
  have hcpart : c.part = x.part := by simp [c]
  have hfirst : ∀ n r, recAt x.levers n = some r →
      recAt (x.levers.map fun p => (p.1, lockedUnless (x.part = .running) p.2)) n =
        some (lockedUnless (x.part = .running) r) := fun n r hr =>
    (recAt_mapRec x.levers (fun _ => lockedUnless (x.part = .running)) n).trans (by rw [hr]; rfl)
  have hlevers : ∀ n, (recAt c.levers n = none ∧ recAt t.levers n = none) ∨ ∃ l m, recAt c.levers n = some l ∧
      recAt t.levers n = some m ∧ leverRead { m with strokeLoss := false } = leverRead { l with strokeLoss := false } ∧
      m.strokeLoss = l.strokeLoss := by
    intro n
    cases hn : recAt c.levers n with
    | none => exact .inl ⟨rfl, hend.absent n hn⟩
    | some l =>
      obtain ⟨m, hm, hread⟩ := hend.each n l hn
      exact .inr ⟨l, m, rfl, hm, hread.read⟩
  have hholds : ReadsBelow c t := hc.below ht (fun n => (hlevers n).imp_right fun ⟨l, m, hl, hm, hread, hloss⟩ =>
    ⟨l, m, hl, hm, hread.symm, fun h => hloss.symm.trans h⟩) fun hrun => by
      rcases hend.part with hp | ⟨-, hp⟩
      · exact hp.trans hrun
      · exact hp
  have hback : t.part = x.part → ReadsBelow t c := fun hp => ht.below hc (fun n => by
    rcases hlevers n with ⟨hn, hn'⟩ | ⟨l, m, hl, hm, hread, hloss⟩
    · exact .inl ⟨hn', hn⟩
    · exact .inr ⟨m, l, hm, hl, hread, fun h => hloss.trans h⟩) fun hrun => hcpart.trans (hp.symm.trans hrun)
  refine ⟨lost, hrounds.once, fun n r hr => ?_, fun n r l hr hfit hl => ?_, fun n stood hn => ?_, fun n stood r hr htold hstood hlist => ?_,
    fun ks s base hks hloss htells => ?_⟩
  · obtain ⟨m, hm, hread⟩ := hrounds.each n _ (hfirst n r hr)
    obtain ⟨l, hl, hread'⟩ := hend.each n m hm
    exact ⟨l, hl, hread.trans hread'⟩
  · obtain ⟨l', hl', hfit'⟩ := (leverStays_fits n).finishWith ended pass old ⟨r, hr, hfit⟩
    exact Option.some.inj (hl'.symm.trans hl) ▸ hfit'
  · obtain ⟨m, hm, htold, hstood, hlist⟩ := hrounds.cause n stood hn
    cases hr : recAt x.levers n with
    | none =>
      have hnone := recAt_mapRec x.levers (fun _ => lockedUnless (x.part = .running)) n
      rw [hr] at hnone
      exact absurd (hnone.symm.trans hm) (Option.some_ne_none _).symm
    | some r =>
      obtain rfl := Option.some.inj ((hfirst n r hr).symm.trans hm)
      exact ⟨r, rfl, (lockedUnless_fields _ r).2.1.symm.trans htold, hstood, fun hp => (hback hp).listHolds hlist⟩
  · exact (hrounds.mem_lost hquiet).2 ⟨_, hfirst n r hr, (lockedUnless_fields _ r).2.1.trans htold, hstood,
      hholds.listHolds hlist⟩
  · have hlocked : Tells ks s { x with levers := x.levers.map fun p => (p.1, lockedUnless (x.part = .running) p.2) } base :=
      htells.congr rfl rfl
    exact hend.tells ks s _ hks (hrounds.tells ks s base hks.dropped hloss hlocked)

end Sys2Proof.Machine
end

section
/-! PROOF. What a counted LEVER_REPORT does to the levers, and the events it raises (R71, R75 to R80, R83, R97). -/

namespace Sys2Proof.Machine

/-! ### The record that a report gives -/

section
variable {l : LeverRec} (hfits : leverFits l) (s : State) (e : LeverEntry) (c : Bool) {pos : Position} (hpos : pos ≠ .unknown)

include hpos in
theorem leverTakes_position : (leverTakes s e l pos c).record.position = pos ∧ (leverTakes s e l pos c).record.catchUp = c := by
  unfold leverTakes
  split
  · next h => exact ⟨h.1.symm, h.2.symm⟩
  · cases pos with
    | normal => cases l.release <;> simp [arriveNormal]
    | reverse => cases l.release <;> simp [arriveReverse]
    | mid => cases l.release <;> simp [arriveMid]
    | fault => exact ⟨rfl, rfl⟩
    | unknown => exact absurd rfl hpos

include hfits

/-- An arrival at NORMAL clears stroke loss; nothing else of a report moves the flag (R77). -/
theorem leverTakes_strokeLoss : (leverTakes s e l pos c).record.strokeLoss =
    if pos = .normal ∧ l.position ≠ .normal then false else l.strokeLoss := by
  unfold leverTakes
  unfold leverFits at hfits
  split
  · next h => rw [if_neg fun hn => hn.2 (h.1.symm.trans hn.1)]
  · cases hr : l.release <;> rw [hr] at hfits <;> cases pos <;>
      simp_all [arriveNormal, arriveReverse, arriveMid, arriveFault]

theorem leverTakes_approach : (leverTakes s e l pos c).record.approach =
    if pos = .normal ∧ l.position ≠ .normal ∧ startsApproach s e l = true then some (s.after (e.approachTime.toNat * 100))
    else l.approach := by
  unfold leverTakes
  unfold leverFits at hfits
  split
  · next h => rw [if_neg fun hn => hn.2.1 (h.1.symm.trans hn.1)]
  · cases hr : l.release <;> rw [hr] at hfits <;> cases pos <;>
      simp_all [arriveNormal, arriveReverse, arriveMid, arriveFault, approachSet, startsApproach, and_assoc]

theorem leverTakes_fits (hpos : pos ≠ .unknown) : leverFits (leverTakes s e l pos c).record := by
  unfold leverTakes
  split
  · exact hfits
  · unfold leverFits at hfits ⊢
    cases hr : l.release <;> rw [hr] at hfits <;> cases pos <;>
      simp_all [arriveNormal, arriveReverse, arriveMid, arriveFault]

/-- A stroke begins at the end the lever stood at (R75). -/
theorem leverTakes_begins (hend : l.position = .normal ∨ l.position = .reverse) :
    (leverTakes s e l .mid c).record.release = (if l.position = .normal then .strokeN else .strokeR) ∧
    (leverTakes s e l .mid c).record.lock = l.lock := by
  unfold leverTakes
  unfold leverFits at hfits
  rw [if_neg fun h => by rcases hend with hp | hp <;> exact absurd (h.1.trans hp) Position.noConfusion]
  cases hr : l.release <;> rw [hr] at hfits <;> simp_all [arriveMid]

end

/-! ### The strokes that a report ends, and the events of its levers -/

theorem endedStrokes_other {os : List (Nat × LeverOutcome)} {n : Nat} (h : n ∉ os.map Prod.fst) :
    (endedStrokes os).lookup n = none := by
  rw [List.lookup_eq_none_iff]
  intro p hp
  obtain ⟨o, ho, he⟩ := List.mem_filterMap.1 hp
  obtain ⟨stood, -, rfl⟩ := Option.map_eq_some_iff.1 he
  have hne : n ≠ o.1 := fun hn => h (hn ▸ List.mem_map_of_mem (f := Prod.fst) ho)
  simpa using hne

theorem endedStrokes_self {os : List (Nat × LeverOutcome)} {n : Nat} {o : LeverOutcome} (hd : (os.map Prod.fst).Nodup)
    (ho : (n, o) ∈ os) : (endedStrokes os).lookup n = o.endedFree := by
  induction os with
  | nil => cases ho
  | cons p os ih =>
    rw [List.map_cons, List.nodup_cons] at hd
    unfold endedStrokes
    rw [List.filterMap_cons]
    rcases List.mem_cons.1 ho with rfl | ho
    · cases he : o.endedFree with
      | none => exact endedStrokes_other hd.1
      | some stood => simp
    · have hp : n ≠ p.1 := fun h => hd.1 (h ▸ List.mem_map_of_mem (f := Prod.fst) ho)
      cases he : p.2.endedFree with
      | none => exact ih hd.2 ho
      | some stood =>
        have hne : (n == p.1) = false := by simpa using hp
        simp only [Option.map_some, List.lookup_cons, hne]
        exact ih hd.2 ho

/-- The events that a report gives for one lever (R71, R80). -/
def reportEvents (n : Nat) (l : LeverRec) (pos : Position) : List (EventKind × Nat × Nat) :=
  (if pos = .fault ∧ l.position ≠ .fault then [(EventKind.leverContactFault, n, l.position.code)] else []) ++
  (if leavesLocked l pos then [(EventKind.leverViolation, n, l.position.code)] else [])

theorem leverEvents_outcomes {s : State} (hfits : ∀ p ∈ s.levers, leverFits p.2) (b : Bank) (a : Nat) (bytes : List Byte) :
    leverEvents (leverOutcomes s b a bytes) = (b.assignedChannels a).flatMap fun c =>
      ((recAt s.levers c.2).map fun l => reportEvents c.2 l (reportedPosition bytes c.1)).getD [] := by
  unfold leverEvents leverOutcomes
  generalize b.assignedChannels a = cs
  induction cs with
  | nil => rfl
  | cons c cs ih =>
    rw [List.filterMap_cons, List.flatMap_cons, ← ih]
    cases hl : recAt s.levers c.2 with
    | none => rfl
    | some l =>
      have hfault := leverTakes_contactFault (l := l) (pos := reportedPosition bytes c.1) s (b.leverEntry c.2) (reportedCatch bytes c.1)
      have hl' : leverFits l := hfits _ (recAt_mem hl)
      have hviolated := leverTakes_violated hl' (pos := reportedPosition bytes c.1) s (b.leverEntry c.2)
        (reportedCatch bytes c.1)
      simp only [Option.map_some, List.flatMap_cons, Option.getD_some]
      rw [hfault, hviolated]
      unfold reportEvents
      congr 2
      · by_cases h : reportedPosition bytes c.1 = .fault ∧ l.position ≠ .fault
        · rw [if_pos h, if_pos h]
        · rw [if_neg h, if_neg h]
      · by_cases h : leavesLocked l (reportedPosition bytes c.1) = true
        · rw [if_pos h, if_pos h]
        · rw [if_neg h, if_neg h]

/-! ### A report that may trip the part -/

theorem tripCause_untaken_lamps {s : State} (h : s.part = .tripped ∨ s.part = .unconfigured) (c : TripCause) (o : Nat)
    (x y : Option Byte) : (tripCause s c o x y).lamps = s.lamps := by
  unfold tripCause
  split
  · simp
  · rfl
  · next ht hu => exact (h.elim ht hu).elim

theorem tripCause_trips {s : State} (h : s.part ≠ .tripped ∧ s.part ≠ .unconfigured) (c : TripCause) (o : Nat) (x y : Option Byte) :
    tripCause s c o x y = tripped s c o x y := by
  unfold tripCause
  split
  · next hp => exact absurd hp h.1
  · next hp => exact absurd hp h.2
  · rfl

theorem Tells.tripUntold {ks : List EventKind} (hks : ownKinds ks) (htrip : .trip ∉ ks) (hagain : .tripRepeated ∉ ks)
    (hstored : .bankStored ∉ ks) {s t : State} {new : List (EventKind × Nat × Nat)} (h : Tells ks s t new) (c : TripCause)
    (o : Nat) (x y : Option Byte) : Tells ks s (Machine.tripCause t c o x y) new := by
  have htold : Tells ks s (Machine.tripped t c o x y) new := by
    have hentered : Tells ks s { t with part := .tripped, trip := some (tripRecord t c o x y), startTimer := none } new :=
      h.congr rfl rfl
    have hraised := hentered.other hks.dropped htrip o c.code
    have hsections : ∀ z, Tells ks s z new → Tells ks s (sectionsAtTrip z) new := fun z hz => by
      unfold sectionsAtTrip
      split
      · exact hz.congr rfl rfl
      · exact hz
    have halarms : ∀ z, Tells ks s z new → Tells ks s (alarmsAtTrip t.part z) new := fun z hz => by
      unfold alarmsAtTrip
      split
      · exact hz
      · exact hz.alarmsAgree hks
    exact Tells.heldTripped hks.dropped hstored (halarms _ (hsections _ hraised))
  unfold Machine.tripCause
  split
  · exact h.other hks.dropped hagain _ _
  · exact h
  · exact htold

/-- What a report makes of `s`, its levers apart: nothing, or a trip. -/
structure TripOnly (s x : State) : Prop where
  same : x.now = s.now ∧ x.tracks = s.tracks ∧ x.lineA = s.lineA ∧ x.lineB = s.lineB ∧ x.incoming = s.incoming ∧ x.here = s.here ∧
    x.exchanges = s.exchanges ∧ x.obstructionA = s.obstructionA ∧ x.obstructionB = s.obstructionB ∧ x.groupLive = s.groupLive ∧
    x.stored = s.stored ∧ x.active = s.active ∧ x.shadow = s.shadow ∧ x.check = s.check ∧ x.storeOp = s.storeOp ∧
    x.lastRequester = s.lastRequester ∧ x.lossMarks = s.lossMarks
  part : (x.part = s.part ∧ x.lamps = s.lamps ∧ x.sections = s.sections ∧ x.trip = s.trip) ∨
    (s.part ≠ .tripped ∧ x.part = .tripped)

/-- The kinds of event that a report's levers give cause for. -/
def leverKinds : List EventKind := [.leverContactFault, .leverViolation, .strokeLoss]

theorem leverKinds_own : ownKinds leverKinds := by
  refine ⟨?_, ?_, ?_, ?_⟩ <;> decide

theorem leversTaken_trips {s : State} (hheld : s.switchHeld = false) (b : Bank) (a : Nat) (bytes : List Byte) :
    ∃ x, leversTaken b a bytes s = .changed x (endedStrokes (leverOutcomes s b a bytes)) ∧
      x.levers = (leversWritten (leverOutcomes s b a bytes) s).levers ∧ TripOnly s x ∧
      ∀ due base, Tells leverKinds due s base → Tells leverKinds due x (base ++ leverEvents (leverOutcomes s b a bytes)) := by
  set os := leverOutcomes s b a bytes with hos
  have hnot : heldCompletes (leversWritten os s) = false := by simp [heldCompletes, hheld]
  have htells : ∀ due base, Tells leverKinds due s base →
      Tells leverKinds due (raiseAll (leversWritten os s) (leverEvents os)) (base ++ leverEvents os) := by
    intro due base h
    have hwritten : Tells leverKinds due (leversWritten os s) base := h.congr (by simp) (by simp)
    have hraised := hwritten.raiseAll leverKinds_own.dropped (leverEvents os)
    have hall : ofKinds leverKinds (leverEvents os) = leverEvents os := by
      unfold ofKinds
      rw [List.filter_eq_self]
      intro k hk
      rcases leverEvents_kinds os k hk with h | h <;> rw [h] <;> decide
    rwa [hall] at hraised
  unfold leversTaken
  dsimp only
  rw [← hos, hnot]
  cases multiViolation s.levers (violatedBy os) with
  | none => exact ⟨_, rfl, by simp, ⟨by simp, .inl (by simp)⟩, htells⟩
  | some n =>
    refine ⟨_, rfl, by simp, ⟨by simp, ?_⟩, fun due base h => (htells due base h).tripUntold leverKinds_own (by decide)
      (by decide) (by decide) _ _ _ _⟩
    have hpart : (raiseAll (leversWritten os s) (leverEvents os)).part = s.part := by simp
    by_cases ht : s.part = .tripped ∨ s.part = .unconfigured
    · left
      obtain ⟨hp, htrip, hsections⟩ := tripCause_untaken (hpart ▸ ht) .multiViolation n none none
      refine ⟨hp.trans hpart, (tripCause_untaken_lamps (hpart ▸ ht) ..).trans (by simp), hsections.trans (by simp),
        htrip.trans (by simp)⟩
    · right
      rw [not_or] at ht
      refine ⟨ht.1, ?_⟩
      rw [tripCause_trips (hpart ▸ ht)]
      simp [tripped]

/-! ### The events of stroke losses -/

theorem EndStrokes.told_iff {ended : List (Nat × Position)} {b : Bank} {x t : State} {lost : List (Nat × Position)}
    (h : EndStrokes ended b x t lost) {n : Nat} {l r : LeverRec} {pos : Position} (hr : recAt x.levers n = some r)
    (htested : ∀ run, testedEnd ended n (lockedUnless run r) = freeStrokeLeft l pos run)
    (htold : ∀ run stood, freeStrokeLeft l pos run = some stood → r.lossTold = strokeTold l)
    (hpart : t.part = x.part ∨ l.lock = .locked) (d : Nat) :
    (EventKind.strokeLoss, n, d) ∈ (lost.map fun p => (EventKind.strokeLoss, p.1, p.2.code)) ↔ LosesStroke b t n l pos d := by
  have hfree : l.lock = .locked → ∀ run, freeStrokeLeft l pos run = none := fun hl run => by
    rw [freeStrokeLeft_eq, hl]
    rfl
  constructor
  · intro hm
    obtain ⟨⟨m, stood⟩, hlost, heq⟩ := List.mem_map.1 hm
    obtain ⟨-, rfl, rfl⟩ : EventKind.strokeLoss = .strokeLoss ∧ m = n ∧ stood.code = d := by simpa using heq
    obtain ⟨r', hr', hfresh, hstood, hlist⟩ := h.cause m stood hlost
    obtain rfl : r' = r := Option.some.inj (hr'.symm.trans hr)
    rw [htested] at hstood
    rcases hpart with hp | hl
    · exact ⟨(htold _ _ hstood).symm.trans hfresh, stood, hp ▸ hstood, rfl, hlist hp⟩
    · rw [hfree hl] at hstood
      cases hstood
  · rintro ⟨hfresh, stood, hstood, rfl, hlist⟩
    rcases hpart with hp | hl
    · rw [hp] at hstood
      exact List.mem_map.2 ⟨(n, stood), h.found n stood r hr ((htold _ _ hstood).trans hfresh) ((htested _).trans hstood) hlist, rfl⟩
    · rw [hfree hl] at hstood
      cases hstood

end Sys2Proof.Machine
end

section
/-! PROOF. A counted LEVER_REPORT is judged (R71, R75 to R80, R83, R97). -/

namespace Sys2Proof.Machine

theorem countedState_levers (s : State) (b : Bank) (f : Frame) (dt : Time) : (countedState s b f dt).levers = s.levers := by
  simp [countedState]

theorem countedState_switchHeld (s : State) (b : Bank) (f : Frame) (dt : Time) : (countedState s b f dt).switchHeld = s.switchHeld := by
  simp [countedState]

theorem ofKinds_ofKinds {ks js : List EventKind} (h : ∀ k ∈ ks, k ∈ js) (es : List (EventKind × Nat × Nat)) :
    ofKinds ks (ofKinds js es) = ofKinds ks es := by
  unfold ofKinds
  rw [List.filter_filter]
  refine List.filter_congr fun x _ => ?_
  cases hk : ks.contains x.1 with
  | false => rfl
  | true => simpa using h x.1 (by simpa using hk)

/-- What a counted LEVER_REPORT comes to. -/
theorem exec_leverReport_judged {s : State} {b : Bank} {f : Frame} {u : UnitRec} (h : Counted s b .lfu 8 f u)
    (hheld : s.switchHeld = false) (dt : Time) :
    let counted := countedState s b f dt
    let os := leverOutcomes counted b (srcOf f) f.payload
    ∃ x t lost, exec (.leverReport dt f) s = .next t ∧ x.levers = (leversWritten os counted).levers ∧ TripOnly counted x ∧
      Concluded x t ∧ EndStrokes (endedStrokes os) b x t lost ∧
      Tells leverKinds (s.advance dt) t (leverEvents os ++ lost.map fun p => (EventKind.strokeLoss, p.1, p.2.code)) := by
  intro counted os
  obtain ⟨x, htaken, hlevers, htrip, htells⟩ :=
    leversTaken_trips (s := counted) ((countedState_switchHeld s b f dt).trans hheld) b (srcOf f) f.payload
  have hbank : x.bank = some b := by
    refine (State.bank_of _ _ htrip.same.2.2.2.2.2.2.2.2.2.2.2.1).trans ?_
    exact (State.bank_of _ _ (by simp [counted, countedState])).trans h.bank
  obtain ⟨lost, hlost⟩ := finishWith_strokes hbank (endedStrokes os) [] (s.advance dt)
  have hheard : Tells leverKinds (s.advance dt) counted [] :=
    ((Tells.refl leverKinds (s.advance dt)).loopHeard leverKinds_own.dropped (by decide)).congr rfl rfl
  refine ⟨x, _, lost, ?_, hlevers, htrip, finishWith_concluded _ _ _ _, hlost,
    hlost.tells leverKinds (s.advance dt) _ leverKinds_own (by decide) (htells _ _ hheard)⟩
  rw [exec_counted rfl h rfl (.inr hheld)]
  exact congrArg (fun y => Host.Outcome.next (concluded (s.advance dt) y)) htaken

theorem reportedPosition_eq (bytes : List Byte) (ch : Nat) : reportedPosition bytes ch =
    (let normal := (byteAt bytes ch).getLsbD 0
     let reverse := (byteAt bytes ch).getLsbD 1
     if normal && reverse then .fault else if normal then .normal else if reverse then .reverse else .mid) := by
  unfold reportedPosition
  cases (byteAt bytes ch).getLsbD 0 <;> cases (byteAt bytes ch).getLsbD 1 <;> rfl

theorem ReadOn.core {k : Bool} {m m' : LeverRec} (h : ReadOn k m m') : leverCore m' = leverCore m := by
  obtain ⟨hrest, -, -⟩ := h
  rw [hrest]
  rfl

/-! ### A lever of the report after the arrival -/

section
variable {ended : List (Nat × Position)} {b : Bank} {x t y : State} {lost : List (Nat × Position)}
  (h : EndStrokes ended b x t lost) {n : Nat} {l l' : LeverRec} {pos : Position} {c : Bool}
  (hx : recAt x.levers n = some (leverTakes y (b.leverEntry n) l pos c).record) (hl' : recAt t.levers n = some l')
include h hx hl'

theorem EndStrokes.lever_read :
    ReadOn (decide (n ∈ lost.map Prod.fst)) (lockedUnless (x.part = .running) (leverTakes y (b.leverEntry n) l pos c).record) l' := by
  obtain ⟨l₁, hl₁, hread⟩ := h.each n _ hx
  obtain rfl := Option.some.inj (hl₁.symm.trans hl')
  exact hread

theorem EndStrokes.lever_core : leverCore l' = leverCore (leverTakes y (b.leverEntry n) l pos c).record :=
  (h.lever_read hx hl').core.trans (lockedUnless_fields _ _).2.2.2.1

theorem EndStrokes.lever_flag :
    l'.strokeLoss = ((leverTakes y (b.leverEntry n) l pos c).record.strokeLoss || decide (n ∈ lost.map Prod.fst)) := by
  have hread := h.lever_read hx hl'
  obtain ⟨hrest, -, -⟩ := hread
  rw [hrest]
  exact congrArg (· || _) (lockedUnless_fields _ _).2.2.1

theorem EndStrokes.lever_position (hpos : pos ≠ .unknown) : l'.position = pos ∧ l'.catchUp = c := by
  obtain ⟨hp, hc⟩ := leverTakes_position y (b.leverEntry n) c hpos (l := l)
  have hcore := h.lever_core hx hl'
  exact ⟨(congrArg LeverRec.position hcore).trans hp, (congrArg LeverRec.catchUp hcore).trans hc⟩

variable (hfits : leverFits l)
include hfits

theorem EndStrokes.lever_violation : l'.violation = (l.violation || leavesLocked l pos) :=
  (congrArg LeverRec.violation (h.lever_core hx hl')).trans (leverTakes_violation hfits _ _ _)

theorem EndStrokes.lever_approach : l'.approach =
    if pos = .normal ∧ l.position ≠ .normal ∧ startsApproach y (b.leverEntry n) l = true then
      some (y.after ((b.leverEntry n).approachTime.toNat * 100))
    else l.approach :=
  (congrArg LeverRec.approach (h.lever_core hx hl')).trans (leverTakes_approach hfits _ _ _)

/-- An arrival at NORMAL clears stroke loss, and no stroke is left to lose (R77). -/
theorem EndStrokes.lever_home (hpos : pos ≠ .unknown) (hended : ended.lookup n = (leverTakes y (b.leverEntry n) l pos c).endedFree)
    (hn : pos = .normal) (haway : l.position ≠ .normal) : l'.strokeLoss = false := by
  rw [h.lever_flag hx hl', leverTakes_strokeLoss hfits, if_pos ⟨hn, haway⟩, Bool.false_or, decide_eq_false_iff_not]
  rintro hm
  obtain ⟨⟨m, stood⟩, hlost, rfl⟩ := List.mem_map.1 hm
  obtain ⟨r, hr, -, hstood, -⟩ := h.cause m stood hlost
  obtain rfl := Option.some.inj (hr.symm.trans hx)
  rw [leverTakes_tested hfits _ _ _ hpos hended, freeStrokeLeft_eq, hn] at hstood
  simp at hstood

theorem EndStrokes.lever_lossKept (hset : l.strokeLoss = true) (haway : ¬ (pos = .normal ∧ l.position ≠ .normal)) :
    l'.strokeLoss = true := by
  rw [h.lever_flag hx hl', leverTakes_strokeLoss hfits, if_neg haway, hset, Bool.true_or]

/-- A stroke that begins while the part runs stands under the lock the lever had (R75). -/
theorem EndStrokes.lever_begins (hmid : pos = .mid) (hend : l.position = .normal ∨ l.position = .reverse)
    (hrun : x.part = .running) : l'.release = (if l.position = .normal then .strokeN else .strokeR) ∧ l'.lock = l.lock := by
  have hread := h.lever_read hx hl'
  subst hmid
  obtain ⟨hr, hlock⟩ := leverTakes_begins hfits y (b.leverEntry n) c hend
  have hunless : lockedUnless (x.part = .running) (leverTakes y (b.leverEntry n) l .mid c).record =
      (leverTakes y (b.leverEntry n) l .mid c).record := by simp [lockedUnless, hrun]
  rw [hunless] at hread
  obtain ⟨hr', hlock'⟩ := hread.stroke (by rw [hr]; split <;> exact Option.some_ne_none _)
  exact ⟨hr'.trans hr, hlock'.trans hlock⟩

/-- A FREE stroke that the report ends at REVERSE or FAULT with its list not holding is lost (R97). -/
theorem EndStrokes.lever_lost (hpos : pos ≠ .unknown) (hended : ended.lookup n = (leverTakes y (b.leverEntry n) l pos c).endedFree)
    (haway : pos = .reverse ∨ pos = .fault) (hfree : l.lock = .free) (htold : l.lossTold = false) {stood : Position}
    (hstood : leftOf l.release = some stood) (hlist : listHolds t b (listFor (b.leverEntry n) stood) = false) :
    l'.strokeLoss = true := by
  have hmid : pos ≠ .mid := by rintro rfl; rcases haway with ha | ha <;> exact Position.noConfusion ha
  have hlost : (n, stood) ∈ lost := by
    refine h.found n stood _ hx ((leverTakes_away y _ c hpos hmid).trans htold) ?_ hlist
    rw [leverTakes_tested hfits _ _ _ hpos hended, freeStrokeLeft_eq, if_pos hfree, if_neg hmid, if_pos haway, hstood]
  rw [h.lever_flag hx hl', decide_eq_true (List.mem_map_of_mem (f := Prod.fst) hlost), Bool.or_true]

end

/-- Settles O23: the outcomes of the report stand to the end of the arrival, and the strokes that LE finds lost are those whose list
does not hold there. -/
theorem leverReportIsJudged : Obligations.LeverReportIsJudged := by
  unfold Obligations.LeverReportIsJudged
  intro dt f s b u hcounted hheld hd hfits
  obtain ⟨x, t, lost, hexec, hwritten, htrip, hconc, hlost, htells⟩ := exec_leverReport_judged hcounted hheld dt
  obtain ⟨all, hjoined, hall⟩ := htells.joined
  set counted := countedState s b f dt with hcs
  have hlevers : counted.levers = s.levers := countedState_levers s b f dt
  set os := leverOutcomes counted b (srcOf f) f.payload with hos
  have hosd : (os.map Prod.fst).Nodup := leverOutcomes_nodup hd _ _
  have hself : ∀ ch n l, (ch, n) ∈ b.assignedChannels (srcOf f) → recAt s.levers n = some l →
      (n, outcomeOf counted b f.payload ch n l) ∈ os ∧ recAt x.levers n = some (outcomeOf counted b f.payload ch n l).record := by
    intro ch n l hm hl
    have hmem : (n, outcomeOf counted b f.payload ch n l) ∈ os := mem_leverOutcomes.2 ⟨ch, l, hm, hlevers ▸ hl, rfl⟩
    exact ⟨hmem, hwritten ▸ leversWritten_self hosd hmem (hlevers ▸ hl)⟩
  have hother : ∀ n l, n ∉ (b.assignedChannels (srcOf f)).map Prod.snd → recAt s.levers n = some l →
      n ∉ os.map Prod.fst ∧ recAt x.levers n = some l := by
    intro n l hn hl
    have hmem : n ∉ os.map Prod.fst := by
      rintro hm
      obtain ⟨⟨m, o⟩, ho, rfl⟩ := List.mem_map.1 hm
      obtain ⟨ch, -, hch, -⟩ := mem_leverOutcomes.1 ho
      exact hn (List.mem_map_of_mem (f := Prod.snd) hch)
    exact ⟨hmem, hwritten ▸ (leversWritten_other hmem _).trans (hlevers ▸ hl)⟩
  have hfit : ∀ n l, recAt s.levers n = some l → leverFits l := fun n l hl => hfits _ (recAt_mem hl)
  have hsame := htrip.same
  have hrest := hconc.rest
  have hkinds : ∀ k ∈ leverEvents os, k.1 ≠ .strokeLoss := fun k hk => by
    rcases leverEvents_kinds os k hk with h | h <;> rw [h] <;> exact EventKind.noConfusion
  have hstroke : ∀ k, (EventKind.strokeLoss, k) ∈ all ↔
      (EventKind.strokeLoss, k) ∈ lost.map fun p => (EventKind.strokeLoss, p.1, p.2.code) := by
    intro k
    have hmem : (EventKind.strokeLoss, k) ∈ all ↔ (EventKind.strokeLoss, k) ∈ ofKinds leverKinds all := by
      unfold ofKinds
      rw [List.mem_filter]
      exact ⟨fun h => ⟨h, rfl⟩, And.left⟩
    rw [hmem, hall, List.mem_append]
    exact or_iff_right fun h => hkinds _ h rfl
  have hcounted : counted.part = s.part := countedState_part s b f dt
  have hrunning : s.part = .running → t.part = x.part := fun hrun => (hconc.steady fun hx => by
    rcases htrip.part with ⟨hp, -⟩ | ⟨-, hp⟩
    · exact PartState.noConfusion (hx.symm.trans (hp.trans (hcounted.trans hrun)))
    · exact PartState.noConfusion (hx.symm.trans hp)).1
  have hsteady : ∀ l : LeverRec, s.part = .running ∨ l.lock = .locked → t.part = x.part ∨ l.lock = .locked :=
    fun l => Or.imp_left hrunning
  refine ⟨t, all, hexec, hjoined, ?events, ?once, fun hpart => ⟨?served, ?standing⟩, ?levers, ?others, ?rest⟩
  case events =>
    have hown : ofKinds [.leverContactFault, .leverViolation] all = leverEvents os := by
      rw [← ofKinds_ofKinds (js := leverKinds) (by decide), hall]
      unfold ofKinds
      rw [List.filter_append]
      have hlever : (leverEvents os).filter (fun k => [EventKind.leverContactFault, .leverViolation].contains k.1) = leverEvents os := by
        rw [List.filter_eq_self]
        intro k hk
        rcases leverEvents_kinds os k hk with h | h <;> rw [h] <;> rfl
      rw [hlever, List.filter_eq_nil_iff.2 (fun k hk => by obtain ⟨p, -, rfl⟩ := List.mem_map.1 hk; simp), List.append_nil]
    rw [hown, hos, leverEvents_outcomes (hlevers ▸ hfits), hlevers]
    congr 1
    funext c
    cases recAt s.levers c.2 with
    | none => rfl
    | some l => rfl
  case once =>
    have hown : ofKinds [.strokeLoss] all = lost.map fun p => (EventKind.strokeLoss, p.1, p.2.code) := by
      rw [← ofKinds_ofKinds (js := leverKinds) (by decide), hall]
      unfold ofKinds
      rw [List.filter_append, List.filter_eq_nil_iff.2 (fun k hk => by simpa using hkinds k hk), List.nil_append,
        List.filter_eq_self]
      exact fun k hk => by obtain ⟨p, -, rfl⟩ := List.mem_map.1 hk; simp
    rw [hown, List.map_map]
    exact hlost.once
  case served =>
    intro ch n l d hm hl
    obtain ⟨hmem, hx⟩ := hself ch n l hm hl
    have hpos := reportedPosition_known f.payload ch
    have hfit' := hfit n l hl
    rw [hstroke]
    exact hlost.told_iff hx (leverTakes_tested hfit' _ _ _ hpos (endedStrokes_self hosd hmem))
      (fun run stood h => leverTakes_lossTold hfit' _ _ _ hpos h)
      (hsteady l (hpart.imp_right fun h => h _ (recAt_mem hl))) d
  case standing =>
    intro n l d hn hl
    obtain ⟨hmem, hx⟩ := hother n l hn hl
    have hfit' := hfit n l hl
    rw [hstroke]
    exact hlost.told_iff hx (standing_tested hfit' (endedStrokes_other hmem)) (fun run stood h => standing_lossTold hfit' h)
      (hsteady l (hpart.imp_right fun h => h _ (recAt_mem hl))) d
  case levers =>
    intro ch n l hm hl normal reverse pos e
    obtain ⟨hmem, hx⟩ := hself ch n l hm hl
    obtain hposition : reportedPosition f.payload ch = pos := reportedPosition_eq f.payload ch
    have hpos : pos ≠ .unknown := hposition ▸ reportedPosition_known f.payload ch
    have hfit' := hfit n l hl
    obtain ⟨l', hl', hread⟩ := hlost.each n _ hx
    unfold outcomeOf at hx hread
    rw [hposition] at hx hread
    have hended := endedStrokes_self hosd hmem
    unfold outcomeOf at hended
    rw [hposition] at hended
    have hp := hlost.lever_position hx hl' hpos
    refine ⟨l', hl', hp.1, hp.2, hlost.lever_violation hx hl' hfit', ?approach, hlost.lever_home hx hl' hfit' hpos hended,
      hlost.lever_lossKept hx hl' hfit', hlost.fits n _ l' hx (leverTakes_fits hfit' _ _ _ hpos) hl', fun hmid hend hrun htrun => ?begins,
      fun haway hfree htold => ⟨fun hstroke hlist => ?normal, fun hstroke hlist => ?reverse⟩⟩
    case approach =>
      refine (hlost.lever_approach hx hl' hfit').trans ?_
      rw [show startsApproach counted e l = startsApproach s e l by simp [startsApproach, trackClear, hcs, countedState]]
      rw [show counted.after (e.approachTime.toNat * 100) = (s.now + dt).plus (e.approachTime.toNat * 100) by
        simp [State.after, hcs, countedState]]
    case begins => exact hlost.lever_begins hx hl' hfit' hmid hend ((hrunning hrun).symm.trans htrun)
    case normal => exact hlost.lever_lost hx hl' hfit' hpos hended haway hfree htold (stood := .normal) (by rw [hstroke]; rfl) hlist
    case reverse => exact hlost.lever_lost hx hl' hfit' hpos hended haway hfree htold (stood := .reverse) (by rw [hstroke]; rfl) hlist
  case others =>
    intro n l hn hl
    obtain ⟨l', hl', hread⟩ := hlost.each n l (hother n l hn hl).2
    exact ⟨l', hl', hread.core.trans (lockedUnless_fields _ l).2.2.2.1⟩
  case rest =>
    obtain ⟨hnow, htracks, hlineA, hlineB, hincoming, hhere, hexchanges, hobstructionA, hobstructionB, hgroups, hstored, hactive,
      hshadow, hcheck, hstoreOp, hrequester, hmarks⟩ := hsame
    obtain ⟨hstaysA, hstaysB⟩ := hconc.lines
    have hA : x.lineA = s.lineA := hlineA.trans (by simp [hcs, countedState])
    have hB : x.lineB = s.lineB := hlineB.trans (by simp [hcs, countedState])
    have hlamps : counted.lamps = s.lamps := countedState_lamps s b f dt
    refine ⟨?_, ?_, ?_, ?_, ?_, ?_, ?_, ?_, ?_, ?_, ?_, ?_, ?_, ?_, hA ▸ hstaysA, hB ▸ hstaysB, fun hpart => ?_, fun hpart => ?_⟩
    iterate 14
      rw [hrest]
      simp [*, countedState]
    · rcases htrip.part with ⟨hp, hl, -, -⟩ | ⟨ht, hp⟩
      · exact (hconc.lamps.2 (hpart.trans (hp.trans hcounted).symm)).trans (hl.trans hlamps)
      · refine absurd (hpart.symm.trans ((hconc.steady ?_).1.trans hp)) (hcounted ▸ ht)
        rw [hp]
        exact PartState.noConfusion
    · rcases htrip.part with ⟨-, -, hsections, htrips⟩ | ⟨ht, hp⟩
      · rw [hrest]
        exact ⟨hsections.trans (by simp [hcs, countedState]), htrips.trans (by simp [hcs, countedState])⟩
      · refine (hpart.elim (fun h => h ((hconc.steady ?_).1.trans hp)) (fun h => (hcounted ▸ ht) h)).elim
        rw [hp]
        exact PartState.noConfusion

end Sys2Proof.Machine
end

section
/-! PROOF. A tapped stroke may be lost while its link is UP: where a section stands in the records twice, its two records tell of
a change of own state in every arrival, and the INSTR messages of two such sections push the stroke out of the line's queue. -/

namespace Sys2Proof.Machine

/-- A bank of one instrument unit at address 1, whose channel 0 serves section 1; three INBOUND sections on the channels 0, 1 and 2
of line A. -/
def crowdedBank : Bank :=
  { roster := [{ kind := 4, channels := [1] }],
    sections := [{ direction := 1 }, { direction := 1, channel := 1 }, { direction := 1, channel := 2 }] }

/-- The part runs with that bank. Sections 2 and 3 stand in the records twice, with different own states; line A is UP, its
transmitter is sending, and 14 strokes of another channel wait. -/
def crowdedState : State :=
  { State.reset with
    active := some { bank := crowdedBank, crc := 0 }, part := .running, loop := .up, units := [(1, { state := .active })],
    lineA := { link := .up, queue := List.replicate 14 (.stroke 9), sending := some (.stroke 9) },
    sections := [(1, { own := .blocked }), (2, { own := .clear }), (2, { own := .blocked }), (3, { own := .clear }),
      (3, { own := .blocked })] }

/-- The report of the unit that its tapper is pressed. -/
def tapReport : Frame := unitFrame 1 .instrReport [0x80, 0, 0]

/-- The stroke of channel 0 neither waits on line A nor is being sent. -/
theorem crowded_loses :
    LineMsg.stroke 0 ∉ (frameArrival crowdedState 0 11 tapReport).lineA.queue ∧
    (frameArrival crowdedState 0 11 tapReport).lineA.sending ≠ some (.stroke 0) := by
  decide +kernel

theorem crowded_counted : Counted crowdedState crowdedBank .iu 11 tapReport { state := .active } where
  awake := rfl
  formed := by decide +kernel
  bank := rfl
  rostered := by decide +kernel
  unit := by decide +kernel
  active := rfl

/-- Refutes O31: with 14 messages waiting and two sections recorded twice, the tapped stroke is displaced in its own arrival. -/
theorem not_instrReportMovesTheInstrument : ¬ Obligations.InstrReportMovesTheInstrument := by
  unfold Obligations.InstrReportMovesTheInstrument
  intro h
  obtain ⟨x, t, new, hexec, -, -, -, -, -, -, -, -, -, -, -, -, -, htapped, -⟩ :=
    h.1 0 tapReport crowdedState crowdedBank { state := .active } 0 1 { own := .blocked } crowded_counted (by decide +kernel)
      (by decide +kernel)
  obtain rfl : frameArrival crowdedState 0 11 tapReport = t := by cases hexec; rfl
  have hsection : (crowdedBank.sectionEntry 1).lineOf = .a ∧ (crowdedBank.sectionEntry 1).channel.toNat = 0 := by decide +kernel
  have hlost := crowded_loses
  have hstands := htapped (by decide +kernel) (by decide +kernel) (by decide +kernel)
  rw [hsection.1, hsection.2] at hstands
  exact hstands.elim hlost.1 hlost.2

end Sys2Proof.Machine
end

section
/-! PROOF. A bank taken into use, record by record (R21, R35, R55, R86, R116, R131, R146, R153, R168, R169). -/

namespace Sys2Proof.Machine

/-! ### Records made at a switch (R169) -/

theorem recAt_remade {α : Type} (ns : List Nat) (redefined : Nat → Bool) (fresh : Nat → α) (old : Recs α) (n : Nat) :
    recAt (remade ns redefined fresh old) n =
      if n ∈ ns then some (if redefined n then fresh n else (recAt old n).getD (fresh n)) else none :=
  recAt_makeRecs ns _ n

theorem mem_objects_iff {b : Bank} {k : UnitKind} {n : Nat} : n ∈ b.objects k ↔ b.defined k n = true :=
  ⟨fun h => (List.mem_filter.1 h).2, mem_objects⟩

theorem mem_filled {b : Bank} {a : Nat} : a ∈ filled b ↔ a ∈ addresses ∧ b.kindAt a ≠ .none := by
  unfold filled
  rw [List.mem_filter, decide_eq_true_eq]

/-- A kept object that falls at a switch is on a unit whose roster entry changed (R35). -/
theorem mem_keptOn {old : Option Bank} {new : Bank} {before : Recs UnitRec} {k : UnitKind} {redefined : Nat → Bool} {n : Nat}
    (h : n ∈ keptOn new (unitsTaken old new before) k redefined) : redefined n = false ∧
      ∃ a ∈ addresses, new.kindAt a = k ∧ n ∈ (new.assignedChannels a).map Prod.snd ∧ entryChanged old new a = true := by
  unfold keptOn unitsTaken at h
  obtain ⟨a, ha, hn⟩ := List.mem_flatMap.1 h
  rw [List.mem_filter, List.mem_filter] at ha
  rw [List.mem_filter] at hn
  obtain ⟨⟨hfilled, htaken⟩, hkind⟩ := ha
  exact ⟨by simpa using hn.2, a, (mem_filled.1 hfilled).1, by simpa using hkind, hn.1, (Bool.and_eq_true _ _ ▸ htaken).1⟩

theorem entryChanged_iff {old : Option Bank} {new : Bank} {a : Nat} :
    entryChanged old new a = true ↔ ∀ x, old = some x → x.rosterAt a ≠ new.rosterAt a := by
  cases old <;> simp [entryChanged]

/-! ### A line that starts (R116) -/

section
variable (s : State) (new : Bank) (l : Line)

/-- The state from which a line's start takes the own states that its STATUS tells. -/
def lineDropped : State :=
  let emptied := modifyLine (raiseAll s ((strokesOf (s.line l).queue).map fun c => (.strokeDropped, l.code, c))) l
    fun r => { r with queue := [] }
  if (s.line l).link = .up then linkLost emptied (some new) l else emptied

theorem lineStarted_eq : lineStarted s new l = modifyLine (lineDropped s new l) l fun _ =>
    { settings := some (new.lineSettings l), startSeq := .sendingBreak, queue := [statusMessage (lineDropped s new l) new l],
      statusTimer := some (s.after ((new.lineSettings l).statusInterval.toNat * 10)) } := rfl

/-- The far states of a line's sections are lost where its link was UP (R134). -/
def farAfterStart (n : Nat) (r : SectionRec) : SectionRec :=
  if (s.line l).link = .up ∧ (new.sectionEntry n).lineOf = l then { r with far := .unknown } else r

theorem lineStarted_sections : (lineStarted s new l).sections = s.sections.map fun p => (p.1, farAfterStart s new l p.1 p.2) := by
  rw [lineStarted_eq]
  unfold lineDropped farAfterStart
  by_cases h : (s.line l).link = .up
  · simp only [modifyLine_same, h, if_true, linkLost_eq, raiseAll_same, true_and]
    refine List.map_congr_left fun p _ => ?_
    split <;> rfl
  · simp only [modifyLine_same, h, if_false, raiseAll_same, false_and]
    exact (List.map_id s.sections).symm

/-- A section's recogniser holds an invalid code where it was collecting on a line whose link was UP (R124). -/
def invalidAfterStart (n : Nat) (g : Recogniser) : Recogniser :=
  if (s.line l).link = .up ∧ (new.sectionEntry n).lineOf = l ∧ g.collecting = true then { g with invalid := true } else g

theorem lineStarted_recognisers (x : Side) :
    (lineStarted s new l).recognisers x = (s.recognisers x).map fun p => (p.1, invalidAfterStart s new l p.1 p.2) := by
  have hsame : ∀ (y : State) (f : LineRec → LineRec), (modifyLine y l f).recognisers x = y.recognisers x := fun y f => by
    cases x <;> simp [State.recognisers]
  have htold : ∀ (y : State) es, (raiseAll y es).recognisers x = y.recognisers x := fun y es => by
    cases x <;> simp [State.recognisers]
  rw [lineStarted_eq, hsame]
  unfold lineDropped invalidAfterStart
  by_cases h : (s.line l).link = .up
  · simp only [h, if_true, true_and]
    have hlost : ∀ y : State, (linkLost y (some new) l).recognisers x = invalidated new l (y.recognisers x) := fun y => by
      rw [linkLost_eq]
      cases x <;> rfl
    rw [hlost, hsame, htold]
    unfold invalidated
    refine List.map_congr_left fun p _ => ?_
    by_cases hl : (new.sectionEntry p.1).lineOf = l ∧ p.2.collecting = true
    · rw [if_pos hl, if_pos (by simpa using hl)]
    · rw [if_neg hl, if_neg (by simpa using hl)]
  · simp only [h, if_false, false_and]
    rw [hsame, htold]
    exact (List.map_id _).symm

theorem lineStarted_line (m : Line) : (lineStarted s new l).line m =
    if m = l then
      { settings := some (new.lineSettings l), startSeq := .sendingBreak, queue := [statusMessage (lineStarted s new l) new l],
        statusTimer := some (s.after ((new.lineSettings l).statusInterval.toNat * 10)) }
    else s.line m := by
  have hstatus : statusMessage (lineDropped s new l) new l = statusMessage (lineStarted s new l) new l := by
    unfold statusMessage ownOnChannel
    rw [lineStarted_eq]
    simp only [modifyLine_same]
  rw [← hstatus, lineStarted_eq]
  split
  · next h =>
    subst h
    rw [modifyLine_line]
  · next h =>
    rw [modifyLine_other _ _ _ _ h]
    unfold lineDropped
    dsimp only
    split
    · rw [linkLost_eq]
      refine (State.line_of (raiseAll (modifyLine _ l _) _) _ rfl rfl m).trans ?_
      rw [raiseAll_line, modifyLine_other _ _ _ _ h, modifyLine_other _ _ _ _ h, raiseAll_line]
    · rw [modifyLine_other _ _ _ _ h, raiseAll_line]

end

/-! ### Lines and sections where a bank is taken into use -/

section
variable (old : Option Bank) (new : Bank) (s : State)

theorem lineChanged_iff {l : Line} : lineChanged old new l = true ↔ ∀ x, old = some x → x.lineSettings l ≠ new.lineSettings l := by
  cases old <;> simp [lineChanged]

/-- The lines whose settings changed start, line A's first. -/
def startIf (l : Line) (s : State) : State := if lineChanged old new l then lineStarted s new l else s

theorem linesAdopted_eq : linesAdopted old new s = startIf old new .b (startIf old new .a s) := rfl

theorem startIf_line (l m : Line) : (startIf old new l s).line m =
    if m = l ∧ lineChanged old new l = true then
      { settings := some (new.lineSettings l), startSeq := .sendingBreak, queue := [statusMessage (startIf old new l s) new l],
        statusTimer := some (s.after ((new.lineSettings l).statusInterval.toNat * 10)) }
    else s.line m := by
  unfold startIf
  by_cases h : lineChanged old new l = true
  · simp only [h, if_true, and_true]
    exact lineStarted_line s new l m
  · rw [if_neg h, if_neg fun hc => h hc.2]

/-- A section's line starts, its link UP until then. -/
def losesFar (n : Nat) : Bool :=
  lineChanged old new (new.sectionEntry n).lineOf && decide ((s.line (new.sectionEntry n).lineOf).link = .up)

theorem linesAdopted_section (n : Nat) : recAt (linesAdopted old new s).sections n = (recAt s.sections n).map fun r =>
    if losesFar old new s n then { r with far := .unknown } else r := by
  have hstart : ∀ (x : State) (l : Line), recAt (startIf old new l x).sections n = (recAt x.sections n).map fun r =>
      if lineChanged old new l = true ∧ (x.line l).link = .up ∧ (new.sectionEntry n).lineOf = l then { r with far := .unknown } else r := by
    intro x l
    unfold startIf
    by_cases h : lineChanged old new l = true
    · simp only [h, if_true, true_and]
      rw [lineStarted_sections]
      exact recAt_mapRec x.sections (farAfterStart x new l) n
    · rw [if_neg h]
      simp [h]
  rw [linesAdopted_eq, hstart, hstart, Option.map_map]
  congr 1
  funext r
  have hb : ((startIf old new .a s).line .b) = s.line .b := by
    rw [startIf_line]
    exact if_neg fun h => Line.noConfusion h.1
  rw [hb]
  unfold losesFar
  dsimp only [Function.comp_apply]
  cases (new.sectionEntry n).lineOf <;> cases lineChanged old new .a <;> cases lineChanged old new .b <;> simp

theorem linesAdopted_recogniser (x : Side) (n : Nat) :
    recAt ((linesAdopted old new s).recognisers x) n = (recAt (s.recognisers x) n).map fun g =>
      if losesFar old new s n && g.collecting then { g with invalid := true } else g := by
  have hstart : ∀ (y : State) (l : Line), recAt ((startIf old new l y).recognisers x) n = (recAt (y.recognisers x) n).map fun g =>
      if lineChanged old new l = true ∧ (y.line l).link = .up ∧ (new.sectionEntry n).lineOf = l ∧ g.collecting = true then
        { g with invalid := true }
      else g := by
    intro y l
    unfold startIf
    by_cases h : lineChanged old new l = true
    · simp only [h, if_true, true_and]
      rw [lineStarted_recognisers]
      exact recAt_mapRec (y.recognisers x) (invalidAfterStart y new l) n
    · rw [if_neg h]
      simp [h]
  rw [linesAdopted_eq, hstart, hstart, Option.map_map]
  congr 1
  funext g
  have hb : ((startIf old new .a s).line .b) = s.line .b := by
    rw [startIf_line]
    exact if_neg fun h => Line.noConfusion h.1
  rw [hb]
  unfold losesFar
  dsimp only [Function.comp_apply]
  cases (new.sectionEntry n).lineOf <;> cases lineChanged old new .a <;> cases lineChanged old new .b <;> simp

theorem linesAdopted_line (l : Line) : (linesAdopted old new s).line l =
    if lineChanged old new l = true then
      { settings := some (new.lineSettings l), startSeq := .sendingBreak, queue := [statusMessage (linesAdopted old new s) new l],
        statusTimer := some (s.after ((new.lineSettings l).statusInterval.toNat * 10)) }
    else s.line l := by
  have hown : ∀ (y : State) (m : Line), statusMessage (startIf old new m y) new l = statusMessage y new l := by
    intro y m
    have howns : ∀ n, (recAt (startIf old new m y).sections n).map SectionRec.own = (recAt y.sections n).map SectionRec.own := by
      intro n
      unfold startIf
      split
      · rw [lineStarted_sections]
        refine (congrArg _ (recAt_mapRec y.sections (farAfterStart y new m) n)).trans ?_
        rw [Option.map_map]
        congr 1
        funext r
        unfold farAfterStart
        dsimp only [Function.comp_apply]
        split <;> rfl
      · rfl
    unfold statusMessage ownOnChannel
    simp only [howns]
  have hnow : ∀ (y : State) (m : Line) k, (startIf old new m y).after k = y.after k := fun y m k => by
    unfold startIf State.after
    split <;> simp
  rw [linesAdopted_eq, hown, startIf_line, hnow]
  cases l with
  | a =>
    rw [if_neg fun h => Line.noConfusion h.1, startIf_line]
    simp only [true_and]
  | b =>
    rw [hown]
    simp only [true_and]
    split
    · rfl
    · rw [startIf_line, if_neg fun h => Line.noConfusion h.1]

end

/-! ### The blocks' records where a bank is taken into use -/

section
variable (img : BankImage) (s : State)

/-- The kept objects of a type whose unit was ACTIVE and is made afresh (R55, R86, R146, R153). -/
def fallenOn (k : UnitKind) (redefined : Nat → Bool) : List Nat :=
  keptOn img.bank (unitsTaken s.bank img.bank s.units) k redefined

/-- Every block has made its records. -/
def recordsAdopted : State :=
  groupsAdopted s.bank img.bank (lampsAdopted s.bank img.bank (fallenOn img s .lu (assignmentChanged s.bank img.bank .lu))
    (sectionsAdopted s.bank img.bank (fallenOn img s .iu (sectionRedefined s.bank img.bank))
      (leversAdopted s.bank img.bank (fallenOn img s .lfu (leverRedefined s.bank img.bank))
        (tracksAdopted s.bank img.bank (fallenOn img s .tu (trackRedefined s.bank img.bank))
          (unitsAdopted s.bank img.bank (refreshStarted s.bank img.bank { s with active := some img }))))))

/-- Then the changes of tracks are handed on, and the probes are placed. -/
def recordsHanded : State :=
  probesPlaced s.bank img.bank (tracksHanded s.tracks img.bank (recordsAdopted img s))

theorem bankAdopted_eq : bankAdopted img s = linesAdopted s.bank img.bank (recordsHanded img s) := rfl

/-- A record made afresh, or kept, or fallen with its unit. -/
def madeOf {α : Type} (redefined fallen : Bool) (fresh : α) (fall : α → α) (kept : Option α) : α :=
  if redefined then fresh else if fallen then fall (kept.getD fresh) else kept.getD fresh

theorem fallenOn_kept {k : UnitKind} {redefined : Nat → Bool} {n : Nat} (h : n ∈ fallenOn img s k redefined) :
    redefined n = false := (mem_keptOn h).1

theorem recAt_fallen {α : Type} (k : UnitKind) (redefined : Nat → Bool) (fresh : Nat → α) (fall : α → α) (r : Recs α) (n : Nat) :
    (if n ∈ fallenOn img s k redefined then (recAt (remade (img.bank.objects k) redefined fresh r) n).map fall
      else recAt (remade (img.bank.objects k) redefined fresh r) n) =
    if img.bank.defined k n = true then
      some (madeOf (redefined n) (decide (n ∈ fallenOn img s k redefined)) (fresh n) fall (recAt r n))
    else none := by
  rw [recAt_remade]
  simp only [mem_objects_iff]
  have hkept := fallenOn_kept img s (k := k) (redefined := redefined) (n := n)
  unfold madeOf
  by_cases hd : img.bank.defined k n = true
  · by_cases hf : n ∈ fallenOn img s k redefined
    · simp [hd, hf, hkept hf]
    · by_cases hr : redefined n = true
      · simp [hd, hf, hr]
      · simp [hd, hf, hr]
  · by_cases hf : n ∈ fallenOn img s k redefined <;> simp [hd, hf]

theorem recordsAdopted_lever (n : Nat) : recAt (recordsAdopted img s).levers n =
    if img.bank.defined .lfu n = true then
      some (madeOf (leverRedefined s.bank img.bank n) (decide (n ∈ fallenOn img s .lfu (leverRedefined s.bank img.bank))) {} leverFallen
        (recAt s.levers n))
    else none := by
  refine Eq.trans ?_ (recAt_fallen img s _ _ (fun _ => {}) leverFallen s.levers n)
  unfold recordsAdopted
  simp only [groupsAdopted_same, lampsAdopted_same, sectionsAdopted_same]
  unfold leversAdopted
  rw [leversLost_recAt]
  rfl

theorem recordsAdopted_track (n : Nat) : recAt (recordsAdopted img s).tracks n =
    if img.bank.defined .tu n = true then
      some (madeOf (trackRedefined s.bank img.bank n) (decide (n ∈ fallenOn img s .tu (trackRedefined s.bank img.bank))) {} trackLostRec
        (recAt s.tracks n))
    else none := by
  refine Eq.trans ?_ (recAt_fallen img s _ _ (fun _ => {}) trackLostRec s.tracks n)
  unfold recordsAdopted
  simp only [groupsAdopted_same, lampsAdopted_same, sectionsAdopted_same, leversAdopted_same]
  have hmap := recAt_mapRec (remade (img.bank.objects .tu) (trackRedefined s.bank img.bank) (fun _ => ({} : TrackRec)) s.tracks)
    (fun m r => if (fallenOn img s .tu (trackRedefined s.bank img.bank)).contains m then trackLostRec r else r) n
  refine Eq.trans ?_ (hmap.trans ?_)
  · unfold tracksAdopted
    refine congrArg (recAt · n) (List.map_congr_left fun p _ => ?_)
    split <;> rfl
  · by_cases hn : n ∈ fallenOn img s .tu (trackRedefined s.bank img.bank) <;> simp [hn]

theorem recordsAdopted_section (n : Nat) : recAt (recordsAdopted img s).sections n =
    if img.bank.defined .iu n = true then
      some (madeOf (sectionRedefined s.bank img.bank n) (decide (n ∈ fallenOn img s .iu (sectionRedefined s.bank img.bank)))
        (newSection (img.bank.sectionEntry n).dir) sectionFallen (recAt s.sections n))
    else none := by
  refine Eq.trans ?_ (recAt_fallen img s _ _ (fun n => newSection (img.bank.sectionEntry n).dir) sectionFallen s.sections n)
  unfold recordsAdopted
  simp only [groupsAdopted_same, lampsAdopted_same]
  unfold sectionsAdopted
  rw [commutatorsLost_recAt]
  simp only [leversAdopted_same]
  rfl

theorem recordsAdopted_lamp (n : Nat) : recAt (recordsAdopted img s).lamps n =
    if img.bank.defined .lu n = true then
      some (madeOf (assignmentChanged s.bank img.bank .lu n)
        (decide (n ∈ fallenOn img s .lu (assignmentChanged s.bank img.bank .lu))) {} (lampFallen s.part) (recAt s.lamps n))
    else none := by
  refine Eq.trans ?_ (recAt_fallen img s _ _ (fun _ => {}) (lampFallen s.part) s.lamps n)
  unfold recordsAdopted
  simp only [groupsAdopted_same]
  unfold lampsAdopted
  rw [lampsLost_recAt]
  simp only [sectionsAdopted_same, leversAdopted_same]
  rfl

theorem recAt_kept {α : Type} {b : Bank} {k : UnitKind} (redefined : Nat → Bool) (fresh : α) (r : Recs α) (n : Nat) :
    recAt (remade (b.objects k) redefined (fun _ => fresh) r) n =
      if b.defined k n = true then some (if redefined n then fresh else (recAt r n).getD fresh) else none := by
  rw [recAt_remade]
  exact if_congr mem_objects_iff rfl rfl

theorem recordsAdopted_exchange (n : Nat) : recAt (recordsAdopted img s).exchanges n =
    if img.bank.defined .iu n = true then
      some (if sectionRedefined s.bank img.bank n then {} else (recAt s.exchanges n).getD {})
    else none := by
  refine Eq.trans ?_ (recAt_kept (sectionRedefined s.bank img.bank) {} s.exchanges n)
  unfold recordsAdopted sectionsAdopted
  have hlost : ∀ (ns : List Nat) (x : State), (ns.foldl commutatorLost x).exchanges = x.exchanges := fun ns x => by
    obtain ⟨rs, hx⟩ := commutatorsLost_form ns x
    rw [hx]
  simp only [groupsAdopted_same, lampsAdopted_same, hlost, leversAdopted_same]
  rfl

theorem recordsAdopted_recogniser (x : Side) (n : Nat) : recAt ((recordsAdopted img s).recognisers x) n =
    if img.bank.defined .iu n = true then
      some (recogniserKept (timingChanged s.bank img.bank)
        (if sectionRedefined s.bank img.bank n then {} else (recAt (s.recognisers x) n).getD {}))
    else none := by
  have hadopted : (recordsAdopted img s).recognisers x = recognisersAdopted s.bank img.bank (s.recognisers x) := by
    have hlost : ∀ (ns : List Nat) (y : State), (ns.foldl commutatorLost y).recognisers x = y.recognisers x := fun ns y => by
      obtain ⟨rs, hy⟩ := commutatorsLost_form ns y
      rw [hy]
      cases x <;> rfl
    have hgroups : (recordsAdopted img s).recognisers x = (sectionsAdopted s.bank img.bank (fallenOn img s .iu (sectionRedefined s.bank img.bank))
      (leversAdopted s.bank img.bank (fallenOn img s .lfu (leverRedefined s.bank img.bank))
        (tracksAdopted s.bank img.bank (fallenOn img s .tu (trackRedefined s.bank img.bank))
          (unitsAdopted s.bank img.bank (refreshStarted s.bank img.bank { s with active := some img }))))).recognisers x := by
      unfold recordsAdopted
      cases x <;> simp only [State.recognisers, groupsAdopted_same, lampsAdopted_same]
    rw [hgroups]
    unfold sectionsAdopted
    rw [hlost]
    cases x <;> simp only [State.recognisers, leversAdopted_same] <;> rfl
  rw [hadopted]
  unfold recognisersAdopted
  refine (recAt_mapRec _ (fun _ => recogniserKept (timingChanged s.bank img.bank)) n).trans ?_
  rw [recAt_kept]
  split <;> rfl

/-! ### The part with the bank in use -/

theorem recordsAdopted_same : (recordsAdopted img s).lineA = s.lineA ∧ (recordsAdopted img s).lineB = s.lineB ∧
    (recordsAdopted img s).now = s.now := by
  unfold recordsAdopted
  simp

theorem recordsHanded_line (l : Line) : (recordsHanded img s).line l = s.line l := by
  obtain ⟨ha, hb, -⟩ := recordsAdopted_same img s
  unfold recordsHanded
  exact State.line_of _ _ (by simpa using ha) (by simpa using hb) l

theorem recordsHanded_after (k : Nat) : (recordsHanded img s).after k = s.after k := by
  have hnow : (recordsHanded img s).now = s.now := by
    unfold recordsHanded
    simpa using (recordsAdopted_same img s).2.2
  unfold State.after
  rw [hnow]

theorem losesFar_handed (n : Nat) : losesFar s.bank img.bank (recordsHanded img s) n = losesFar s.bank img.bank s n := by
  unfold losesFar
  rw [recordsHanded_line]

theorem bankAdopted_track (n : Nat) : recAt (bankAdopted img s).tracks n = recAt (recordsAdopted img s).tracks n := by
  rw [bankAdopted_eq]
  unfold recordsHanded
  simp only [linesAdopted_same, probesPlaced_same, tracksHanded_same]

theorem bankAdopted_lever (n : Nat) : recAt (bankAdopted img s).levers n =
    (recAt (recordsAdopted img s).levers n).map (approachAfter s.tracks img.bank (recordsAdopted img s) n) := by
  rw [bankAdopted_eq]
  unfold recordsHanded
  simp only [linesAdopted_same, probesPlaced_same, tracksHanded_lever]

theorem bankAdopted_section (n : Nat) : recAt (bankAdopted img s).sections n = (recAt (recordsAdopted img s).sections n).map fun r =>
    let handed := sectionOnTracks (img.bank.sectionEntry n) (trackMove s.tracks (bankAdopted img s).tracks) r
    if losesFar s.bank img.bank s n then { handed with far := .unknown } else handed := by
  have htracks : (bankAdopted img s).tracks = (recordsAdopted img s).tracks := by
    rw [bankAdopted_eq]
    unfold recordsHanded
    simp only [linesAdopted_same, probesPlaced_same, tracksHanded_same]
  rw [htracks, bankAdopted_eq, linesAdopted_section, losesFar_handed]
  unfold recordsHanded
  simp only [probesPlaced_same, tracksHanded_section, Option.map_map]
  rw [← trackMove_eq]
  rfl

theorem bankAdopted_exchange (n : Nat) : recAt (bankAdopted img s).exchanges n = recAt (recordsAdopted img s).exchanges n := by
  rw [bankAdopted_eq]
  unfold recordsHanded
  simp only [linesAdopted_same, probesPlaced_same, tracksHanded_same]

theorem bankAdopted_recogniser (x : Side) (n : Nat) : recAt ((bankAdopted img s).recognisers x) n =
    (recAt ((recordsAdopted img s).recognisers x) n).map fun g =>
      if losesFar s.bank img.bank s n && g.collecting then { g with invalid := true } else g := by
  have hhanded : (recordsHanded img s).recognisers x = (recordsAdopted img s).recognisers x := by
    unfold recordsHanded
    cases x <;> simp only [State.recognisers, probesPlaced_same, tracksHanded_same]
  rw [bankAdopted_eq, linesAdopted_recogniser, losesFar_handed, hhanded]

theorem bankAdopted_lamp (n : Nat) : recAt (bankAdopted img s).lamps n = recAt (recordsAdopted img s).lamps n := by
  rw [bankAdopted_eq]
  unfold recordsHanded
  simp only [linesAdopted_same, probesPlaced_same, tracksHanded_same]

theorem bankAdopted_line (l : Line) : (bankAdopted img s).line l =
    if lineChanged s.bank img.bank l = true then
      { settings := some (img.bank.lineSettings l), startSeq := .sendingBreak, queue := [statusMessage (bankAdopted img s) img.bank l],
        statusTimer := some (s.after ((img.bank.lineSettings l).statusInterval.toNat * 10)) }
    else s.line l := by
  rw [bankAdopted_eq, linesAdopted_line, recordsHanded_line, recordsHanded_after]

theorem recordsAdopted_units : (recordsAdopted img s).units = (unitsAdopted s.bank img.bank s).units := by
  unfold recordsAdopted
  simp only [groupsAdopted_same, lampsAdopted_same, sectionsAdopted_same, leversAdopted_same, tracksAdopted_same]
  rfl

/-- Only a dropped probe moves a unit record made at a switch (R22). -/
theorem bankAdopted_units : UnitsStay (unitsAdopted s.bank img.bank s) (bankAdopted img s) := by
  have hhanded : UnitsStay (unitsAdopted s.bank img.bank s) (tracksHanded s.tracks img.bank (recordsAdopted img s)) :=
    .of_units (by simp only [tracksHanded_same, recordsAdopted_units])
  have hprobes : UnitsStay (unitsAdopted s.bank img.bank s) (recordsHanded img s) := hhanded.trans (placeAll_units _ _)
  exact hprobes.trans (.of_units (by rw [bankAdopted_eq]; simp only [linesAdopted_same]))

theorem unitsAdopted_unit (old : Option Bank) (new : Bank) (a : Nat) : recAt (unitsAdopted old new s).units a =
    if a ∈ addresses ∧ new.kindAt a ≠ .none then some (if entryChanged old new a then {} else (recAt s.units a).getD {}) else none := by
  unfold unitsAdopted
  rw [recAt_remade]
  exact if_congr mem_filled rfl rfl

theorem recAt_filterMap {α : Type} (as : List Nat) (g : Nat → Option α) (a : Nat) :
    recAt (as.filterMap fun a => (g a).map fun t => (a, t)) a = if a ∈ as then g a else none := by
  induction as with
  | nil => rfl
  | cons c as ih =>
    rw [List.filterMap_cons]
    cases hc : g c with
    | none =>
      refine ih.trans ?_
      by_cases hac : a = c
      · subst hac
        simp [hc]
      · simp [hac]
    | some t =>
      dsimp only [Option.map_some]
      rw [recAt_cons, ih]
      by_cases hac : c = a
      · subst hac
        simp [hc]
      · simp [hac, Ne.symm hac]

theorem refreshStarted_timer (old : Option Bank) (new : Bank) {a : Nat} (ha : a ∈ addresses) (h : entryChanged old new a = true) :
    recAt (refreshStarted old new s).refresh a = (new.kindAt a).refreshed.map fun k => s.now.plus k.period := by
  have hform : (refreshStarted old new s).refresh = addresses.filterMap fun a =>
      ((new.kindAt a).refreshed.bind fun k =>
        if entryChanged old new a then some (s.after k.period) else recAt s.refresh a).map fun t => (a, t) := by
    unfold refreshStarted
    refine List.filterMap_congr fun a _ => ?_
    cases (new.kindAt a).refreshed with
    | none => rfl
    | some k =>
      dsimp only [Option.bind_some]
      split <;> rfl
  rw [hform, recAt_filterMap, if_pos ha]
  cases (new.kindAt a).refreshed with
  | none => rfl
  | some k => exact if_pos h

theorem bankAdopted_refresh {a : Nat} (ha : a ∈ addresses) (h : entryChanged s.bank img.bank a = true) :
    RefreshRuns img.bank s.now a (bankAdopted img s) := by
  have hrecords : RefreshRuns img.bank s.now a (recordsAdopted img s) := by
    have hstarted := refreshStarted_timer { s with active := some img } s.bank img.bank ha h
    refine ⟨(recordsAdopted_same img s).2.2, ?_, ?_⟩
    · unfold recordsAdopted
      simp [State.bank]
    · refine Eq.trans ?_ hstarted
      unfold recordsAdopted
      simp
  have hhanded : RefreshRuns img.bank s.now a (tracksHanded s.tracks img.bank (recordsAdopted img s)) :=
    hrecords.same (by simp) (by simp) (by simp)
  have hprobes : RefreshRuns img.bank s.now a (recordsHanded img s) :=
    foldl_keeps (P := RefreshRuns img.bank s.now a) (fun _ f hx => hx.place f) _ hhanded
  rw [bankAdopted_eq]
  exact hprobes.same (by simp) (by simp) (by simp)

end

end Sys2Proof.Machine
end

section
/-! PROOF. Records made afresh where a bank is taken into use, what stays of them to the end of the arrival, and the comparison at
start-up (R21, R54, R86, R116, R130, R146, R153, R156, R159, R169, R173). -/

namespace Sys2Proof.Machine

/-! ### Records made afresh -/

section
variable (img : BankImage) (s : State) {n : Nat}

theorem bankAdopted_section_fresh (hd : img.bank.defined .iu n = true) (h : sectionRedefined s.bank img.bank n = true) :
    recAt (bankAdopted img s).sections n = some (sectionOnTracks (img.bank.sectionEntry n)
      (trackMove s.tracks (bankAdopted img s).tracks) (newSection (img.bank.sectionEntry n).dir)) := by
  rw [bankAdopted_section, recordsAdopted_section, if_pos hd, madeOf, if_pos h]
  refine congrArg some ?_
  dsimp only
  split <;> rfl

theorem bankAdopted_lever_fresh (hd : img.bank.defined .lfu n = true) (h : leverRedefined s.bank img.bank n = true) :
    recAt (bankAdopted img s).levers n = some {} := by
  rw [bankAdopted_lever, recordsAdopted_lever, if_pos hd, madeOf, if_pos h]
  rfl

theorem bankAdopted_track_fresh (hd : img.bank.defined .tu n = true) (h : trackRedefined s.bank img.bank n = true) :
    recAt (bankAdopted img s).tracks n = some {} := by
  rw [bankAdopted_track, recordsAdopted_track, if_pos hd, madeOf, if_pos h]

theorem bankAdopted_exchange_fresh (hd : img.bank.defined .iu n = true) (h : sectionRedefined s.bank img.bank n = true) :
    recAt (bankAdopted img s).exchanges n = some {} := by
  rw [bankAdopted_exchange, recordsAdopted_exchange, if_pos hd, if_pos h]

theorem bankAdopted_recogniser_fresh (x : Side) (hd : img.bank.defined .iu n = true)
    (h : sectionRedefined s.bank img.bank n = true) : recAt ((bankAdopted img s).recognisers x) n = some {} := by
  have hidle : recogniserKept (timingChanged s.bank img.bank) {} = {} := by
    unfold recogniserKept
    exact ite_self _
  rw [bankAdopted_recogniser, recordsAdopted_recogniser, if_pos hd, if_pos h, hidle, Option.map_some]
  simp

theorem bankAdopted_lamp_fresh (hd : img.bank.defined .lu n = true) (h : assignmentChanged s.bank img.bank .lu n = true) :
    recAt (bankAdopted img s).lamps n = some {} := by
  rw [bankAdopted_lamp, recordsAdopted_lamp, if_pos hd, madeOf, if_pos h]

theorem bankAdopted_undefined :
    (img.bank.defined .tu n = false → recAt (bankAdopted img s).tracks n = none) ∧
    (img.bank.defined .lfu n = false → recAt (bankAdopted img s).levers n = none) ∧
    (img.bank.defined .lu n = false → recAt (bankAdopted img s).lamps n = none) ∧
    (img.bank.defined .iu n = false → recAt (bankAdopted img s).sections n = none ∧
      recAt (bankAdopted img s).exchanges n = none ∧ ∀ x, recAt ((bankAdopted img s).recognisers x) n = none) := by
  refine ⟨fun h => ?_, fun h => ?_, fun h => ?_, fun h => ⟨?_, ?_, fun x => ?_⟩⟩
  · rw [bankAdopted_track, recordsAdopted_track, if_neg (by simp [h])]
  · rw [bankAdopted_lever, recordsAdopted_lever, if_neg (by simp [h]), Option.map_none]
  · rw [bankAdopted_lamp, recordsAdopted_lamp, if_neg (by simp [h])]
  · rw [bankAdopted_section, recordsAdopted_section, if_neg (by simp [h]), Option.map_none]
  · rw [bankAdopted_exchange, recordsAdopted_exchange, if_neg (by simp [h])]
  · rw [bankAdopted_recogniser, recordsAdopted_recogniser, if_neg (by simp [h]), Option.map_none]

theorem bankAdopted_groups : (bankAdopted img s).groupLive = (groupsAdopted s.bank img.bank s).groupLive := by
  rw [bankAdopted_eq]
  unfold recordsHanded
  simp only [linesAdopted_same, probesPlaced_same, tracksHanded_same]
  unfold recordsAdopted groupsAdopted
  simp

end

/-! ### A line that has started, over the end of the arrival (R113, R115, R116) -/

/-- A line has started: its start sequence sends the break, and behind its STATUS only INSTRs wait. -/
structure LineBegun (l : Line) (own0 own1 : Instrument) (s : State) : Prop where
  startSeq : (s.line l).startSeq = .sendingBreak
  sending : (s.line l).sending = none
  queue : ∃ rest, (s.line l).queue = .status own0 own1 :: rest ∧ ∀ m ∈ rest, ∃ c x, m = LineMsg.instr c x

section
variable {l : Line} {own0 own1 : Instrument} {s : State}

theorem LineBegun.of_line (h : LineBegun l own0 own1 s) {t : State} (hl : t.line l = s.line l) : LineBegun l own0 own1 t where
  startSeq := by rw [hl]; exact h.startSeq
  sending := by rw [hl]; exact h.sending
  queue := by rw [hl]; exact h.queue

/-- An INSTR that joins leaves the STATUS at the front of the queue, and only INSTRs behind it. -/
theorem lineJoin_begun (link : Link) {q rest : List LineMsg} (hq : q = .status own0 own1 :: rest)
    (hrest : ∀ m ∈ rest, ∃ c x, m = LineMsg.instr c x) (c : Nat) (x : Instrument) :
    ∃ kept, (lineJoin link q (.instr c x)).1 = .status own0 own1 :: kept ∧ ∀ m ∈ kept, ∃ c x, m = LineMsg.instr c x := by
  have hyoung : takeYoungestStroke q = none := by
    have hinstr : ∀ r : List LineMsg, (∀ m ∈ r, ∃ c x, m = LineMsg.instr c x) → takeYoungestStroke r = none := by
      intro r hr
      induction r with
      | nil => rfl
      | cons m r ih =>
        obtain ⟨d, y, rfl⟩ := hr m List.mem_cons_self
        unfold takeYoungestStroke
        rw [ih fun m hm => hr m (List.mem_cons_of_mem _ hm)]
    rw [hq]
    unfold takeYoungestStroke
    rw [hinstr rest hrest]
  rw [lineJoin_of_state (.inl ⟨c, x, rfl⟩)]
  split
  · refine ⟨rest.map fun y => if (LineMsg.instr c x).replaces y then .instr c x else y, by rw [hq]; rfl, fun m hm => ?_⟩
    obtain ⟨y, hy, rfl⟩ := List.mem_map.1 hm
    split
    · exact ⟨c, x, rfl⟩
    · exact hrest y hy
  · split
    · refine ⟨rest ++ [.instr c x], by rw [hq]; rfl, fun m hm => ?_⟩
      rcases List.mem_append.1 hm with hm | hm
      · exact hrest m hm
      · exact ⟨c, x, List.mem_singleton.1 hm⟩
    · rw [hyoung]
      exact ⟨rest, hq, hrest⟩

theorem LineBegun.endKeeps (l : Line) (own0 own1 : Instrument) : EndKeeps (LineBegun l own0 own1) where
  tell _ _ _ _ _ h := h.of_line (raise_line _ _ _ _ l)
  levers _ _ h := h.of_line (State.line_of _ _ rfl rfl l)
  lamps _ _ h := h.of_line (State.line_of _ _ rfl rfl l)
  begin_running _ h := h.of_line (State.line_of _ _ rfl rfl l)
  outputs _ _ h := h.of_line (State.line_of _ _ rfl rfl l)
  placed _ _ _ _ _ _ h := h.of_line (State.line_of _ _ (by simp) (by simp) l)
  instr s k c x h := by
    obtain ⟨q, hform⟩ := placeLine_line s k l (.instr c x)
    obtain ⟨rest, hq, hrest⟩ := h.queue
    refine ⟨by rw [hform]; exact h.startSeq, by rw [hform]; exact h.sending, ?_⟩
    rw [placeLine_queue]
    split
    · next hl =>
      subst hl
      exact lineJoin_begun _ hq hrest c x
    · exact h.queue
  arbiters s h := by
    refine h.of_line ?_
    rw [arbiters_line]
    have hbusy : (s.line l).free = false := by
      unfold LineRec.free
      rw [h.startSeq]
      simp
    unfold LineRec.arbiter
    rw [hbusy]
    rfl

end

/-- What stands of a started line at the end of the arrival in which its bank was taken into use. -/
theorem begunLine_finish (img : BankImage) (s old x : State) {l : Line} (h : lineChanged s.bank img.bank l = true)
    (hl : x.line l = (bankAdopted img s).line l) : ∃ rest, (finish old x).line l =
      { settings := some (img.bank.lineSettings l), startSeq := .sendingBreak,
        queue := statusMessage (bankAdopted img s) img.bank l :: rest,
        statusTimer := some (s.after ((img.bank.lineSettings l).statusInterval.toNat * 10)) } ∧
      ∀ m ∈ rest, ∃ c y, m = LineMsg.instr c y := by
  have hline := hl.trans ((bankAdopted_line img s l).trans (if_pos h))
  have hbegun : LineBegun l (ownOnChannel (bankAdopted img s) img.bank l 0) (ownOnChannel (bankAdopted img s) img.bank l 1) x :=
    ⟨by rw [hline], by rw [hline], [], by rw [hline]; rfl, nofun⟩
  have hend := (LineBegun.endKeeps l _ _).finishWith [] [] old hbegun
  obtain ⟨q, m, hstays⟩ := (finish_concluded old x).line l
  obtain ⟨rest, hq, hrest⟩ := hend.queue
  refine ⟨rest, ?_, hrest⟩
  have hsending : m = none := by
    have hs := hend.sending
    rw [show finishWith [] [] old x = finish old x from rfl, hstays] at hs
    exact hs
  have hqueue : q = statusMessage (bankAdopted img s) img.bank l :: rest := by
    rw [show finishWith [] [] old x = finish old x from rfl, hstays] at hq
    exact hq
  rw [hstays, hline, hsending, hqueue]

/-! ### A lever made afresh, over the end of the arrival (R72, R73, R86) -/

/-- A lever made afresh stays so to the end of the arrival: no end of it is known, so that no test can free it or find it in a
stroke. -/
theorem finish_lever_fresh {x : State} {b : Bank} (hb : x.bank = some b) (old : State) {n : Nat} (h : recAt x.levers n = some {}) :
    recAt (finish old x).levers n = some {} := by
  obtain ⟨lost, hends⟩ := finishWith_strokes hb [] [] old
  have hunlost : n ∉ lost.map Prod.fst := by
    intro hn
    obtain ⟨⟨m, stood⟩, hm, rfl⟩ := List.mem_map.1 hn
    obtain ⟨r, hr, -, htested, -⟩ := hends.cause m stood hm
    cases h.symm.trans hr
    have hquiet : testedEnd [] m (lockedUnless (x.part = .running) {}) = none := by
      unfold lockedUnless
      split <;> rfl
    cases hquiet.symm.trans htested
  obtain ⟨l, hl, hread⟩ := hends.each n {} h
  obtain ⟨l', hl', hrelease, hlock⟩ := (leverStays_unknown n).finishWith [] [] old ⟨{}, h, rfl, rfl⟩
  cases hl.symm.trans hl'
  have hrest := hread.rest
  rw [hrelease, hlock, decide_eq_false hunlost] at hrest
  refine hl.trans (congrArg some (hrest.trans ?_))
  unfold lockedUnless
  split <;> rfl

theorem finish_lever_none {x : State} (old : State) {n : Nat} (h : recAt x.levers n = none) :
    recAt (finish old x).levers n = none := by
  have hcore := cores_recAt (finish_concluded old x).levers n
  rw [h] at hcore
  simpa using hcore

/-! ### The part with the bank in use, at the end of the arrival -/

/-- The part `x` holds what `bankAdopted` made from `s`, but for events, queued frames and the alarms of lamps. -/
structure AdoptedInto (img : BankImage) (s x : State) : Prop where
  now : x.now = s.now
  active : x.active = some img
  units : x.units = (bankAdopted img s).units
  refresh : x.refresh = (bankAdopted img s).refresh
  levers : x.levers = (bankAdopted img s).levers
  lines : ∀ l, x.line l = (bankAdopted img s).line l
  lamps : cores lampCore x.lamps = cores lampCore (bankAdopted img s).lamps
  rest : x.tracks = (bankAdopted img s).tracks ∧ x.sections = (bankAdopted img s).sections ∧
    x.exchanges = (bankAdopted img s).exchanges ∧ (∀ y, x.recognisers y = (bankAdopted img s).recognisers y) ∧
    x.groupLive = (bankAdopted img s).groupLive

section
variable {img : BankImage} {s x : State} (h : AdoptedInto img s x) (old : State)
include h

theorem AdoptedInto.bank : x.bank = some img.bank := by
  unfold State.bank
  rw [h.active]
  rfl

theorem AdoptedInto.unitsStay : UnitsStay (unitsAdopted s.bank img.bank s) (finish old x) :=
  ((bankAdopted_units img s).trans (.of_units h.units)).trans (finish_concluded old x).units

theorem AdoptedInto.unit_none {a : Nat} (ha : ¬ (a ∈ addresses ∧ img.bank.kindAt a ≠ .none)) :
    recAt (finish old x).units a = none :=
  recAt_none_of_numbers (h.unitsStay old).1 (by rw [unitsAdopted_unit, if_neg ha])

theorem AdoptedInto.unit_fresh {a : Nat} (ha : a ∈ addresses) (hk : img.bank.kindAt a ≠ .none)
    (hc : entryChanged s.bank img.bank a = true) :
    ∃ v, recAt (finish old x).units a = some v ∧ (v.state = .probing ∨ v.state = .absent) := by
  obtain ⟨v, hv, hstays⟩ := (h.unitsStay old).2 a {} (by rw [unitsAdopted_unit, if_pos ⟨ha, hk⟩, if_pos hc])
  refine ⟨v, hv, ?_⟩
  rcases hstays with ⟨n, w, -, rfl⟩ | ⟨w, e, rfl⟩
  · exact .inl rfl
  · exact .inr rfl

theorem AdoptedInto.unit_kept {a : Nat} {u : UnitRec} (ha : a ∈ addresses) (hk : img.bank.kindAt a ≠ .none)
    (hc : entryChanged s.bank img.bank a = false) (hu : recAt s.units a = some u) :
    ∃ v, recAt (finish old x).units a = some v ∧ UnitStays u v :=
  (h.unitsStay old).2 a u (by rw [unitsAdopted_unit, if_pos ⟨ha, hk⟩, if_neg (by simp [hc]), hu]; rfl)

theorem AdoptedInto.refreshRuns {a : Nat} (ha : a ∈ addresses) (hc : entryChanged s.bank img.bank a = true) :
    recAt (finish old x).refresh a = (img.bank.kindAt a).refreshed.map fun k => s.now.plus k.period := by
  have hruns : RefreshRuns img.bank s.now a x := by
    have hadopted := bankAdopted_refresh img s ha hc
    exact ⟨h.now, h.bank, by rw [h.refresh]; exact hadopted.timer⟩
  exact ((refreshRuns_endKeeps img.bank s.now a).finishWith [] [] old hruns).timer

theorem AdoptedInto.lever_fresh {n : Nat} (hd : img.bank.defined .lfu n = true) (hr : leverRedefined s.bank img.bank n = true) :
    recAt (finish old x).levers n = some {} :=
  finish_lever_fresh h.bank old (by rw [h.levers]; exact bankAdopted_lever_fresh img s hd hr)

theorem AdoptedInto.lamp {n : Nat} : (recAt (finish old x).lamps n).map lampCore = (recAt (bankAdopted img s).lamps n).map lampCore :=
  cores_recAt ((finish_concluded old x).lamps.1.trans h.lamps) n

theorem AdoptedInto.outputs : OutputsShow (finish old x) :=
  finishWith_show [] [] old fun hn => absurd (h.active.symm.trans hn) (by simp)

theorem AdoptedInto.finish_rest : (finish old x).tracks = (bankAdopted img s).tracks ∧
    (finish old x).sections = (bankAdopted img s).sections ∧ (finish old x).exchanges = (bankAdopted img s).exchanges ∧
    (∀ y, (finish old x).recognisers y = (bankAdopted img s).recognisers y) ∧
    (finish old x).groupLive = (bankAdopted img s).groupLive := by
  obtain ⟨htracks, hsections, hexchanges, hrecognisers, hgroups⟩ := h.rest
  have hrec : ∀ y, (finish old x).recognisers y = x.recognisers y := fun y => by
    cases y <;> simp only [State.recognisers, finish_same]
  exact ⟨by rw [← htracks]; simp only [finish_same], by rw [← hsections]; simp only [finish_same],
    by rw [← hexchanges]; simp only [finish_same], fun y => (hrec y).trans (hrecognisers y),
    by rw [← hgroups]; simp only [finish_same]⟩

theorem AdoptedInto.line {l : Line} (hl : lineChanged s.bank img.bank l = true) : ∃ rest, (finish old x).line l =
      { settings := some (img.bank.lineSettings l), startSeq := .sendingBreak,
        queue := statusMessage (bankAdopted img s) img.bank l :: rest,
        statusTimer := some (s.after ((img.bank.lineSettings l).statusInterval.toNat * 10)) } ∧
      ∀ m ∈ rest, ∃ c y, m = LineMsg.instr c y :=
  begunLine_finish img s old x hl (h.lines l)

end

theorem outputs_defined {t : State} {b : Bank} (hb : t.bank = some b) (h : OutputsShow t) (o : Nat) :
    (recAt t.outputs o).isSome = b.defined .du o := by
  unfold OutputsShow at h
  rw [hb] at h
  rw [h, recAt_makeRecs]
  simp only [mem_objects_iff]
  split
  · next hd => exact hd.symm
  · next hd => exact (Bool.eq_false_iff.2 hd).symm

/-! ### The comparison at start-up (R173) -/

section
variable {s : State}

theorem startupCompared_equal (h : s.stored.bank.crc32 = s.stored.crc) :
    startupCompared s = { bankAdopted s.stored s with startTimer := some (s.after Config.startTime) } := if_pos h

theorem startupCompared_differs (h : s.stored.bank.crc32 ≠ s.stored.crc) :
    startupCompared s = raise { s with part := .unconfigured } .start 0 (s.resetKind.code * 256 + PartState.unconfigured.code) :=
  if_neg h

theorem startupCompared_adopted (h : s.stored.bank.crc32 = s.stored.crc) : AdoptedInto s.stored s (startupCompared s) := by
  rw [startupCompared_equal h]
  exact ⟨by simp, by simp, rfl, rfl, rfl, fun l => State.line_of _ _ rfl rfl l, rfl, rfl, rfl, rfl,
    fun y => by cases y <;> rfl, rfl⟩

theorem exec_comparison (h : s.inReset = false) (dt : Time) : exec (.startupCrcCheck dt) s =
    .next (if comparisonDue (s.advance dt) then finish (s.advance dt) (startupCompared (s.advance dt)) else s.advance dt) :=
  next_awake (e := fun t => if comparisonDue t then finish t (startupCompared t) else t) rfl h

theorem trackMove_none {new : Recs TrackRec} : trackMove [] new = fun _ => none := rfl

/-- Without a bank in use every object's record is made afresh (R169, R173). -/
theorem all_redefined (new : Bank) : (∀ a, entryChanged none new a = true) ∧ (∀ n, trackRedefined none new n = true) ∧
    (∀ n, leverRedefined none new n = true) ∧ (∀ n, sectionRedefined none new n = true) ∧
    (∀ k n, assignmentChanged none new k n = true) ∧ ∀ l, lineChanged none new l = true :=
  ⟨fun _ => rfl, fun _ => rfl, fun _ => rfl, fun _ => rfl, fun _ _ => rfl, fun _ => rfl⟩

end

/-- Settles O51, by whether the comparison is due and by the stored CRC. -/
theorem startupComparison : Obligations.StartupComparison := by
  unfold Obligations.StartupComparison
  intro dt s hs b now
  have hdue : comparisonDue (s.advance dt) = (decide (s.part = .starting) && s.active.isNone) := by
    unfold comparisonDue
    simp
  have hstored : (s.advance dt).stored = s.stored := by simp
  refine ⟨fun h => ?_, fun hp ha hcrc => ?_, fun hp ha htracks hcrc => ?_⟩
  · rw [exec_comparison hs, hdue, if_neg]
    rcases h with hp | ha
    · simp [hp]
    · simp [Option.isNone_eq_false_iff.2 ha]
  · rw [exec_comparison hs, hdue, if_pos (by simp [hp, ha]), startupCompared_differs (by rw [hstored]; exact hcrc)]
    unfold finish
    rw [finishWith_none _ _ _ _ (by simp [ha])]
    simp
  · set due := s.advance dt with hdueState
    have hbank : due.bank = none := by simp [State.bank, due, ha]
    have heq : due.stored.bank.crc32 = due.stored.crc := by rw [hstored]; exact hcrc
    have hadopted := startupCompared_adopted heq
    obtain ⟨hentries, htrack, hlever, hsection, hassigned, hline⟩ := all_redefined due.stored.bank
    rw [← hbank] at hentries htrack hlever hsection hassigned hline
    have hnow : due.now = now := by simp [due, now]
    obtain ⟨htracks', hsections, hexchanges, hrecognisers, hgroups⟩ := hadopted.finish_rest due
    have hundefined := fun n => bankAdopted_undefined due.stored due (n := n)
    set t := finish due (startupCompared due) with ht
    have hb : due.stored.bank = b := by rw [hstored]
    have hfields : t.active = some s.stored ∧ t.stored = s.stored ∧ t.shadow = s.shadow ∧ t.check = s.check ∧ t.loop = s.loop ∧
        t.watch = s.watch ∧ t.trip = s.trip ∧ t.lossMarks = s.lossMarks := by
      simp only [ht, finish_same]
      rw [startupCompared_equal heq]
      simp [due]
    obtain ⟨hactive, hst, hshadow, hcheck, hloop, hwatch, htrip, hmarks⟩ := hfields
    have hpart : t.part = .starting ∧ t.startTimer = some (now.plus 200) ∨ t.part = .running ∧ t.startTimer = none := by
      have hx : (startupCompared due).part = .starting ∧ (startupCompared due).startTimer = some (now.plus 200) := by
        rw [startupCompared_equal heq]
        refine ⟨by simp [due, hp], ?_⟩
        rw [← hnow]
        rfl
      rcases (finish_concluded due (startupCompared due)).part with ⟨hpart, htimer⟩ | ⟨-, hpart, htimer⟩
      · exact .inl ⟨hpart.trans hx.1, htimer.trans hx.2⟩
      · exact .inr ⟨hpart, htimer⟩
    have houtputs := hadopted.outputs due
    have htbank : t.bank = some b := by simp [State.bank, hactive, b]
    refine ⟨t, ?_, hactive, hpart, hst, hshadow, hcheck, hloop, hwatch, htrip, hmarks, fun a => ⟨?_, ?_⟩, fun n => ?_, fun n => ?_,
      fun n => ?_, fun n => ?_, fun side n => ?_, fun n => ?_, outputs_defined htbank houtputs, houtputs, ?_, fun l => ?_,
      fun a haddr => ?_⟩
    · rw [exec_comparison hs, hdue, if_pos (by simp [hp, ha])]
    · rintro ⟨u, hu, -⟩
      by_contra hno
      cases (hadopted.unit_none due (hb ▸ hno)).symm.trans hu
    · rintro ⟨haddr, hk⟩
      exact hadopted.unit_fresh due haddr (hb ▸ hk) (hentries a)
    · rw [htracks', ← hb]
      split
      · next hd => exact bankAdopted_track_fresh _ _ hd (htrack n)
      · next hd => exact (hundefined n).1 (Bool.eq_false_iff.2 hd)
    · rw [← hb]
      split
      · next hd => exact hadopted.lever_fresh due hd (hlever n)
      · next hd => exact finish_lever_none due (by rw [hadopted.levers]; exact (hundefined n).2.1 (Bool.eq_false_iff.2 hd))
    · rw [hsections, ← hb]
      split
      · next hd =>
        have hnone : due.tracks = [] := by simpa [due] using htracks
        rw [bankAdopted_section_fresh _ _ hd (hsection n), hnone, trackMove_none, sectionOnTracks_still fun _ => rfl]
        rfl
      · next hd => exact ((hundefined n).2.2.2 (Bool.eq_false_iff.2 hd)).1
    · rw [hexchanges, ← hb]
      split
      · next hd => exact bankAdopted_exchange_fresh _ _ hd (hsection n)
      · next hd => exact ((hundefined n).2.2.2 (Bool.eq_false_iff.2 hd)).2.1
    · rw [hrecognisers, ← hb]
      split
      · next hd => exact bankAdopted_recogniser_fresh _ _ side hd (hsection n)
      · next hd => exact ((hundefined n).2.2.2 (Bool.eq_false_iff.2 hd)).2.2 side
    · refine (hadopted.lamp due).trans ?_
      rw [← hb]
      split
      · next hd =>
        rw [bankAdopted_lamp_fresh _ _ hd (hassigned .lu n)]
        rfl
      · next hd => rw [(hundefined n).2.2.1 (Bool.eq_false_iff.2 hd), Option.map_none]
    · rw [hgroups, bankAdopted_groups, ← hb, hbank]
      rfl
    · obtain ⟨rest, hform, -⟩ := hadopted.line due (hline l)
      rw [hform, ← hb, ← hnow]
      exact ⟨rfl, rfl, rfl, rfl, rfl, rfl⟩
    · rw [hadopted.refreshRuns due haddr (hentries a), hb, hnow]

end Sys2Proof.Machine
end

section
/-! PROOF. What the completion of a switch keeps and what it makes afresh (R17, R35, R55, R86, R99, R116, R131, R146, R153, R156,
R168, R169). -/

namespace Sys2Proof.Machine

/-! ### What a bank redefines (R169) -/

section
variable {x b : Bank} {n : Nat}

theorem coverChanged_iff {r : ListRange} :
    coverChanged x b r = true ↔ ∃ p ∈ b.covered r, x.pool.getD p.1 default ≠ p.2 := by
  simp [coverChanged]

theorem assignmentChanged_iff {k : UnitKind} : assignmentChanged (some x) b k n = true ↔ x.assignment k n ≠ b.assignment k n := by
  simp [assignmentChanged]

theorem trackRedefined_iff : trackRedefined (some x) b n = true ↔
    x.assignment .tu n ≠ b.assignment .tu n ∨ x.trackEntry n ≠ b.trackEntry n := by
  unfold trackRedefined
  rw [Bool.or_eq_true, assignmentChanged_iff]
  simp

theorem leverRedefined_iff : leverRedefined (some x) b n = true ↔
    x.assignment .lfu n ≠ b.assignment .lfu n ∨ x.leverEntry n ≠ b.leverEntry n ∨
      (∃ p ∈ b.covered (b.leverEntry n).reverseList, x.pool.getD p.1 default ≠ p.2) ∨
      ∃ p ∈ b.covered (b.leverEntry n).normalList, x.pool.getD p.1 default ≠ p.2 := by
  unfold leverRedefined
  simp only [Bool.or_eq_true, assignmentChanged_iff, coverChanged_iff, decide_eq_true_eq, or_assoc]

theorem sectionRedefined_iff : sectionRedefined (some x) b n = true ↔
    x.assignment .iu n ≠ b.assignment .iu n ∨ x.sectionEntry n ≠ b.sectionEntry n ∨
      ∃ p ∈ b.covered (b.sectionEntry n).acceptance, x.pool.getD p.1 default ≠ p.2 := by
  unfold sectionRedefined
  simp only [Bool.or_eq_true, assignmentChanged_iff, coverChanged_iff, decide_eq_true_eq]

/-- A test of what is redefined holds where it holds of the old bank, or where there is none. -/
theorem redefined_of {f : Option Bank → Bool} {p : Bank → Prop} (hnone : f none = true) (hsome : ∀ x, f (some x) = true ↔ p x)
    {o : Option Bank} (h : ∀ x, o = some x → p x) : f o = true := by
  cases o with
  | none => exact hnone
  | some x => exact (hsome x).2 (h x rfl)

theorem entryChanged_false {o : Option Bank} {a : Nat} :
    entryChanged o b a = false ↔ ∃ x, o = some x ∧ x.rosterAt a = b.rosterAt a := by
  cases o <;> simp [entryChanged]

end

theorem keptOn_unfallen {img : BankImage} {s : State} {x : Bank} (hx : s.bank = some x) {k : UnitKind} {n : Nat}
    {redefined : Nat → Bool}
    (h : ∀ a ∈ addresses, img.bank.kindAt a = k → n ∈ (img.bank.assignedChannels a).map Prod.snd →
      x.rosterAt a = img.bank.rosterAt a) : n ∉ fallenOn img s k redefined := by
  intro hn
  obtain ⟨-, a, ha, hk, hm, hchanged⟩ := mem_keptOn hn
  exact entryChanged_iff.1 hchanged x hx (h a ha hk hm)

/-! ### Records kept -/

section
variable {img : BankImage} {s : State} {n : Nat}

theorem bankAdopted_track_kept {r : TrackRec} (hd : img.bank.defined .tu n = true)
    (h : trackRedefined s.bank img.bank n = false) (hf : n ∉ fallenOn img s .tu (trackRedefined s.bank img.bank))
    (hr : recAt s.tracks n = some r) : recAt (bankAdopted img s).tracks n = some r := by
  rw [bankAdopted_track, recordsAdopted_track, if_pos hd, madeOf, if_neg (by simp [h]), if_neg (by simpa using hf), hr]
  rfl

theorem bankAdopted_lever_kept {l : LeverRec} (hd : img.bank.defined .lfu n = true)
    (h : leverRedefined s.bank img.bank n = false) (hf : n ∉ fallenOn img s .lfu (leverRedefined s.bank img.bank))
    (hl : recAt s.levers n = some l) :
    ∃ l', recAt (bankAdopted img s).levers n = some l' ∧ l'.position = l.position ∧ l'.catchUp = l.catchUp ∧
      l'.violation = l.violation := by
  refine ⟨approachAfter s.tracks img.bank (recordsAdopted img s) n l, ?_, ?_⟩
  · rw [bankAdopted_lever, recordsAdopted_lever, if_pos hd, madeOf, if_neg (by simp [h]), if_neg (by simpa using hf), hl]
    rfl
  · unfold approachAfter
    dsimp only
    split <;> exact ⟨rfl, rfl, rfl⟩

theorem bankAdopted_lamp_kept {r : LampRec} (hd : img.bank.defined .lu n = true)
    (h : assignmentChanged s.bank img.bank .lu n = false)
    (hf : n ∉ fallenOn img s .lu (assignmentChanged s.bank img.bank .lu)) (hr : recAt s.lamps n = some r) :
    recAt (bankAdopted img s).lamps n = some r := by
  rw [bankAdopted_lamp, recordsAdopted_lamp, if_pos hd, madeOf, if_neg (by simp [h]), if_neg (by simpa using hf), hr]
  rfl

theorem bankAdopted_exchange_kept {y : Exchange} (hd : img.bank.defined .iu n = true)
    (h : sectionRedefined s.bank img.bank n = false) (hy : recAt s.exchanges n = some y) :
    recAt (bankAdopted img s).exchanges n = some y := by
  rw [bankAdopted_exchange, recordsAdopted_exchange, if_pos hd, if_neg (by simp [h]), hy]
  rfl

theorem bankAdopted_recogniser_kept {x : Side} {g : Recogniser} (hd : img.bank.defined .iu n = true)
    (h : sectionRedefined s.bank img.bank n = false) (hg : recAt (s.recognisers x) n = some g) :
    (g.collecting = false → recAt ((bankAdopted img s).recognisers x) n = some g) ∧
    (g.collecting = true → timingChanged s.bank img.bank = true → recAt ((bankAdopted img s).recognisers x) n = some {}) ∧
    (g.collecting = true → timingChanged s.bank img.bank = false →
      recAt ((bankAdopted img s).recognisers x) n = some { g with invalid := g.invalid || losesFar s.bank img.bank s n }) := by
  have hrec : recAt ((bankAdopted img s).recognisers x) n = some
      (let kept := recogniserKept (timingChanged s.bank img.bank) g
       if losesFar s.bank img.bank s n && kept.collecting then { kept with invalid := true } else kept) := by
    rw [bankAdopted_recogniser, recordsAdopted_recogniser, if_pos hd, if_neg (by simp [h]), hg]
    rfl
  rw [hrec]
  unfold recogniserKept
  refine ⟨fun hc => ?_, fun hc ht => ?_, fun hc ht => ?_⟩
  · simp [hc]
  · simp [hc, ht]
  · obtain ⟨collecting, groups, last, invalid, timer⟩ := g
    dsimp only at hc
    subst hc
    cases losesFar s.bank img.bank s n <;> simp [ht]

/-- A section that the bank does not redefine takes the changes of its tracks, loses its far state where its line starts out of
UP, and its commutator where its unit falls (R53, R134, R137, R146). -/
theorem bankAdopted_section_kept {r : SectionRec} (hd : img.bank.defined .iu n = true)
    (h : sectionRedefined s.bank img.bank n = false) (hr : recAt s.sections n = some r) :
    ∃ r', recAt (bankAdopted img s).sections n = some r' ∧
      r' = { sectionOnTracks (img.bank.sectionEntry n) (trackMove s.tracks (bankAdopted img s).tracks) r with
        far := r'.far, commutator := r'.commutator } ∧
      (losesFar s.bank img.bank s n = true → r'.far = .unknown) ∧ (losesFar s.bank img.bank s n = false → r'.far = r.far) ∧
      (r'.commutator = r.commutator ∨ r'.commutator = .unknown) := by
  obtain ⟨kept, hkept, hform⟩ : ∃ kept, (kept = r ∨ kept = sectionFallen r) ∧
      recAt (bankAdopted img s).sections n =
        some (let handed := sectionOnTracks (img.bank.sectionEntry n) (trackMove s.tracks (bankAdopted img s).tracks) kept
          if losesFar s.bank img.bank s n then { handed with far := .unknown } else handed) := by
    rw [bankAdopted_section, recordsAdopted_section, if_pos hd, madeOf, if_neg (by simp [h]), hr, Option.map_some, Option.getD_some]
    refine ⟨_, ?_, rfl⟩
    split
    · exact .inr rfl
    · exact .inl rfl
  refine ⟨_, hform, ?_⟩
  generalize trackMove s.tracks (bankAdopted img s).tracks = moves
  cases losesFar s.bank img.bank s n
  · rcases hkept with rfl | rfl
    · exact ⟨rfl, nofun, fun _ => rfl, .inl rfl⟩
    · exact ⟨rfl, nofun, fun _ => rfl, .inr rfl⟩
  · rcases hkept with rfl | rfl
    · exact ⟨rfl, fun _ => rfl, nofun, .inl rfl⟩
    · exact ⟨rfl, fun _ => rfl, nofun, .inr rfl⟩

end

/-! ### The clauses of `Redefined` -/

/-- What a switch takes over from `s`: the records that `s'` holds as the bank is taken into use. -/
structure SameRecords (s s' : State) : Prop where
  bank : s'.bank = s.bank
  units : UnitsStay s s'
  lines : ∀ l, s'.line l = s.line l
  recognisers : ∀ y, s'.recognisers y = s.recognisers y
  rest : s'.tracks = s.tracks ∧ s'.levers = s.levers ∧ s'.sections = s.sections ∧ s'.exchanges = s.exchanges ∧
    s'.lamps = s.lamps ∧ s'.groupLive = s.groupLive

section
variable {img : BankImage} {s' x : State} (h : AdoptedInto img s' x) (old : State)
include h

theorem AdoptedInto.tracks_redefined {n : Nat} (hd : img.bank.defined .tu n = true) :
    ((∀ y, s'.bank = some y → y.assignment .tu n ≠ img.bank.assignment .tu n ∨ y.trackEntry n ≠ img.bank.trackEntry n) →
      recAt (finish old x).tracks n = some {}) ∧
    ∀ y, s'.bank = some y → y.assignment .tu n = img.bank.assignment .tu n → y.trackEntry n = img.bank.trackEntry n →
      (∀ a ∈ addresses, img.bank.kindAt a = .tu → n ∈ (img.bank.assignedChannels a).map Prod.snd →
        y.rosterAt a = img.bank.rosterAt a) →
      ∀ r, recAt s'.tracks n = some r → recAt (finish old x).tracks n = some r := by
  rw [(h.finish_rest old).1]
  refine ⟨fun hr => ?_, fun y hy hassigned hentry hroster r hr => ?_⟩
  · exact bankAdopted_track_fresh img s' hd
      (redefined_of (f := fun o => trackRedefined o img.bank n) rfl (fun _ => trackRedefined_iff) hr)
  · refine bankAdopted_track_kept hd (Bool.eq_false_iff.2 fun hc => ?_) (keptOn_unfallen hy hroster) hr
    rw [hy, trackRedefined_iff] at hc
    exact hc.elim (fun hn => hn hassigned) fun hn => hn hentry

theorem AdoptedInto.levers_redefined {n : Nat} (hd : img.bank.defined .lfu n = true) :
    ((∀ y, s'.bank = some y → leverRedefined (some y) img.bank n = true) → recAt (finish old x).levers n = some {}) ∧
    ∀ y, s'.bank = some y → leverRedefined (some y) img.bank n = false →
      (∀ a ∈ addresses, img.bank.kindAt a = .lfu → n ∈ (img.bank.assignedChannels a).map Prod.snd →
        y.rosterAt a = img.bank.rosterAt a) →
      ∀ l, recAt s'.levers n = some l → ∃ l', recAt (finish old x).levers n = some l' ∧ l'.position = l.position ∧
        l'.catchUp = l.catchUp ∧ l'.violation = l.violation := by
  refine ⟨fun hr => ?_, fun y hy hkept hroster l hl => ?_⟩
  · exact h.lever_fresh old hd (redefined_of (f := fun o => leverRedefined o img.bank n) rfl (fun _ => Iff.rfl) hr)
  · obtain ⟨l', hl', hposition, hcatch, hviolation⟩ :=
      bankAdopted_lever_kept hd (by rw [hy]; exact hkept) (keptOn_unfallen hy hroster) hl
    rw [← h.levers] at hl'
    obtain ⟨l'', hl'', hposition', hcatch', hviolation', -⟩ := (finish_concluded old x).lever hl'
    exact ⟨l'', hl'', hposition'.trans hposition, hcatch'.trans hcatch, hviolation'.trans hviolation⟩

theorem AdoptedInto.lamps_redefined {n : Nat} (hd : img.bank.defined .lu n = true) :
    ((∀ y, s'.bank = some y → y.assignment .lu n ≠ img.bank.assignment .lu n) →
      ∃ r, recAt (finish old x).lamps n = some r ∧ r.state = .unknown ∧ r.last = none ∧ r.current = none) ∧
    ∀ y, s'.bank = some y → y.assignment .lu n = img.bank.assignment .lu n →
      (∀ a ∈ addresses, img.bank.kindAt a = .lu → n ∈ (img.bank.assignedChannels a).map Prod.snd →
        y.rosterAt a = img.bank.rosterAt a) →
      ∀ r, recAt s'.lamps n = some r →
        ∃ r', recAt (finish old x).lamps n = some r' ∧ r'.state = r.state ∧ r'.last = r.last ∧ r'.current = r.current := by
  have hcore : ∀ r, recAt (bankAdopted img s').lamps n = some r →
      ∃ r', recAt (finish old x).lamps n = some r' ∧ r'.state = r.state ∧ r'.last = r.last ∧ r'.current = r.current := by
    intro r hr
    have hmap := h.lamp old (n := n)
    rw [hr] at hmap
    obtain ⟨r', hr', hcore⟩ := Option.map_eq_some_iff.1 hmap
    unfold lampCore at hcore
    injection hcore with hstate hlast hcurrent
    exact ⟨r', hr', hstate, hlast, hcurrent⟩
  refine ⟨fun hr => ?_, fun y hy hassigned hroster r hr => ?_⟩
  · exact hcore {} (bankAdopted_lamp_fresh img s' hd
      (redefined_of (f := fun o => assignmentChanged o img.bank .lu n) rfl (fun _ => assignmentChanged_iff) hr))
  · refine hcore r (bankAdopted_lamp_kept hd (Bool.eq_false_iff.2 fun hc => ?_) (keptOn_unfallen hy hroster) hr)
    rw [hy] at hc
    exact assignmentChanged_iff.1 hc hassigned

end

/-- A section's line starts, its link UP until then, in the words of `Redefined`. -/
theorem losesFar_iff {o : Option Bank} {b : Bank} {s : State} {n : Nat} : losesFar o b s n = true ↔
    (∀ x, o = some x → x.lineSettings (b.sectionEntry n).lineOf ≠ b.lineSettings (b.sectionEntry n).lineOf) ∧
      (s.line (b.sectionEntry n).lineOf).link = .up := by
  unfold losesFar
  rw [Bool.and_eq_true, lineChanged_iff, decide_eq_true_eq]

section
variable {img : BankImage} {s' x : State} (h : AdoptedInto img s' x) (old : State)
include h

theorem AdoptedInto.sections_fresh {n : Nat} (hd : img.bank.defined .iu n = true)
    (hr : sectionRedefined s'.bank img.bank n = true) :
    recAt (finish old x).sections n = some (sectionOnTracks (img.bank.sectionEntry n)
      (trackMove s'.tracks (finish old x).tracks) (newSection (img.bank.sectionEntry n).dir)) ∧
    recAt (finish old x).exchanges n = some {} ∧ ∀ side, recAt ((finish old x).recognisers side) n = some {} := by
  obtain ⟨htracks, hsections, hexchanges, hrecognisers, -⟩ := h.finish_rest old
  rw [htracks, hsections, hexchanges]
  refine ⟨bankAdopted_section_fresh img s' hd hr, bankAdopted_exchange_fresh img s' hd hr, fun side => ?_⟩
  rw [hrecognisers]
  exact bankAdopted_recogniser_fresh img s' side hd hr

theorem AdoptedInto.sections_kept {n : Nat} {y : Bank} (hy : s'.bank = some y) (hd : img.bank.defined .iu n = true)
    (hkept : sectionRedefined s'.bank img.bank n = false) :
    let e := img.bank.sectionEntry n
    let handed := sectionOnTracks e (trackMove s'.tracks (finish old x).tracks)
    let restarted := fun l : Line => ∀ x, s'.bank = some x → x.lineSettings l ≠ img.bank.lineSettings l
    (∀ r, recAt s'.sections n = some r → ∃ r', recAt (finish old x).sections n = some r' ∧
      r' = { handed r with far := r'.far, commutator := r'.commutator } ∧
      (restarted e.lineOf ∧ (s'.line e.lineOf).link = .up → r'.far = .unknown) ∧
      (¬ (restarted e.lineOf ∧ (s'.line e.lineOf).link = .up) → r'.far = r.far) ∧
      (r'.commutator = r.commutator ∨ r'.commutator = .unknown)) ∧
    (∀ z, recAt s'.exchanges n = some z → recAt (finish old x).exchanges n = some z) ∧
    ∀ side g, recAt (s'.recognisers side) n = some g →
      (g.collecting = false → recAt ((finish old x).recognisers side) n = some g) ∧
      (g.collecting = true → y.timing ≠ img.bank.timing → recAt ((finish old x).recognisers side) n = some {}) ∧
      (g.collecting = true → y.timing = img.bank.timing → ∃ i, recAt ((finish old x).recognisers side) n = some { g with invalid := i } ∧
        (i = true ↔ g.invalid = true ∨ (restarted e.lineOf ∧ (s'.line e.lineOf).link = .up))) := by
  intro e handed restarted
  obtain ⟨htracks, hsections, hexchanges, hrecognisers, -⟩ := h.finish_rest old
  have hloses : losesFar s'.bank img.bank s' n = true ↔ restarted e.lineOf ∧ (s'.line e.lineOf).link = .up := losesFar_iff
  rw [hsections, hexchanges]
  refine ⟨fun r hr => ?_, fun z hz => bankAdopted_exchange_kept hd hkept hz, fun side g hg => ?_⟩
  · obtain ⟨r', hr', hform, hlost, hstays, hcommutator⟩ := bankAdopted_section_kept hd hkept hr
    rw [← htracks] at hform
    exact ⟨r', hr', hform, fun hl => hlost (hloses.2 hl), fun hl => hstays (Bool.eq_false_iff.2 fun hc => hl (hloses.1 hc)),
      hcommutator⟩
  · rw [hrecognisers]
    obtain ⟨hidle, hretimed, hsame⟩ := bankAdopted_recogniser_kept hd hkept hg
    have htiming : timingChanged s'.bank img.bank = decide (y.timing ≠ img.bank.timing) := by
      rw [hy]
      rfl
    refine ⟨hidle, fun hc ht => hretimed hc (by simpa [htiming] using ht), fun hc ht => ⟨_, hsame hc (by simp [htiming, ht]), ?_⟩⟩
    rw [Bool.or_eq_true, hloses]

theorem AdoptedInto.lines_redefined (l : Line) :
    ((∀ y, s'.bank = some y → y.lineSettings l ≠ img.bank.lineSettings l) → ∃ own0 own1 rest, (finish old x).line l =
      { settings := some (img.bank.lineSettings l), startSeq := .sendingBreak, queue := .status own0 own1 :: rest,
        statusTimer := some ((finish old x).now.plus ((img.bank.lineSettings l).statusInterval.toNat * 10)) } ∧
      own0 = ownOnChannel (finish old x) img.bank l 0 ∧ own1 = ownOnChannel (finish old x) img.bank l 1 ∧
      ∀ m ∈ rest, ∃ c y, m = .instr c y) ∧
    ∀ y, s'.bank = some y → y.lineSettings l = img.bank.lineSettings l → LineStays (s'.line l) ((finish old x).line l) := by
  refine ⟨fun hc => ?_, fun y hy hsame => ?_⟩
  · obtain ⟨rest, hline, hrest⟩ := h.line old ((lineChanged_iff _ _).2 hc)
    have hown : ∀ ch, ownOnChannel (finish old x) img.bank l ch = ownOnChannel (bankAdopted img s') img.bank l ch := fun ch => by
      unfold ownOnChannel
      rw [(h.finish_rest old).2.1]
    have hnow : (finish old x).now = s'.now := by simp only [finish_same, h.now]
    refine ⟨_, _, rest, ?_, (hown 0).symm, (hown 1).symm, hrest⟩
    rw [hline, hnow]
    rfl
  · have hkept : lineChanged s'.bank img.bank l = false := Bool.eq_false_iff.2 fun hc => (lineChanged_iff _ _).1 hc y hy hsame
    have hline := (finish_concluded old x).line l
    rw [h.lines, bankAdopted_line, if_neg (by simp [hkept])] at hline
    exact hline

theorem AdoptedInto.groups_redefined {i : Nat} (hi : i < 5) :
    ((∀ y, s'.bank = some y → y.groups.getD i 0 ≠ img.bank.groups.getD i 0) →
      (finish old x).groupLive[i]? = some (img.bank.groups.getD i 0).toNat) ∧
    ∀ y, s'.bank = some y → y.groups.getD i 0 = img.bank.groups.getD i 0 →
      (finish old x).groupLive[i]? = some (s'.groupLive.getD i (img.bank.groups.getD i 0).toNat) := by
  rw [(h.finish_rest old).2.2.2.2, bankAdopted_groups]
  unfold groupsAdopted
  rw [List.getElem?_map, List.getElem?_range hi, Option.map_some]
  cases hb : s'.bank with
  | none => exact ⟨fun _ => rfl, nofun⟩
  | some y =>
    refine ⟨fun hc => congrArg some (if_pos (hc y rfl)), fun z hz hsame => congrArg some (if_neg ?_)⟩
    cases hz
    exact not_not.2 hsame

end

/-- The part at the end of the arrival in which a switch completes, clause by clause. -/
theorem redefined_finish {img : BankImage} {o : Option Bank} {s s' x : State} (ho : s.bank = o) (hsame : SameRecords s s')
    (h : AdoptedInto img s' x) (old : State)
    (hmarks : ∀ a, a ∈ x.lossMarks ↔ a ∈ s.lossMarks ∧ entryChanged o img.bank a = false) :
    Redefined o img.bank s (finish old x) := by
  subst ho
  obtain ⟨htracks, hlevers, hsections, hexchanges, hlamps, hgroups⟩ := hsame.rest
  have hundefined := fun n => bankAdopted_undefined img s' (n := n)
  have hnow : (finish old x).now = s'.now := by simp only [finish_same, h.now]
  refine
    { units := fun a ha hk => ⟨fun hc => ?_, fun y hy hroster u hu => ?_⟩
      unlisted := fun a ha => h.unit_none old fun hc => hc.2 ha
      marks := fun a => ?_
      refresh := fun a ha hc => ?_
      undefinedTracks := fun n hn => ?_
      tracks := fun n hd => ?_
      levers := fun n hd => ?_
      sections := fun n hd => ?_
      lamps := fun n hd => ?_
      lines := fun l => ?_
      groups := fun i hi => ?_
      outputs := h.outputs old }
  · exact h.unit_fresh old ha hk (by rw [hsame.bank]; exact entryChanged_iff.2 hc)
  · obtain ⟨v, hv, hstays⟩ := hsame.units.2 a u hu
    obtain ⟨w, hw, hstays'⟩ := h.unit_kept old ha hk (by rw [hsame.bank]; exact entryChanged_false.2 ⟨y, hy, hroster⟩) hv
    exact ⟨w, hw, hstays.trans hstays'⟩
  · simp only [finish_same]
    rw [hmarks, entryChanged_false]
  · rw [h.refreshRuns old ha (by rw [hsame.bank]; exact entryChanged_iff.2 hc), hnow]
  · rw [(h.finish_rest old).1]
    exact (hundefined n).1 hn
  · have hclause := h.tracks_redefined old hd
    rw [hsame.bank, htracks] at hclause
    exact hclause
  · have hclause := h.levers_redefined old hd
    rw [hsame.bank, hlevers] at hclause
    exact ⟨fun hr => hclause.1 fun y hy => leverRedefined_iff.2 (hr y hy),
      fun y hy hr => hclause.2 y hy (Bool.eq_false_iff.2 fun hc => hr (leverRedefined_iff.1 hc))⟩
  · refine ⟨fun hr => ?_, fun y hy hr => ?_⟩
    · have hclause := h.sections_fresh old hd (by
        rw [hsame.bank]
        exact redefined_of (f := fun o => sectionRedefined o img.bank n) rfl (fun _ => sectionRedefined_iff) hr)
      rw [htracks] at hclause
      exact hclause
    · have hclause := h.sections_kept old (hsame.bank.trans hy) hd (by
        rw [hsame.bank, hy]
        exact Bool.eq_false_iff.2 fun hc => hr (sectionRedefined_iff.1 hc))
      simp only [hsame.bank, hsame.lines, hsame.recognisers, htracks, hsections, hexchanges] at hclause
      exact hclause
  · have hclause := h.lamps_redefined old hd
    rw [hsame.bank, hlamps] at hclause
    exact hclause
  · have hclause := h.lines_redefined old l
    rw [hsame.bank, hsame.lines] at hclause
    exact hclause
  · have hclause := h.groups_redefined old hi
    rw [hsame.bank, hgroups] at hclause
    exact hclause

end Sys2Proof.Machine
end

section
/-! PROOF. The two arrivals in which a switch completes: the end of the store operation, and the report after which every lever
stands at NORMAL (R17, R168, R169). -/

namespace Sys2Proof.Machine

/-! ### What a completing switch removes first (R17) -/

section
variable (old : Option Bank) (new : Bank) (s : State)

theorem changedPurged_units : UnitsStay s (changedPurged old new s) := by
  unfold changedPurged
  exact (UnitsStay.of_units rfl).trans (entriesLeave_units _ _)

theorem changedPurged_marks (a : Nat) :
    a ∈ (changedPurged old new s).lossMarks ↔ a ∈ s.lossMarks ∧ entryChanged old new a = false := by
  have hmarks : (changedPurged old new s).lossMarks = s.lossMarks.filter fun a => !entryChanged old new a := by
    unfold changedPurged
    dsimp only
    obtain ⟨q, n, x, p, u, r, h⟩ := entriesLeave_form { s with
      outQueue := s.outQueue.filter fun f => !entryChanged old new f.dest,
      lossMarks := s.lossMarks.filter fun a => !entryChanged old new a,
      refresh := s.refresh.filter fun p => !entryChanged old new p.1,
      restartDue := s.restartDue || s.outQueue.any fun f => entryChanged old new f.dest && f.restart }
      (s.pendingReturns.filter fun p => !entryChanged old new p.dest)
    rw [h]
  rw [hmarks, List.mem_filter]
  simp

end

/-! ### The switch completes (R168) -/

/-- The part as the bank is taken into use. -/
def switching (s : State) : State := { s with check := .unchecked, switchHeld := false }

theorem switchCompleted_eq (img : BankImage) (s : State) : switchCompleted img s =
    raise (alarmsAgree { bankAdopted img (switching s) with part := .running }) .bankSwitched 0 img.bank.edition.toNat := rfl

theorem switchCompleted_adopted (img : BankImage) (s : State) : AdoptedInto img (switching s) (switchCompleted img s) := by
  rw [switchCompleted_eq]
  have hactive : (bankAdopted img (switching s)).active = some img := bankAdopted_active img _
  have hnow : (bankAdopted img (switching s)).now = (switching s).now := by simp
  generalize hy : bankAdopted img (switching s) = y at hactive hnow
  have hlamps : cores lampCore (alarmsAgree { y with part := .running }).lamps = cores lampCore y.lamps := by
    obtain ⟨l, ⟨_, _, _, _, _, hform⟩, hcore⟩ := alarmsAgree_judged { y with part := .running }
    rw [hform]
    exact hcore
  refine
    { now := by simp [hnow]
      active := by simp [hactive]
      units := by simp [hy]
      refresh := by simp [hy]
      levers := by simp [hy]
      lines := fun l => ?_
      lamps := by
        simp only [raise_same, hy]
        exact hlamps
      rest := ⟨by simp [hy], by simp [hy], by simp [hy], fun z => by cases z <;> simp [State.recognisers, hy], by simp [hy]⟩ }
  rw [raise_line, hy]
  exact State.line_of _ _ (by simp) (by simp) l

theorem switchCompleted_marks (img : BankImage) (s : State) : (switchCompleted img s).lossMarks = s.lossMarks := by simp

/-- The state in which a store operation that has ended takes the new bank into use. -/
def storeSwitching (s : State) (img : BankImage) : State :=
  changedPurged s.bank img.bank { s with stored := img, storeOp := none }

theorem storeSwitching_records (s : State) (img : BankImage) : SameRecords s (switching (storeSwitching s img)) where
  bank := State.bank_of _ _ (by simp [switching, storeSwitching])
  units := ((UnitsStay.of_units rfl).trans (changedPurged_units s.bank img.bank { s with stored := img, storeOp := none })).trans
    (.of_units rfl)
  lines := State.line_of _ _ (by simp [switching, storeSwitching]) (by simp [switching, storeSwitching])
  recognisers y := by cases y <;> simp [State.recognisers, switching, storeSwitching]
  rest := by simp [switching, storeSwitching]

/-- The records of a state are those that stand as the time passes. -/
theorem SameRecords.advance {s s' : State} {dt : Time} (h : SameRecords (s.advance dt) s') : SameRecords s s' where
  bank := h.bank.trans (by simp)
  units := (UnitsStay.of_units (by simp)).trans h.units
  lines l := (h.lines l).trans (State.line_of _ _ (by simp) (by simp) l)
  recognisers y := (h.recognisers y).trans (by cases y <;> simp [State.recognisers])
  rest := by simpa using h.rest

/-- The end of the store operation with every lever at NORMAL completes the switch (R168). -/
theorem storeOperation_redefines (dt : Time) (s : State) (img : BankImage) (hs : s.inReset = false) (hop : s.storeOp = some img)
    (hp : s.part = .switching) (hnormal : ∀ p ∈ s.levers, p.2.position = .normal) :
    ∃ t, exec (.storeOperationEnd dt true) s = .next t ∧ t.part = .running ∧ t.active = some img ∧
      Redefined s.bank img.bank s t := by
  have hadvanced : (s.advance dt).storeOp = some img := by simpa using hop
  have hlevers : (s.advance dt).levers = s.levers := by simp
  have hended : storeEnded img (s.advance dt) = switchCompleted img (storeSwitching (s.advance dt) img) :=
    storeEnded_normal (by simpa using hp) (leverAway_none (hlevers ▸ hnormal)) img
  obtain ⟨hactive, hrunning, -, -⟩ := switchCompleted_fields img (storeSwitching (s.advance dt) img)
  have hsteady := (finish_concluded (s.advance dt) _).steady (x := switchCompleted img (storeSwitching (s.advance dt) img))
    (by rw [hrunning]; exact PartState.noConfusion)
  refine ⟨finish (s.advance dt) (switchCompleted img (storeSwitching (s.advance dt) img)), ?_, hsteady.1.trans hrunning, ?_, ?_⟩
  · rw [exec_storeEnd hs, storeEnds, hadvanced, ← hended]
    rfl
  · simp only [finish_same]
    exact hactive
  · refine redefined_finish rfl (storeSwitching_records _ img).advance (switchCompleted_adopted img _) _ fun a => ?_
    rw [switchCompleted_marks, storeSwitching, changedPurged_marks]
    simp

/-! ### The report after which every lever stands at NORMAL (R168) -/

/-- A held switch whose last levers away from NORMAL are those of a report that puts them there, without a trip. -/
structure LeversHome (s : State) (b : Bank) (f : Frame) : Prop where
  switching : s.part = .switching
  held : s.switchHeld = true
  once : ((b.assignedChannels (srcOf f)).map Prod.snd).Nodup
  fits : ∀ p ∈ s.levers, leverFits p.2
  home : ∀ c ∈ b.assignedChannels (srcOf f), reportedPosition f.payload c.1 = .normal
  others : ∀ p ∈ s.levers, p.1 ∉ (b.assignedChannels (srcOf f)).map Prod.snd → p.2.position = .normal
  single : ∀ n l, n ∈ (b.assignedChannels (srcOf f)).map Prod.snd → recAt s.levers n = some l → leavesLocked l .normal = true →
    (∀ m k, m ∈ (b.assignedChannels (srcOf f)).map Prod.snd → recAt s.levers m = some k → leavesLocked k .normal = true → m = n) ∧
    ∀ p ∈ s.levers, p.1 ≠ n → p.2.violation = false

theorem recAt_of_mem {α : Type} {r : Recs α} {p : Nat × α} (h : p ∈ r) : ∃ x, recAt r p.1 = some x := by
  induction r with
  | nil => cases h
  | cons q r ih =>
    by_cases hq : q.1 = p.1
    · exact ⟨q.2, by rw [recAt_cons, if_pos hq]⟩
    · rcases List.mem_cons.1 h with rfl | h
      · exact absurd rfl hq
      · rw [recAt_cons, if_neg hq]
        exact ih h

section
variable {s : State} {b : Bank} {f : Frame}

theorem LeversHome.same (h : LeversHome s b f) {t : State} (hl : t.levers = s.levers) (hp : t.part = s.part)
    (hh : t.switchHeld = s.switchHeld) : LeversHome t b f :=
  ⟨hp.trans h.switching, hh.trans h.held, h.once, hl ▸ h.fits, h.home, hl ▸ h.others, hl ▸ h.single⟩

theorem mem_violatedHome (h : LeversHome s b f) {n : Nat} : n ∈ violatedBy (leverOutcomes s b (srcOf f) f.payload) ↔
    n ∈ (b.assignedChannels (srcOf f)).map Prod.snd ∧ ∃ l, recAt s.levers n = some l ∧ leavesLocked l .normal = true := by
  rw [mem_violatedBy h.fits]
  constructor
  · rintro ⟨ch, l, hm, hl, hv⟩
    rw [h.home _ hm] at hv
    exact ⟨List.mem_map.2 ⟨_, hm, rfl⟩, l, hl, hv⟩
  · rintro ⟨hn, l, hl, hv⟩
    obtain ⟨⟨ch, m⟩, hm, rfl⟩ := List.mem_map.1 hn
    exact ⟨ch, l, hm, hl, by rw [h.home _ hm]; exact hv⟩

theorem LeversHome.noTrip (h : LeversHome s b f) :
    multiViolation s.levers (violatedBy (leverOutcomes s b (srcOf f) f.payload)) = none := by
  have hviolated := fun n => mem_violatedHome h (n := n)
  have hnodup : (violatedBy (leverOutcomes s b (srcOf f) f.payload)).Nodup := by
    refine (leverOutcomes_nodup h.once s f.payload).sublist ?_
    unfold violatedBy
    generalize leverOutcomes s b (srcOf f) f.payload = os
    induction os with
    | nil => exact List.Sublist.slnil
    | cons o os ih =>
      rw [List.filterMap_cons]
      split
      · exact ih.cons _
      · next ho =>
        split at ho
        · cases ho
          exact ih.cons_cons _
        · cases ho
  generalize violatedBy (leverOutcomes s b (srcOf f) f.payload) = vs at hviolated hnodup
  unfold multiViolation
  cases hmin : vs.min? with
  | none => rfl
  | some n =>
    have hn : n ∈ vs := List.min?_mem hmin
    obtain ⟨hmem, l, hl, hv⟩ := (hviolated n).1 hn
    obtain ⟨hunique, hflags⟩ := h.single n l hmem hl hv
    have hlength : vs.length ≤ 1 := by
      have hall : vs = List.replicate vs.length n := List.eq_replicate_of_mem fun m hm => by
        obtain ⟨hmem', k, hk, hvk⟩ := (hviolated m).1 hm
        exact hunique m k hmem' hk hvk
      rw [hall] at hnodup
      exact List.nodup_replicate.1 hnodup
    dsimp only
    rw [if_neg]
    rw [Bool.or_eq_true, not_or]
    refine ⟨by simpa using hlength, ?_⟩
    rw [List.any_eq_true]
    rintro ⟨p, hp, hcond⟩
    rw [Bool.and_eq_true, decide_eq_true_eq] at hcond
    exact Bool.false_ne_true ((hflags p hp hcond.1).symm.trans hcond.2)

theorem leversWritten_all {P : LeverRec → Prop} {os : List (Nat × LeverOutcome)} (ho : ∀ o ∈ os, P o.2.record) (s : State)
    (hs : ∀ p ∈ s.levers, p.1 ∉ os.map Prod.fst → P p.2) : ∀ p ∈ (leversWritten os s).levers, P p.2 := by
  induction os generalizing s with
  | nil => exact fun p hp => hs p hp List.not_mem_nil
  | cons o os ih =>
    refine ih (fun x hx => ho x (List.mem_cons_of_mem _ hx)) (modifyLever s o.1 fun _ => o.2.record) fun p hp hn => ?_
    obtain ⟨q, hq, hpq⟩ := List.mem_map.1 hp
    dsimp only at hpq
    split at hpq
    · subst hpq
      exact ho o List.mem_cons_self
    · next hne =>
      subst hpq
      refine hs q hq ?_
      rw [List.map_cons, List.mem_cons, not_or]
      exact ⟨hne, hn⟩

theorem LeversHome.completes (h : LeversHome s b f) :
    heldCompletes (leversWritten (leverOutcomes s b (srcOf f) f.payload) s) = true := by
  have hall : ∀ p ∈ (leversWritten (leverOutcomes s b (srcOf f) f.payload) s).levers, p.2.position = .normal := by
    refine leversWritten_all (P := fun l => l.position = .normal) (fun o ho => ?_) s fun p hp hn => ?_
    · obtain ⟨n, o⟩ := o
      obtain ⟨ch, l, hm, -, rfl⟩ := mem_leverOutcomes.1 ho
      exact (leverTakes_position s _ _ (reportedPosition_known _ _)).1.trans (h.home _ hm)
    · refine h.others p hp fun hc => hn ?_
      obtain ⟨⟨ch, m⟩, hm, hpm⟩ := List.mem_map.1 hc
      dsimp only at hpm
      subst hpm
      obtain ⟨l, hl⟩ : ∃ l, recAt s.levers p.1 = some l := recAt_of_mem hp
      exact List.mem_map.2 ⟨_, mem_leverOutcomes.2 ⟨ch, l, hm, hl, rfl⟩, rfl⟩
  unfold heldCompletes
  rw [leverAway_none hall]
  simp [h.switching, h.held]

/-- The report takes the stored bank into use on the levers that it leaves. -/
theorem LeversHome.taken (h : LeversHome s b f) : leversTaken b (srcOf f) f.payload s =
    .changed (switchCompleted s.stored (raiseAll (leversWritten (leverOutcomes s b (srcOf f) f.payload) s)
      (leverEvents (leverOutcomes s b (srcOf f) f.payload)))) [] := by
  unfold leversTaken
  simp only [h.noTrip, h.completes, if_true]

/-- Each lever stands at NORMAL after the report, with its flag set where it stood or the report violates it (R71, R80). -/
theorem LeversHome.lever (h : LeversHome s b f) {n : Nat} {l : LeverRec} (hl : recAt s.levers n = some l) :
    ∃ l', recAt (leversWritten (leverOutcomes s b (srcOf f) f.payload) s).levers n = some l' ∧ l'.position = .normal ∧
      (l'.violation = true ↔ l.violation = true ∨ (n ∈ (b.assignedChannels (srcOf f)).map Prod.snd ∧
        ∃ k, recAt s.levers n = some k ∧ leavesLocked k .normal = true)) := by
  have hmem := recAt_mem hl
  by_cases hn : n ∈ (b.assignedChannels (srcOf f)).map Prod.snd
  · obtain ⟨⟨ch, m⟩, hm, rfl⟩ := List.mem_map.1 hn
    have ho : (m, outcomeOf s b f.payload ch m l) ∈ leverOutcomes s b (srcOf f) f.payload :=
      mem_leverOutcomes.2 ⟨ch, l, hm, hl, rfl⟩
    refine ⟨_, leversWritten_self (leverOutcomes_nodup h.once s f.payload) ho hl, 
      (leverTakes_position s _ _ (reportedPosition_known _ _)).1.trans (h.home _ hm), ?_⟩
    unfold outcomeOf
    rw [leverTakes_violation (h.fits _ hmem), h.home _ hm, Bool.or_eq_true]
    constructor
    · exact Or.imp_right fun hv => ⟨hn, l, hl, hv⟩
    · refine Or.imp_right ?_
      rintro ⟨-, k, hk, hv⟩
      cases hl.symm.trans hk
      exact hv
  · refine ⟨l, (leversWritten_other ?_ s).trans hl, h.others _ hmem hn, ?_⟩
    · intro hc
      obtain ⟨⟨m, o⟩, ho, rfl⟩ := List.mem_map.1 hc
      obtain ⟨ch, k, hm, -, -⟩ := mem_leverOutcomes.1 ho
      exact hn (List.mem_map.2 ⟨_, hm, rfl⟩)
    · exact ⟨.inl, fun hc => hc.elim id fun hc => absurd hc.1 hn⟩

/-- The state in which the completing report is taken: what the switch removes is removed, the loop has heard the frame, and the
unit's report timer runs afresh (R15, R17, R27). -/
def homeCounted (s : State) (b : Bank) (f : Frame) (dt : Time) : State :=
  reportCounted (loopHeard (changedPurged (some b) s.stored.bank (s.advance dt))) b (srcOf f)

/-- The part as the report has written its levers and told its events. -/
def homeWritten (s : State) (b : Bank) (f : Frame) (dt : Time) : State :=
  let os := leverOutcomes (homeCounted s b f dt) b (srcOf f) f.payload
  raiseAll (leversWritten os (homeCounted s b f dt)) (leverEvents os)

theorem homeCounted_fields (dt : Time) : (homeCounted s b f dt).levers = s.levers ∧ (homeCounted s b f dt).part = s.part ∧
    (homeCounted s b f dt).switchHeld = s.switchHeld ∧ (homeCounted s b f dt).stored = s.stored ∧
    (homeCounted s b f dt).active = s.active := by
  unfold homeCounted reportCounted modifyUnit
  simp

section
variable {u : UnitRec} (h : Counted s b .lfu 8 f u) (hhome : LeversHome s b f) (dt : Time)
include h hhome

theorem completesHeld_home : completesHeld (s.advance dt) 8 f = true := by
  have hdue : LeversHome (s.advance dt) b f := hhome.same (by simp) (by simp) (by simp)
  obtain ⟨-, hsrc, hd⟩ := wfFromUnit_valid h.formed
  have hactive : (s.advance dt).unitActive (srcOf f) = true := by
    unfold State.unitActive
    simp [h.unit, h.active]
  unfold completesHeld
  simp only [advance_bank, h.bank, hdue.noTrip, hdue.completes, hactive, hd, h.rostered]
  simpa using hsrc

theorem exec_leverReport_home : exec (.leverReport dt f) s =
    .next (finish (s.advance dt) (switchCompleted s.stored (homeWritten s b f dt))) := by
  obtain ⟨hv, hsrc, hd⟩ := wfFromUnit_valid h.formed
  set purged := changedPurged (some b) s.stored.bank (s.advance dt) with hpurged
  have hfor : purgedFor (s.advance dt) 8 f = purged := by
    unfold purgedFor
    rw [if_pos (completesHeld_home h hhome dt), advance_bank, h.bank, hpurged]
    simp
  have hu : recAt (loopHeard purged).units (srcOf f) = some u := by
    obtain ⟨v, hv', hstays⟩ := (changedPurged_units (some b) s.stored.bank (s.advance dt)).2 (srcOf f) u (by simpa using h.unit)
    unfold UnitStays at hstays
    rw [h.active] at hstays
    rw [← hstays]
    simpa using hv'
  have hbank : (loopHeard purged).bank = some b := by
    rw [loopHeard_bank]
    exact (State.bank_of _ _ (by simp [hpurged])).trans h.bank
  obtain ⟨hlevers, hpart, hheld, hstored, -⟩ := homeCounted_fields (s := s) (b := b) (f := f) dt
  change Host.Outcome.next (frameArrival s dt 8 f) = _
  rw [frameArrival, arrival_awake h.awake, frameArrives, if_pos hv, hfor, frameTreated, if_neg hsrc, if_neg (by simp [hd])]
  simp only [hbank]
  rw [if_neg (by rw [h.rostered]; decide), if_neg (by decide), if_neg (by decide), h.rostered, if_pos (by decide), reportArrives]
  simp only [hu, h.active, h.rostered]
  have htaken := (hhome.same hlevers hpart hheld).taken
  rw [hstored] at htaken
  have hreport : reportTaken b (srcOf f) .lfu f.payload (homeCounted s b f dt) =
      .changed (switchCompleted s.stored (homeWritten s b f dt)) [] := htaken
  change Host.Outcome.next (concluded (s.advance dt) (reportTaken b (srcOf f) .lfu f.payload (homeCounted s b f dt))) = _
  rw [hreport]
  rfl

omit hhome in
theorem homeWritten_records : SameRecords
    { s with
      levers := (leversWritten (leverOutcomes (homeCounted s b f dt) b (srcOf f) f.payload) (homeCounted s b f dt)).levers,
      units := modifyRec s.units (srcOf f) fun v =>
        { v with report := some ((s.now + dt).plus ((b.rosterAt (srcOf f)).timeout.toNat * 10)) } }
    (switching (homeWritten s b f dt)) := by
  set purged := changedPurged (some b) s.stored.bank (s.advance dt) with hpurged
  have hcounted : homeCounted s b f dt = { loopHeard purged with
      units := modifyRec purged.units (srcOf f) fun v =>
        { v with report := some ((s.now + dt).plus ((b.rosterAt (srcOf f)).timeout.toNat * 10)) } } := by
    simp [homeCounted, reportCounted, modifyUnit, State.after, reportTimeout, ← hpurged]
    simp [hpurged]
  have hpurge : UnitsStay s purged := (UnitsStay.of_units (by simp)).trans (changedPurged_units (some b) s.stored.bank (s.advance dt))
  have hunit : recAt purged.units (srcOf f) = some u := by
    obtain ⟨v, hv, hstays⟩ := hpurge.2 (srcOf f) u h.unit
    unfold UnitStays at hstays
    rw [h.active] at hstays
    rw [← hstays]
    exact hv
  have hunits : (switching (homeWritten s b f dt)).units = (homeCounted s b f dt).units := by
    simp [switching, homeWritten]
  refine
    { bank := State.bank_of _ _ (by simp [switching, homeWritten, (homeCounted_fields dt).2.2.2.2])
      units := ⟨?_, fun a v hv => ?_⟩
      lines := State.line_of _ _ (by simp [switching, homeWritten, hcounted, hpurged]) (by simp [switching, homeWritten, hcounted, hpurged])
      recognisers := fun y => by cases y <;> simp [State.recognisers, switching, homeWritten, hcounted, hpurged]
      rest := ?_ }
  · rw [hunits, hcounted]
    dsimp only
    rw [modifyRec_numbers, modifyRec_numbers, hpurge.1]
  · dsimp only at hv
    rw [hunits, hcounted]
    dsimp only
    rw [recAt_modifyRec] at hv ⊢
    by_cases ha : a = srcOf f
    · subst ha
      rw [if_pos rfl, h.unit] at hv
      rw [if_pos rfl, hunit]
      exact ⟨v, hv, .refl v⟩
    · rw [if_neg ha] at hv ⊢
      exact hpurge.2 a v hv
  · simp [switching, homeWritten]
    simp [hcounted, hpurged]

end

end

/-- Settles O53, by the arrival in which the switch completes: the end of the store operation, or the report that brings the last
lever to NORMAL. -/
theorem switchRedefines : Obligations.SwitchRedefines := by
  unfold Obligations.SwitchRedefines
  refine ⟨storeOperation_redefines, ?_⟩
  intro dt f s b u h hpart hheld honce hfits violated hnormal hsingle hothers
  have hhome : LeversHome s b f := ⟨hpart, hheld, honce, hfits, hnormal, hothers,
    fun n l hn hl hv => (hsingle n ⟨hn, l, hl, hv⟩).imp (fun hu m k hm hk hvk => hu m ⟨hm, k, hk, hvk⟩) id⟩
  obtain ⟨hlevers, hpart', hheld', hstored, -⟩ := homeCounted_fields (s := s) (b := b) (f := f) dt
  obtain ⟨hactive, hrunning, hcheck, hunheld⟩ := switchCompleted_fields s.stored (homeWritten s b f dt)
  have hsteady := (finish_concluded (s.advance dt) (switchCompleted s.stored (homeWritten s b f dt))).steady
    (by rw [hrunning]; exact PartState.noConfusion)
  refine ⟨_, (leversWritten (leverOutcomes (homeCounted s b f dt) b (srcOf f) f.payload) (homeCounted s b f dt)).levers,
    exec_leverReport_home h hhome dt, hsteady.1.trans hrunning, ?_, ?_, ?_, ?_, fun n l hl => ?_, ?_⟩
  · simp only [finish_same]
    exact hactive
  · simp [homeWritten, hstored]
  · simp only [finish_same]
    exact hunheld
  · simp only [finish_same]
    exact hcheck
  · have hlever := (hhome.same hlevers hpart' hheld').lever (n := n) (l := l) (by rw [hlevers]; exact hl)
    rw [hlevers] at hlever
    exact hlever
  · refine redefined_finish ?_ (homeWritten_records h dt) (switchCompleted_adopted s.stored (homeWritten s b f dt)) _ fun a => ?_
    · exact h.bank
    have hmarks : (homeWritten s b f dt).lossMarks = (changedPurged (some b) s.stored.bank (s.advance dt)).lossMarks := by
      unfold homeWritten homeCounted reportCounted modifyUnit
      simp
    rw [switchCompleted_marks, hmarks, changedPurged_marks]
    simp

end Sys2Proof.Machine
end

section
/-! PROOF. The contents of the commands that carry state (R20, R74, R144, R157). -/

namespace Sys2Proof.Machine

/-! ### LOCK_SET (R74) -/

theorem assignedChannels_sorted (b : Bank) (a : Nat) (p : Nat × Nat → Bool) :
    (((b.assignedChannels a).filter p).map Prod.fst).SortedLT := by
  have hsub : (((b.assignedChannels a).filter p).map Prod.fst).Sublist (List.range' 0 (b.channelObjects a).length) := by
    refine List.Sublist.trans (List.filter_sublist.map Prod.fst) ?_
    unfold Bank.assignedChannels
    refine List.Sublist.trans (List.filter_sublist.map Prod.fst) ?_
    rw [List.map_map]
    have hfst : (Prod.fst ∘ fun q : Nat × Nat => (q.2, q.1)) = Prod.snd := rfl
    rw [hfst, List.zipIdx_map_snd]
  exact (List.Pairwise.sublist hsub List.pairwise_lt_range').sortedLT

/-- A sum of powers of two has the bits of its exponents. -/
theorem testBit_sum_two_pow {l : List Nat} (h : l.SortedLT) (i : Nat) : (l.map fun c => 2 ^ c).sum.testBit i = decide (i ∈ l) := by
  have hbits : i ∈ (l.map fun c => 2 ^ c).sum.bitIndices ↔ i ∈ l := by rw [Nat.bitIndices_sum_map_two_pow h]
  rw [Nat.mem_bitIndices] at hbits
  rw [Bool.eq_iff_iff, hbits, decide_eq_true_eq]

theorem lockPayload_bit (s : State) (b : Bank) (a : Nat) {ch : Nat} (hch : ch < 8) :
    ∃ x : Byte, lockPayload s b a = [x] ∧
      (x.getLsbD ch = true ↔ ∃ n l, (ch, n) ∈ b.assignedChannels a ∧ recAt s.levers n = some l ∧ l.lock = .free) := by
  refine ⟨_, rfl, ?_⟩
  rw [b1, BitVec.getLsbD_ofNat]
  have hmap : ∀ l : List (Nat × Nat), (l.map fun p => 2 ^ p.1) = (l.map Prod.fst).map fun c => 2 ^ c := fun l => by
    rw [List.map_map]
    rfl
  rw [hmap, testBit_sum_two_pow (assignedChannels_sorted b a _)]
  simp only [hch, decide_true, Bool.true_and, decide_eq_true_eq, List.mem_map, List.mem_filter]
  constructor
  · rintro ⟨⟨c, n⟩, ⟨hm, hfree⟩, rfl⟩
    dsimp only at hfree
    split at hfree
    · next l hl => exact ⟨n, l, hm, hl, by simpa using hfree⟩
    · cases hfree
  · rintro ⟨n, l, hm, hl, hfree⟩
    exact ⟨(ch, n), ⟨hm, by simp [hl, hfree]⟩, rfl⟩

/-! ### REPEATER_SET and DIAGRAM_SET (R20, R144, R157) -/

/-- The object of an assigned channel, and none of an unassigned one (R20). -/
theorem channelObjects_assigned {b : Bank} {a ch n : Nat} (h : (ch, n) ∈ b.assignedChannels a) :
    (b.channelObjects a).getD ch 0 = n := by
  rw [List.getD_eq_getElem?_getD, (assignedChannels_mem.1 h).1]
  rfl

theorem channelObjects_unassigned {b : Bank} {a ch : Nat} (h : ch ∉ (b.assignedChannels a).map Prod.fst) :
    (b.channelObjects a).getD ch 0 = 0 := by
  rw [List.getD_eq_getElem?_getD]
  cases hget : (b.channelObjects a)[ch]? with
  | none => rfl
  | some n =>
    by_contra hn
    exact h (List.mem_map.2 ⟨(ch, n), assignedChannels_mem.2 ⟨hget, hn⟩, rfl⟩)

theorem b1_toNat {n : Nat} (h : n < 256) : (b1 n).toNat = n := by
  unfold b1
  rw [BitVec.toNat_ofNat]
  exact Nat.mod_eq_of_lt h

theorem repeaterBytes_eq (s : State) (n : Nat) : ∃ x y : Byte, repeaterBytes s n = [x, y] ∧
    (∀ r, recAt s.sections n = some r → x.toNat % 16 = r.far.code ∧ x.toNat / 16 = r.own.code ∧ y.getLsbD 0 = r.disagreement ∧
      (y.getLsbD 1 = true ↔ ∃ z, recAt s.exchanges n = some z ∧ z.origin.isSome = true ∧
        (z.status = .awaiting ∨ z.status = .misrepeated))) ∧
    (recAt s.sections n = none → x = 0x10 ∧ y = 0) := by
  unfold repeaterBytes
  cases hr : recAt s.sections n with
  | none => exact ⟨_, _, rfl, nofun, fun _ => ⟨rfl, rfl⟩⟩
  | some r =>
    refine ⟨_, _, rfl, fun r' hr' => ?_, nofun⟩
    cases hr'
    have hcode : ∀ i : Instrument, i.code < 4 := fun i => by cases i <;> decide
    have hfar := hcode r.far
    have hown := hcode r.own
    have hlamp : (((recAt s.exchanges n).map awaitingLamp).getD false = true) ↔ ∃ z, recAt s.exchanges n = some z ∧
        z.origin.isSome = true ∧ (z.status = .awaiting ∨ z.status = .misrepeated) := by
      cases recAt s.exchanges n with
      | none => simp
      | some z => simp [awaitingLamp]
    refine ⟨?_, ?_, ?_, ?_⟩
    · rw [b1_toNat (by omega)]
      omega
    · rw [b1_toNat (by omega)]
      omega
    · generalize ((recAt s.exchanges n).map awaitingLamp).getD false = lamp
      cases r.disagreement <;> cases lamp <;> rfl
    · rw [← hlamp]
      generalize ((recAt s.exchanges n).map awaitingLamp).getD false = lamp
      cases r.disagreement <;> cases lamp <;> decide

theorem diagramByte_eq {s : State} {b : Bank} {n : Nat} {m : Mode} (h : recAt s.outputs n = some m) :
    (diagramByte s b n).toNat / 16 = m.code ∧
      (diagramByte s b n).toNat % 16 = groupIntensity s (b.diagramEntry n).group.toNat % 16 := by
  have hcode : m.code < 4 := by cases m <;> decide
  unfold diagramByte
  rw [h]
  dsimp only
  rw [b1_toNat (by omega)]
  omega

/-- The first part of O30: what each command carries. -/
theorem stateCommand_contents (s : State) (b : Bank) (a : Nat) :
    (b.kindAt a = .lfu → ∃ x : Byte, stateCommand s b a = some { kind := .lockSet, dest := a, payload := [x] } ∧
      ∀ ch, ch < 8 → (x.getLsbD ch = true ↔ ∃ n l, (ch, n) ∈ b.assignedChannels a ∧ recAt s.levers n = some l ∧ l.lock = .free)) ∧
    (b.kindAt a = .iu →
      ∃ x0 y0 x1 y1 : Byte, stateCommand s b a = some { kind := .repeaterSet, dest := a, payload := [x0, y0, x1, y1] } ∧
      ∀ ch x y, (ch, x, y) ∈ [(0, x0, y0), (1, x1, y1)] →
        (∀ n r, (ch, n) ∈ b.assignedChannels a → recAt s.sections n = some r →
          x.toNat % 16 = r.far.code ∧ x.toNat / 16 = r.own.code ∧ y.getLsbD 0 = r.disagreement ∧
          (y.getLsbD 1 = true ↔ ∃ z, recAt s.exchanges n = some z ∧ z.origin.isSome = true ∧
            (z.status = .awaiting ∨ z.status = .misrepeated))) ∧
        (ch ∉ (b.assignedChannels a).map Prod.fst → recAt s.sections 0 = none → x = 0x10 ∧ y = 0)) ∧
    (b.kindAt a = .du → ∃ p, stateCommand s b a = some { kind := .diagramSet, dest := a, payload := p } ∧ p.length = 16 ∧
      (∀ ch n m, (ch, n) ∈ b.assignedChannels a → recAt s.outputs n = some m →
        ∃ x, p[ch]? = some x ∧ x.toNat / 16 = m.code ∧
          x.toNat % 16 = groupIntensity s (b.diagramEntry n).group.toNat % 16) ∧
      ∀ ch, ch < 16 → ch ∉ (b.assignedChannels a).map Prod.fst → recAt s.outputs 0 = none → p[ch]? = some 0) := by
  unfold stateCommand
  refine ⟨fun hk => ?_, fun hk => ?_, fun hk => ?_⟩
  · refine ⟨_, by rw [hk]; rfl, fun ch hch => ?_⟩
    obtain ⟨x, hx, hbit⟩ := lockPayload_bit s b a hch
    cases hx
    exact hbit
  · obtain ⟨x0, y0, h0, hsome0, hnone0⟩ := repeaterBytes_eq s ((b.channelObjects a).getD 0 0)
    obtain ⟨x1, y1, h1, hsome1, hnone1⟩ := repeaterBytes_eq s ((b.channelObjects a).getD 1 0)
    have hpayload : repeaterPayload s b a = [x0, y0, x1, y1] := by
      unfold repeaterPayload
      simp only [List.map_cons, List.map_nil, h0, h1]
      rfl
    refine ⟨x0, y0, x1, y1, by rw [hk, hpayload], fun ch x y hm => ?_⟩
    rcases List.mem_cons.1 hm with hm | hm
    · cases hm
      refine ⟨fun n r hn hr => ?_,
        fun hn hr => hnone0 (by rw [channelObjects_unassigned hn]; exact hr)⟩
      rw [channelObjects_assigned hn] at hsome0
      exact hsome0 r hr
    · cases List.mem_singleton.1 hm
      refine ⟨fun n r hn hr => ?_,
        fun hn hr => hnone1 (by rw [channelObjects_unassigned hn]; exact hr)⟩
      rw [channelObjects_assigned hn] at hsome1
      exact hsome1 r hr
  · have hget : ∀ ch, ch < 16 → (diagramPayload s b a)[ch]? = some (diagramByte s b ((b.channelObjects a).getD ch 0)) := by
      intro ch hch
      unfold diagramPayload
      rw [List.getElem?_map, List.getElem?_range hch, Option.map_some]
    refine ⟨_, by rw [hk], by simp [diagramPayload], fun ch n m hn hm => ?_, fun ch hch hn hm => ?_⟩
    · have hch : ch < 16 := by
        have hlt := assignedChannels_lt hn
        rw [hk] at hlt
        exact hlt
      exact ⟨_, (hget ch hch).trans (by rw [channelObjects_assigned hn]), diagramByte_eq hm⟩
    · rw [hget ch hch, channelObjects_unassigned hn]
      unfold diagramByte
      rw [hm]

end Sys2Proof.Machine
end

section
/-! PROOF. The commands that an arrival's changes place come on their way where the outbound queue has room (R8, R10, R11, R17, R73,
R74, R144, R157, R176). -/

namespace Sys2Proof.Machine

/-! ### The end of an arrival outside STARTING -/

theorem finish_steady {s : State} (h : s.part ≠ .starting) (old : State) :
    finish old s = arbiters (settle old (leverReadings [] s) (concludeLevers [] s)) := by
  have hread : (concludeLevers [] s).part = s.part := by simp
  have hbegun : startingChecked (concludeLevers [] s) = concludeLevers [] s := startingChecked_of_part _ (by rwa [hread])
  have hreadings : readingsWith [] s = leverReadings [] s := by
    unfold readingsWith
    exact if_pos (congrArg State.part hbegun)
  have hended : ∀ x : State, x.part = s.part → startingEnded x = x := by
    intro x hx
    unfold startingEnded
    exact if_pos (congrArg State.part (startingChecked_of_part x (by rwa [hx])))
  unfold finish finishWith
  dsimp only
  rw [hreadings]
  refine congrArg arbiters ((hended _ ?_).trans rfl)
  simp only [(settle_settled _ _ _).same, (settlePass_settled _ _).same]
  exact hread

/-! ### What waits in the outbound queue -/

/-- The frames of the outbound queue, and the notice that the next event may bring (R178, R179). -/
def backlog (s : State) : Nat := s.outQueue.length + if s.events = [] then 1 else 0

/-- The transmitter takes up sending, and does not lay it down. -/
def Taken (s t : State) : Prop := t.sending = none → s.sending = none

theorem arbiter_taken (s : State) : Taken s (arbiter s) ∧ backlog (arbiter s) ≤ backlog s := by
  unfold arbiter
  split
  · next hfree =>
    split
    · next f rest hf =>
      obtain ⟨u, r, hform⟩ := takeFrame_form s f rest
      have hlength := takeMostUrgent_length hf
      rw [hform]
      refine ⟨nofun, ?_⟩
      unfold backlog
      dsimp only
      omega
    · exact ⟨id, le_refl _⟩
  · exact ⟨id, le_refl _⟩

theorem queueJoined_taken (s : State) (q : List OutFrame) : Taken s (queueJoined s q) ∧
    backlog (queueJoined s q) ≤ q.length + if s.events = [] then 1 else 0 := by
  unfold queueJoined
  dsimp only
  split
  · exact arbiter_taken { s with outQueue := q }
  · exact ⟨id, le_refl _⟩

theorem joined_ne_nil (q : List Event) (e : Event) : joined q e ≠ [] := by
  unfold joined
  split
  · simp
  · intro h
    have hmarked : ∀ es : List Event, markGap es = [] → es = [] := fun es hes => by
      cases es with
      | nil => rfl
      | cons x es => cases hes
    simpa using hmarked _ h

theorem raise_taken (s : State) (k : EventKind) (o d : Nat) : Taken s (raise s k o d) ∧ backlog (raise s k o d) ≤ backlog s := by
  have hjoined : (joinEvent s k o d).events ≠ [] := joined_ne_nil _ _
  have hplain : backlog (joinEvent s k o d) ≤ backlog s := by
    unfold backlog
    rw [if_neg hjoined]
    exact Nat.le_add_right _ _
  unfold raise
  dsimp only
  split
  · next hempty =>
    split
    · next a _ =>
      have hnotice : backlog (joinEvent s k o d) + 1 ≤ backlog s := by
        unfold backlog
        rw [if_neg hjoined, if_pos (List.isEmpty_iff.1 hempty)]
        exact le_refl _
      unfold placeNotice
      split
      · obtain ⟨htaken, hback⟩ := queueJoined_taken (joinEvent s k o d) ((joinEvent s k o d).outQueue ++ [{ kind := .eventNotice, dest := a }])
        rw [if_neg hjoined, List.length_append, List.length_singleton] at hback
        refine ⟨htaken, hback.trans (le_trans ?_ hnotice)⟩
        unfold backlog
        omega
      · refine ⟨id, le_trans ?_ hplain⟩
        unfold backlog
        rw [if_neg (show (joinEvent (joinEvent s k o d) .frameDropped a FrameKind.eventNotice.code).events ≠ [] from joined_ne_nil _ _)]
        exact Nat.le_add_right _ _
    · exact ⟨id, hplain⟩
  · exact ⟨id, hplain⟩

/-- A frame joins a queue that has room. -/
theorem queueJoin_grows {q : List OutFrame} (h : q.length < 24) (f : OutFrame) : (queueJoin q f).1.length ≤ q.length + 1 := by
  by_cases hany : ∃ g ∈ q, replaces f g
  · rw [queueJoin_same hany, List.length_map]
    omega
  · rw [queueJoin_room (fun g hg hr => hany ⟨g, hg, hr⟩) h, List.length_append, List.length_singleton]

theorem place_taken {s : State} (h : s.outQueue.length < 24) (f : OutFrame) : Taken s (place s f) ∧ backlog (place s f) ≤ backlog s + 1 := by
  rw [place_room s f h]
  obtain ⟨htaken, hback⟩ := queueJoined_taken s (queueJoin s.outQueue f).1
  have hgrows := queueJoin_grows h f
  refine ⟨htaken, hback.trans ?_⟩
  unfold backlog
  omega

/-- Since `s` the transmitter has at most taken frames, and at most `n` frames and notices wait. -/
structure Outgoing (s : State) (n : Nat) (t : State) : Prop where
  taken : Taken s t
  room : backlog t ≤ n

section
variable {s t : State} {n : Nat}

theorem Outgoing.refl (s : State) : Outgoing s (backlog s) s := ⟨id, le_refl _⟩

theorem Outgoing.same (h : Outgoing s n t) {x : State} (hs : x.sending = t.sending) (hq : x.outQueue = t.outQueue)
    (he : x.events = t.events) : Outgoing s n x := by
  obtain ⟨htaken, hroom⟩ := h
  refine ⟨fun hx => htaken (hs ▸ hx), ?_⟩
  unfold backlog at hroom ⊢
  rwa [hq, he]

theorem Outgoing.raise (h : Outgoing s n t) (k : EventKind) (o d : Nat) : Outgoing s n (raise t k o d) :=
  ⟨fun hx => h.taken ((raise_taken t k o d).1 hx), (raise_taken t k o d).2.trans h.room⟩

theorem Outgoing.length (h : Outgoing s n t) : t.outQueue.length ≤ n := le_trans (Nat.le_add_right _ _) h.room

theorem Outgoing.place (h : Outgoing s n t) (hn : n < 24) (f : OutFrame) : Outgoing s (n + 1) (place t f) :=
  have hplace := place_taken (h.length.trans_lt hn) f
  ⟨fun hx => h.taken (hplace.1 hx), hplace.2.trans (Nat.add_le_add_right h.room 1)⟩

theorem Outgoing.placeLine (h : Outgoing s n t) (l : Line) (m : LineMsg) : Outgoing s n (placeLine t l m) := by
  have hline : ∀ f, Outgoing s n (modifyLine t l f) := fun f => h.same (by simp) (by simp) (by simp)
  unfold Machine.placeLine
  dsimp only
  split
  · exact (hline _).raise _ _ _
  · exact hline _

theorem Outgoing.instrPlaced (h : Outgoing s n t) (old : State) (b : Bank) : Outgoing s n (instrPlaced old b t) := by
  refine foldl_keeps (P := Outgoing s n) (fun x p hx => ?_) _ h
  split
  · split
    · exact hx
    · exact hx.placeLine _ _
  · exact hx

theorem outgoing_readKeeps (s : State) (n : Nat) : ReadKeeps (Outgoing s n) where
  tell _ _ _ _ _ h := h.raise _ _ _
  levers _ _ h := h.same rfl rfl rfl

end

/-! ### A frame on its way (R8, R10) -/

/-- A frame of the kind, destination and payload of `f`. -/
def Carries (f g : OutFrame) : Prop := g.kind = f.kind ∧ g.dest = f.dest ∧ g.payload = f.payload

section
variable {s t : State} {f : OutFrame}

theorem OnItsWay.same (h : OnItsWay s t f) {x : State} (hs : x.sending = t.sending) (hq : x.outQueue = t.outQueue) : OnItsWay s x f := by
  unfold OnItsWay at h ⊢
  rwa [hs, hq]

theorem OnItsWay.arbiter (h : OnItsWay s t f) (ht : Taken s t) : OnItsWay s (arbiter t) f := by
  unfold Machine.arbiter
  split
  · next hfree =>
    have hidle : t.sending = none := ((transmitterFree_iff t).1 hfree).2.1
    split
    · next g rest hg =>
      obtain ⟨u, r, hform⟩ := takeFrame_form t g rest
      obtain ⟨older, younger, hq, hrest, -, -⟩ := takeMostUrgent_split hg
      rcases h with ⟨m, hm, hcarries⟩ | ⟨-, x, hx, -⟩
      · rw [hq] at hm
        rw [hform]
        by_cases hmg : m = g
        · subst hmg
          obtain ⟨hkind, hdest, hpayload⟩ := hcarries
          exact .inr ⟨ht hidle, _, rfl, hkind, hdest, by dsimp only; rw [hkind, hdest, hpayload]⟩
        · refine .inl ⟨m, ?_, hcarries⟩
          show m ∈ rest
          rw [hrest]
          simpa [hmg] using hm
      · cases hidle.symm.trans hx
    · exact h
  · exact h

theorem OnItsWay.queueJoined (h : OnItsWay s t f) (ht : Taken s t) {q : List OutFrame}
    (hq : ∀ g ∈ t.outQueue, Carries f g → ∃ m ∈ q, Carries f m) : OnItsWay s (queueJoined t q) f := by
  have hqueued : OnItsWay s { t with outQueue := q } f := by
    rcases h with ⟨g, hg, hcarries⟩ | hsent
    · exact .inl (hq g hg hcarries)
    · exact .inr hsent
  unfold Machine.queueJoined
  dsimp only
  split
  · exact hqueued.arbiter ht
  · exact hqueued

theorem OnItsWay.place (h : OnItsWay s t f) (ht : Taken s t) (hroom : t.outQueue.length < 24) {g : OutFrame} (hg : g.dest ≠ f.dest) :
    OnItsWay s (place t g) f := by
  rw [place_room t g hroom]
  refine h.queueJoined ht fun m hm hcarries => ⟨m, ?_, hcarries⟩
  by_cases hany : ∃ x ∈ t.outQueue, replaces g x
  · rw [queueJoin_same hany]
    refine List.mem_map.2 ⟨m, hm, if_neg fun hr => hg ?_⟩
    exact ((replaces_iff g m).1 hr).2.2.symm.trans hcarries.2.1
  · rw [queueJoin_room (fun x hx hr => hany ⟨x, hx, hr⟩) hroom]
    exact List.mem_append_left _ hm

theorem onItsWay_placed (ht : Taken s t) (hroom : t.outQueue.length < 24) (f : OutFrame) : OnItsWay s (place t f) f := by
  rcases place_onItsWay (f := f) hroom with hq | ⟨hidle, hsent⟩
  · exact .inl hq
  · exact .inr ⟨ht hidle, hsent⟩

end

/-! ### The commands of one kind -/

/-- What the commands carry is the same. -/
structure SameContents (s t : State) : Prop where
  levers : t.levers = s.levers
  sections : t.sections = s.sections
  exchanges : t.exchanges = s.exchanges
  outputs : t.outputs = s.outputs
  groups : t.groupLive = s.groupLive

section
variable {s t : State} {b : Bank} {a : Nat}

theorem SameContents.refl (s : State) : SameContents s s := ⟨rfl, rfl, rfl, rfl, rfl⟩

theorem SameContents.trans {x : State} (h : SameContents s t) (h' : SameContents t x) : SameContents s x :=
  ⟨h'.levers.trans h.levers, h'.sections.trans h.sections, h'.exchanges.trans h.exchanges, h'.outputs.trans h.outputs,
    h'.groups.trans h.groups⟩

theorem stateCommand_lock (hk : b.kindAt a = .lfu) (h : t.levers = s.levers) : stateCommand t b a = stateCommand s b a := by
  unfold stateCommand lockPayload
  rw [hk, h]

theorem stateCommand_repeater (hk : b.kindAt a = .iu) (hs : t.sections = s.sections) (he : t.exchanges = s.exchanges) :
    stateCommand t b a = stateCommand s b a := by
  unfold stateCommand repeaterPayload repeaterBytes
  rw [hk, hs, he]

theorem stateCommand_diagram (hk : b.kindAt a = .du) (ho : t.outputs = s.outputs) (hg : t.groupLive = s.groupLive) :
    stateCommand t b a = stateCommand s b a := by
  unfold stateCommand diagramPayload diagramByte groupIntensity
  rw [hk, ho, hg]

theorem SameContents.stateCommand (h : SameContents s t) : stateCommand t b a = stateCommand s b a := by
  cases hk : b.kindAt a with
  | lfu => exact stateCommand_lock hk h.levers
  | iu => exact stateCommand_repeater hk h.sections h.exchanges
  | du => exact stateCommand_diagram hk h.outputs h.groups
  | none | tu | lu | mt => unfold Machine.stateCommand; rw [hk]

theorem stateCommand_dest {f : OutFrame} (h : Machine.stateCommand s b a = some f) : f.dest = a := by
  unfold Machine.stateCommand at h
  split at h <;> cases h <;> rfl

end

section
variable {s y : State} {n : Nat} {start : State} {stage : List State} {b : Bank} {k : UnitKind} {f : OutFrame}

theorem commandPlaced_contents (y : State) (a : Nat) : SameContents y (commandPlaced start stage b k y a) := by
  unfold commandPlaced
  split
  · split
    · constructor <;> simp
    · exact .refl y
  · exact .refl y

theorem commandPlaced_outgoing (h : Outgoing s n y) (hn : n < 24) (a : Nat) :
    Outgoing s (n + if b.kindAt a = k then 1 else 0) (commandPlaced start stage b k y a) := by
  have hmore : ∀ m, Outgoing s (n + m) y := fun m => ⟨h.taken, h.room.trans (Nat.le_add_right _ _)⟩
  unfold commandPlaced
  by_cases hcalled : (decide (b.kindAt a = k) && commandCalled start stage b k a) = true
  · have hk : b.kindAt a = k := of_decide_eq_true (Bool.and_eq_true _ _ ▸ hcalled).1
    rw [if_pos hcalled, if_pos hk]
    split
    · exact h.place hn _
    · exact hmore 1
  · rw [if_neg hcalled]
    exact hmore _

theorem commandPlaced_onItsWay (h : OnItsWay s y f) (hy : Outgoing s n y) (hn : n < 24) {a : Nat} (ha : a = f.dest → b.kindAt a ≠ k) :
    OnItsWay s (commandPlaced start stage b k y a) f := by
  unfold commandPlaced
  split
  · next hcalled =>
    rw [Bool.and_eq_true, decide_eq_true_eq] at hcalled
    split
    · next g hg => exact h.place hy.taken (hy.length.trans_lt hn) fun hd => ha ((stateCommand_dest hg).symm.trans hd) hcalled.1
    · exact h
  · exact h

/-- The number of addresses of a kind. -/
def addressed (b : Bank) (k : UnitKind) (as : List Nat) : Nat := as.countP fun a => b.kindAt a = k

theorem addressed_cons (b : Bank) (k : UnitKind) (a : Nat) (as : List Nat) :
    addressed b k (a :: as) = (if b.kindAt a = k then 1 else 0) + addressed b k as := by
  unfold addressed
  rw [List.countP_cons, Nat.add_comm]
  simp only [decide_eq_true_eq]

theorem commandsFold_keeps (as : List Nat) (hy : Outgoing s n y) (hn : n + addressed b k as < 24) :
    SameContents y (as.foldl (commandPlaced start stage b k) y) ∧
    Outgoing s (n + addressed b k as) (as.foldl (commandPlaced start stage b k) y) ∧
    (OnItsWay s y f → (∀ a ∈ as, a = f.dest → b.kindAt a ≠ k) → OnItsWay s (as.foldl (commandPlaced start stage b k) y) f) := by
  induction as generalizing y n with
  | nil => exact ⟨.refl y, hy, fun h _ => h⟩
  | cons a as ih =>
    rw [addressed_cons] at hn
    have hlt : n < 24 := by omega
    obtain ⟨hcontents, hout, hway⟩ := ih (commandPlaced_outgoing (start := start) (stage := stage) (b := b) (k := k) hy hlt a) (by omega)
    refine ⟨(commandPlaced_contents y a).trans hcontents, ?_, fun h hother => ?_⟩
    · rw [addressed_cons, ← Nat.add_assoc]
      exact hout
    · exact hway (commandPlaced_onItsWay h hy hlt (hother a List.mem_cons_self)) fun c hc => hother c (List.mem_cons_of_mem a hc)

/-- The command that a stage calls for of an address of the kind comes on its way. -/
theorem commandsPlaced_begins (hy : Outgoing s n y) (hn : n + addressed b k addresses < 24) {a : Nat} (ha : a ∈ addresses)
    (hk : b.kindAt a = k) (hcalled : commandCalled start stage b k a = true) (hf : stateCommand y b a = some f) :
    OnItsWay s (commandsPlaced start stage b k y) f := by
  have hnodup : addresses.Nodup := by
    unfold addresses
    exact List.nodup_range'
  obtain ⟨pre, post, hsplit⟩ := List.append_of_mem ha
  have hcount : addressed b k addresses = addressed b k pre + (1 + addressed b k post) := by
    rw [hsplit, addressed, List.countP_append]
    refine congrArg (addressed b k pre + ·) ((addressed_cons b k a post).trans ?_)
    rw [if_pos hk]
  rw [hsplit, List.nodup_append] at hnodup
  have hlater : a ∉ post := (List.nodup_cons.1 hnodup.2.1).1
  unfold commandsPlaced
  rw [hsplit, List.foldl_append, List.foldl_cons]
  obtain ⟨hcontents, hout, -⟩ := commandsFold_keeps (b := b) (k := k) (f := f) (start := start) (stage := stage) pre hy (by omega)
  set z := pre.foldl (commandPlaced start stage b k) y
  have hlt : n + addressed b k pre < 24 := by omega
  have hnext := commandPlaced_outgoing (start := start) (stage := stage) (b := b) (k := k) hout hlt a
  have hplaced : OnItsWay s (commandPlaced start stage b k z a) f := by
    unfold commandPlaced
    rw [if_pos (by rw [hk, hcalled]; simp), hcontents.stateCommand, hf]
    exact onItsWay_placed hout.taken (hout.length.trans_lt hlt) f
  rw [if_pos hk] at hnext
  refine (commandsFold_keeps (b := b) (k := k) (start := start) (stage := stage) post hnext (by omega)).2.2 hplaced fun c hc hcf => ?_
  rw [stateCommand_dest hf] at hcf
  exact absurd (hcf ▸ hc) hlater

end

end Sys2Proof.Machine
end

section
/-! PROOF. What the end of an arrival places: the commands whose contents changed, and the INSTRs of the sections whose own state
changed (R11, R17, R73, R74, R115, R144, R157, R176). -/

namespace Sys2Proof.Machine

/-! ### The commands of all three kinds -/

theorem addressed_le (b : Bank) (as : List Nat) : addressed b .lfu as + addressed b .iu as + addressed b .du as ≤
    (as.filter fun a => b.kindAt a ≠ .none).length := by
  induction as with
  | nil => exact le_refl _
  | cons a as ih =>
    rw [← List.countP_eq_length_filter] at ih ⊢
    rw [List.countP_cons, addressed_cons, addressed_cons, addressed_cons]
    generalize (as.countP fun a => decide (b.kindAt a ≠ .none)) = m at ih ⊢
    cases b.kindAt a <;> simp only [reduceCtorEq, if_true, if_false, ne_eq, not_true, not_false_eq_true, decide_true, decide_false,
      Bool.false_eq_true] <;> omega

section
variable {old s : State} {b : Bank} {a : Nat} {f : OutFrame}

/-- The arrival changed the contents of an address's command, or its roster entry is new, or every LFU is sent a LOCK_SET. -/
def CallsFor (old s : State) (b : Bank) (a : Nat) (f : OutFrame) : Prop :=
  ∀ o, old.bank = some o → o.rosterAt a = b.rosterAt a → stateCommand old o a = some f →
    b.kindAt a = .lfu ∧ ((old.part = .running ∧ s.part ≠ .running) ∨ (old.part ≠ .tripped ∧ s.part = .tripped))

theorem commandCalled_of {y : State} {stage : List State} (h : CallsFor old s b a f) (hy : y ∈ stage)
    (hf : stateCommand y b a = some f) (hpart : y.part = s.part) : commandCalled old stage b (b.kindAt a) a = true := by
  unfold commandCalled
  by_cases hfresh : freshAddress old b a = true
  · rw [hfresh]
    rfl
  by_cases hbefore : contentsBefore old a = some f
  · unfold freshAddress at hfresh
    unfold contentsBefore at hbefore
    cases ho : old.bank with
    | none => rw [ho] at hbefore; cases hbefore
    | some o =>
      rw [ho] at hfresh hbefore
      obtain ⟨hk, hlocks⟩ := h o ho (by simpa using hfresh) hbefore
      have hall : locksAll old y = true := by
        unfold locksAll
        rw [hpart]
        simpa using hlocks
      have hany : stage.any (locksAll old) = true := List.any_eq_true.2 ⟨y, hy, hall⟩
      rw [hk, hany]
      simp
  · have hany : (stage.any fun z => decide (contentsBefore old a ≠ stateCommand z b a)) = true :=
      List.any_eq_true.2 ⟨y, hy, by rw [hf]; exact decide_eq_true hbefore⟩
    rw [hany, Bool.or_true]

theorem settle_onItsWay (hb : s.bank = some b) (hp : s.part ≠ .starting) (hroom : Roomy s b) (ha : a ∈ addresses)
    (hf : stateCommand (finish old s) b a = some f) (h : CallsFor old s b a f) : OnItsWay s (finish old s) f := by
  have hread : Outgoing s (backlog s) (concludeLevers [] s) := (outgoing_readKeeps s _).concludeLevers [] (.refl s)
  have hbank : (concludeLevers [] s).bank = some b := (State.bank_of _ _ (by simp)).trans hb
  have hcount : backlog s + addressed b .lfu addresses + addressed b .iu addresses + addressed b .du addresses < 24 := by
    have hle := addressed_le b addresses
    unfold Roomy at hroom
    have hback : backlog s ≤ s.outQueue.length + 1 := by
      unfold backlog
      split <;> omega
    omega
  rw [finish_steady hp] at hf ⊢
  set c := concludeLevers [] s
  have hform : settle old (leverReadings [] s) c =
      let p1 := commandsPlaced old (leverReadings [] s ++ [c]) b .lfu (instrPlaced old b c)
      let p2 := commandsPlaced old [p1] b .iu p1
      commandsPlaced old [modesComputed b p2] b .du (modesComputed b p2) := by
    unfold settle
    rw [hbank]
  rw [hform] at hf ⊢
  dsimp only at hf ⊢
  have hp0 : Outgoing s (backlog s) (instrPlaced old b c) := hread.instrPlaced old b
  have hpart0 : (instrPlaced old b c).part = s.part := by
    rw [(instrPlaced_settled old b c).rest]
    simp [c]
  have hlevers0 : c.levers = (instrPlaced old b c).levers := by rw [(instrPlaced_settled old b c).rest]
  have hcpart : c.part = s.part := by simp [c]
  obtain ⟨hsame1, hp1, -⟩ := commandsFold_keeps (f := f) (start := old) (stage := leverReadings [] s ++ [c]) (k := .lfu) addresses (b := b) hp0
    (by omega)
  have hpart1 : (commandsPlaced old (leverReadings [] s ++ [c]) b .lfu (instrPlaced old b c)).part = s.part := by
    rw [(commandsPlaced_settled _ _ _ _ _).rest]
    exact hpart0
  change SameContents _ (commandsPlaced old (leverReadings [] s ++ [c]) b .lfu (instrPlaced old b c)) at hsame1
  change Outgoing _ _ (commandsPlaced old (leverReadings [] s ++ [c]) b .lfu (instrPlaced old b c)) at hp1
  have hbegin1 : b.kindAt a = .lfu → stateCommand (instrPlaced old b c) b a = some f →
      OnItsWay s (commandsPlaced old (leverReadings [] s ++ [c]) b .lfu (instrPlaced old b c)) f := fun hk hcontent =>
    commandsPlaced_begins hp0 (by omega) ha hk
      (hk ▸ commandCalled_of h (List.mem_append_right _ List.mem_cons_self)
        ((stateCommand_lock hk hlevers0).trans hcontent) hcpart) hcontent
  generalize commandsPlaced old (leverReadings [] s ++ [c]) b .lfu (instrPlaced old b c) = p1 at *
  obtain ⟨hsame2, hp2, hkept2⟩ := commandsFold_keeps (f := f) (start := old) (stage := [p1]) (k := .iu) (b := b) addresses hp1 (by omega)
  change SameContents _ (commandsPlaced old [p1] b .iu p1) at hsame2
  change Outgoing _ _ (commandsPlaced old [p1] b .iu p1) at hp2
  change _ → _ → OnItsWay s (commandsPlaced old [p1] b .iu p1) f at hkept2
  have hpart2 : (commandsPlaced old [p1] b .iu p1).part = s.part := by
    rw [(commandsPlaced_settled _ _ _ _ _).rest]
    exact hpart1
  have hbegin2 : b.kindAt a = .iu → stateCommand p1 b a = some f → OnItsWay s (commandsPlaced old [p1] b .iu p1) f :=
    fun hk hcontent => commandsPlaced_begins hp1 (by omega) ha hk
      (hk ▸ commandCalled_of h List.mem_cons_self hcontent hpart1) hcontent
  generalize commandsPlaced old [p1] b .iu p1 = p2 at *
  have hp3 : Outgoing s _ (modesComputed b p2) := hp2.same rfl rfl rfl
  obtain ⟨hsame4, hp4, hkept4⟩ := commandsFold_keeps (f := f) (start := old) (stage := [modesComputed b p2]) (k := .du) (b := b) addresses hp3
    (by omega)
  change SameContents _ (commandsPlaced old [modesComputed b p2] b .du (modesComputed b p2)) at hsame4
  change Outgoing _ _ (commandsPlaced old [modesComputed b p2] b .du (modesComputed b p2)) at hp4
  change _ → _ → OnItsWay s (commandsPlaced old [modesComputed b p2] b .du (modesComputed b p2)) f at hkept4
  have hbegin4 : b.kindAt a = .du → stateCommand (modesComputed b p2) b a = some f →
      OnItsWay s (commandsPlaced old [modesComputed b p2] b .du (modesComputed b p2)) f :=
    fun hk hcontent => commandsPlaced_begins hp3 (by omega) ha hk
      (hk ▸ commandCalled_of h List.mem_cons_self hcontent hpart2) hcontent
  generalize commandsPlaced old [modesComputed b p2] b .du (modesComputed b p2) = p4 at *
  have hlast : SameContents p4 (arbiters p4) := by constructor <;> simp
  rw [hlast.stateCommand] at hf
  have hway : OnItsWay s p4 f := by
    have hdest := stateCommand_dest hf
    have hother : ∀ k, b.kindAt a ≠ k → ∀ c ∈ addresses, c = f.dest → b.kindAt c ≠ k := fun k hne c _ hc => by
      rw [hc, hdest]
      exact hne
    have hlevers : p4.levers = p2.levers := hsame4.levers
    have hsections : p4.sections = p2.sections := hsame4.sections
    have hexchanges : p4.exchanges = p2.exchanges := hsame4.exchanges
    cases hk : b.kindAt a with
    | lfu =>
      have hway1 := hbegin1 hk ((stateCommand_lock hk (hlevers.trans (hsame2.levers.trans hsame1.levers))).symm.trans hf)
      have hway2 := hkept2 hway1 (hother .iu (by rw [hk]; decide))
      exact hkept4 (hway2.same rfl rfl) (hother .du (by rw [hk]; decide))
    | iu =>
      have hway2 := hbegin2 hk ((stateCommand_repeater hk (hsections.trans hsame2.sections)
        (hexchanges.trans hsame2.exchanges)).symm.trans hf)
      exact hkept4 (hway2.same rfl rfl) (hother .du (by rw [hk]; decide))
    | du => exact hbegin4 hk (hsame4.stateCommand.symm.trans hf)
    | none | tu | lu | mt =>
      unfold stateCommand at hf
      rw [hk] at hf
      cases hf
  unfold arbiters
  exact (hway.arbiter hp4.taken).same rfl rfl

end

/-! ### The INSTRs of the sections whose own state changed (R115, R144) -/

/-- One section of the placing of INSTRs. -/
def instrStep (old : State) (b : Bank) (y : State) (p : Nat × SectionRec) : State :=
  match recAt old.sections p.1 with
  | some r =>
    if r.own = p.2.own then y
    else placeLine y (b.sectionEntry p.1).lineOf (.instr (b.sectionEntry p.1).channel.toNat p.2.own)
  | none => y

theorem instrPlaced_eq (old : State) (b : Bank) (s : State) : instrPlaced old b s = s.sections.foldl (instrStep old b) s := rfl

section
variable {q : List LineMsg} {link : Link} {c : Nat} {x : Instrument}

theorem lineJoin_instr (hq : q.length < 16) (link : Link) (c : Nat) (x : Instrument) : (lineJoin link q (.instr c x)).1 =
    if q.any fun y => (LineMsg.instr c x).replaces y then q.map fun y => if (LineMsg.instr c x).replaces y then .instr c x else y
    else q ++ [.instr c x] := by
  rw [lineJoin_of_state (.inl ⟨c, x, rfl⟩), if_pos hq]
  split <;> rfl

theorem lineJoin_instr_length (hq : q.length < 16) : (lineJoin link q (.instr c x)).1.length ≤ q.length + 1 := by
  rw [lineJoin_instr hq]
  split
  · simp
  · simp

theorem lineJoin_instr_self (hq : q.length < 16) : LineMsg.instr c x ∈ (lineJoin link q (.instr c x)).1 := by
  rw [lineJoin_instr hq]
  split
  · next hany =>
    obtain ⟨y, hy, hr⟩ := List.any_eq_true.1 hany
    exact List.mem_map.2 ⟨y, hy, if_pos hr⟩
  · exact List.mem_append_right _ List.mem_cons_self

theorem lineJoin_instr_other (hq : q.length < 16) {d : Nat} {z : Instrument} (hd : d ≠ c) (h : LineMsg.instr c x ∈ q) :
    LineMsg.instr c x ∈ (lineJoin link q (.instr d z)).1 := by
  rw [lineJoin_instr hq]
  split
  · exact List.mem_map.2 ⟨_, h, if_neg (by simpa [LineMsg.replaces] using hd)⟩
  · exact List.mem_append_left _ h

end

section
variable {old : State} {b : Bank} {y : State} {l : Line}

theorem instrStep_queue (y : State) (p : Nat × SectionRec) :
    ((instrStep old b y p).line l).queue = (y.line l).queue ∨
    (l = (b.sectionEntry p.1).lineOf ∧ ((instrStep old b y p).line l).queue =
      (lineJoin (y.line l).link (y.line l).queue (.instr (b.sectionEntry p.1).channel.toNat p.2.own)).1) := by
  unfold instrStep
  split
  · split
    · exact .inl rfl
    · rw [placeLine_queue]
      split
      · next hl => exact .inr ⟨hl, by rw [hl]⟩
      · exact .inl rfl
  · exact .inl rfl

theorem instrStep_length {p : Nat × SectionRec} (h : (y.line l).queue.length < 16) :
    ((instrStep old b y p).line l).queue.length ≤ (y.line l).queue.length + 1 := by
  rcases instrStep_queue (old := old) (b := b) (l := l) y p with hq | ⟨-, hq⟩
  · rw [hq]
    omega
  · rw [hq]
    exact lineJoin_instr_length h

theorem instrFold_length (ps : Recs SectionRec) (h : (y.line l).queue.length + ps.length ≤ 16) :
    ((ps.foldl (instrStep old b) y).line l).queue.length ≤ (y.line l).queue.length + ps.length := by
  induction ps generalizing y with
  | nil => exact le_refl _
  | cons p ps ih =>
    rw [List.length_cons] at h ⊢
    have hstep := instrStep_length (old := old) (b := b) (p := p) (y := y) (l := l) (by omega)
    have hrest := ih (y := instrStep old b y p) (by omega)
    rw [List.foldl_cons]
    omega

theorem instrFold_keeps {c : Nat} {x : Instrument} (ps : Recs SectionRec) (h : (y.line l).queue.length + ps.length ≤ 16)
    (hother : ∀ p ∈ ps, (b.sectionEntry p.1).lineOf ≠ l ∨ (b.sectionEntry p.1).channel.toNat ≠ c)
    (hm : LineMsg.instr c x ∈ (y.line l).queue) : LineMsg.instr c x ∈ ((ps.foldl (instrStep old b) y).line l).queue := by
  induction ps generalizing y with
  | nil => exact hm
  | cons p ps ih =>
    rw [List.length_cons] at h
    have hlt : (y.line l).queue.length < 16 := by omega
    have hstep := instrStep_length (old := old) (b := b) (p := p) hlt
    refine ih (y := instrStep old b y p) (by omega) (fun z hz => hother z (List.mem_cons_of_mem p hz)) ?_
    rcases instrStep_queue (old := old) (b := b) (l := l) y p with hq | ⟨hl, hq⟩
    · rw [hq]
      exact hm
    · rw [hq]
      exact lineJoin_instr_other hlt ((hother p List.mem_cons_self).resolve_left fun hne => hne hl.symm) hm

/-- The INSTR of a section whose own state changed stands in its line's queue, where the queue has room. -/
theorem instrPlaced_mem {s : State} {n : Nat} {r r' : SectionRec} (ho : recAt old.sections n = some r)
    (hs : recAt s.sections n = some r') (hne : r.own ≠ r'.own) (hnodup : (s.sections.map Prod.fst).Nodup)
    (hother : ∀ m r, m ≠ n → recAt s.sections m = some r → (b.sectionEntry m).lineOf ≠ (b.sectionEntry n).lineOf ∨
      (b.sectionEntry m).channel.toNat ≠ (b.sectionEntry n).channel.toNat)
    (hroom : (s.line (b.sectionEntry n).lineOf).queue.length + s.sections.length ≤ 16) :
    LineMsg.instr (b.sectionEntry n).channel.toNat r'.own ∈ ((instrPlaced old b s).line (b.sectionEntry n).lineOf).queue := by
  obtain ⟨pre, post, hsplit⟩ := List.append_of_mem (recAt_mem hs)
  have hdistinct : ∀ p ∈ post, p.1 ≠ n := by
    rw [hsplit, List.map_append, List.map_cons, List.nodup_append, List.nodup_cons] at hnodup
    intro p hp hpn
    exact hnodup.2.1.1 (List.mem_map.2 ⟨p, hp, hpn⟩)
  have hlength : s.sections.length = pre.length + (post.length + 1) := by rw [hsplit, List.length_append, List.length_cons]
  have hpost : ∀ p ∈ post, p ∈ s.sections := fun p hp => by
    rw [hsplit]
    exact List.mem_append_right _ (List.mem_cons_of_mem _ hp)
  rw [instrPlaced_eq, hsplit, List.foldl_append, List.foldl_cons]
  have hpre := instrFold_length (old := old) (b := b) (y := s) (l := (b.sectionEntry n).lineOf) pre (by omega)
  set z := pre.foldl (instrStep old b) s
  have hz : (z.line (b.sectionEntry n).lineOf).queue.length < 16 := by omega
  have hstep : instrStep old b z (n, r') = placeLine z (b.sectionEntry n).lineOf (.instr (b.sectionEntry n).channel.toNat r'.own) := by
    unfold instrStep
    dsimp only
    rw [ho]
    exact if_neg hne
  have hgrown := instrStep_length (old := old) (b := b) (p := (n, r')) hz
  refine instrFold_keeps post (by omega) (fun p hp => ?_) ?_
  · obtain ⟨x, hx⟩ := recAt_of_mem (hpost p hp)
    exact hother p.1 x (hdistinct p hp) hx
  · rw [hstep, placeLine_queue, if_pos rfl]
    exact lineJoin_instr_self hz

end

theorem commandsPlaced_line (start : State) (stage : List State) (b : Bank) (k : UnitKind) (s : State) (l : Line) :
    (commandsPlaced start stage b k s).line l = s.line l := by
  refine foldl_keeps (P := fun x => x.line l = s.line l) (fun x a hx => ?_) addresses rfl
  unfold commandPlaced
  split
  · split
    · exact (State.line_of _ _ (by simp) (by simp) l).trans hx
    · exact hx
  · exact hx

theorem settle_line {s : State} {b : Bank} (hb : s.bank = some b) (start : State) (stage : List State) (l : Line) :
    (settle start stage s).line l = (instrPlaced start b s).line l := by
  unfold settle
  rw [hb]
  dsimp only
  rw [commandsPlaced_line]
  have hmodes : ∀ x, (modesComputed b x).line l = x.line l := fun x => State.line_of _ _ rfl rfl l
  rw [hmodes, commandsPlaced_line, commandsPlaced_line]

/-- A message of a line's queue stands there or is being sent once its arbiter applied (R114). -/
theorem lineArbiter_keeps {r : LineRec} {m : LineMsg} (h : m ∈ r.queue) : m ∈ r.arbiter.queue ∨ r.arbiter.sending = some m := by
  unfold LineRec.arbiter
  split
  · split
    · next w rest htake =>
      obtain ⟨older, younger, hq, rfl, -⟩ := takeMessage_split htake
      rw [hq] at h
      by_cases hm : m = w
      · exact .inr (congrArg some hm.symm)
      · left
        show m ∈ older ++ younger
        simpa [hm] using h
    · exact .inl h
  · exact .inl h

/-- Settles O30: what the commands carry, and what the end of an arrival places. -/
theorem commandContents : Obligations.CommandContents := by
  unfold Obligations.CommandContents
  refine ⟨stateCommand_contents, fun old s b hb hp => ⟨fun hroom a f ha hf hcalls => ?_, fun n r r' ho hs hne hnodup => ?_⟩⟩
  · exact settle_onItsWay hb hp hroom ha hf hcalls
  · intro l ch hother hroom
    have hread : (concludeLevers [] s).bank = some b := (State.bank_of _ _ (by simp)).trans hb
    have hline : ∀ k, (concludeLevers [] s).line k = s.line k := State.line_of _ _ (by simp) (by simp)
    have hsections : (concludeLevers [] s).sections = s.sections := by simp
    have hmem : LineMsg.instr ch r'.own ∈ ((instrPlaced old b (concludeLevers [] s)).line l).queue :=
      instrPlaced_mem ho (by rw [hsections]; exact hs) hne (by rw [hsections]; exact hnodup)
        (fun m z hm hz => hother m z hm (by rw [← hsections]; exact hz)) (by rw [hsections, hline]; exact hroom)
    have hend : (finish old s).line l = ((instrPlaced old b (concludeLevers [] s)).line l).arbiter := by
      rw [finish_steady hp, arbiters_line, settle_line hread]
    rw [hend]
    exact lineArbiter_keeps hmem

end Sys2Proof.Machine
end

section
/-! PROOF. The first pass of a TRACK_SAMPLE: the decision on each sample, the events and the clearing decisions it calls for, and the
proving judgements (R39, R44, R45, R46, R47, R50, R51, R58, R59, R60). -/

namespace Sys2Proof.Machine

/-! ### The decision on one sample (R44 to R51) -/

section
variable (now : Time) (e : TrackEntry) (x : Sample) (r : TrackRec)

theorem sampleDecision_flags : (sampleDecision now e x r).record.exitSeen = r.exitSeen ∧
    (sampleDecision now e x r).record.provedOnce = r.provedOnce ∧ (sampleDecision now e x r).record.unexpected = r.unexpected := by
  unfold sampleDecision failedBy
  repeat' split
  all_goals exact ⟨rfl, rfl, rfl⟩

/-- A clearing decision is called for of an OCCUPIED track at or above its pick-up threshold and without a delay, whose record then
stands (R46). -/
theorem sampleDecision_calls (h : (sampleDecision now e x r).decision = true) :
    r.state = .occupied ∧ (sampleDecision now e x r).record = r ∧ (sampleDecision now e x r).event = none ∧
      ¬ feedFailure e x = true ∧ r.noisy ≠ 8 ∧ ¬ r.s < e.p.toNat ∧ e.delay = 0 := by
  unfold sampleDecision failedBy at h ⊢
  split
  · next hs => rw [if_pos hs] at h; cases h
  · next hs =>
    rw [if_neg hs] at h
    split
    · next hf => rw [if_pos hf] at h; cases h
    · next hf =>
      rw [if_neg hf] at h
      split
      · next hn => rw [if_pos hn] at h; cases h
      · next hn =>
        rw [if_neg hn] at h
        cases hr : r.state <;> rw [hr] at h <;> dsimp only at h ⊢
        case occupied =>
          split
          · next hp => rw [if_pos hp] at h; cases h
          · next hp =>
            rw [if_neg hp] at h
            split
            · next hd => exact ⟨rfl, rfl, rfl, hf, hn, hp, hd⟩
            · next hd => rw [if_neg hd] at h; cases h
        case failed =>
          split at h <;> cases h
        all_goals cases h

/-- No sample takes a track into CLEAR or SUSPECT by itself (R44). -/
theorem sampleDecision_reaches {y : TrackState} (hy : y = .clear ∨ y = .suspect)
    (h : (sampleDecision now e x r).record.state = y) : r.state = y := by
  unfold sampleDecision failedBy at h
  split at h
  · exact h
  · split at h
    · rcases hy with rfl | rfl <;> cases h
    · split at h
      · rcases hy with rfl | rfl <;> cases h
      · cases hr : r.state <;> rw [hr] at h <;> dsimp only at h
        all_goals
          repeat' split at h
        all_goals
          rcases hy with rfl | rfl <;> simp_all

/-- The first case of R44 that applies to a track's record `r`, which a sample at the time brought to `r'`; `decided` is what a
clearing decision makes of it. -/
def SampleTable (r' : TrackRec) (decided : Prop) : Prop :=
  if r.state = .suspect then r'.state = .suspect ∧ r'.cause = r.cause ∧ r'.timer = r.timer
  else if x.f < e.fmin.toNat then r'.state = .failed ∧ r'.cause = some .feed ∧ r'.timer = none
  else if r'.noisy = 8 then r'.state = .failed ∧ r'.cause = some .noise ∧ r'.timer = none
  else
    match r.state with
    | .failed =>
      if r'.good = 4 then r'.state = .occupied ∧ r'.cause = none else r'.state = .failed ∧ r'.cause = r.cause
    | .clear => r'.state = (if r'.s < e.d.toNat then .occupied else .clear) ∧ r'.timer = r.timer
    | .occupied =>
      if r'.s < e.p.toNat then r'.state = .occupied ∧ r'.timer = r.timer
      else if e.delay = 0 then decided
      else r'.state = .pickingUp ∧ r'.timer = some (now.plus (e.delay.toNat * 10))
    | .pickingUp =>
      if r'.s < e.p.toNat then r'.state = .occupied ∧ r'.timer = none
      else r'.state = .pickingUp ∧ r'.timer = r.timer
    | .suspect => True

theorem feedFailure_iff : feedFailure e x = true ↔ x.f < e.fmin.toNat := decide_eq_true_iff

theorem sampleDecision_table :
    SampleTable now e x r (sampleDecision now e x r).record ((sampleDecision now e x r).decision = true) := by
  unfold SampleTable sampleDecision failedBy
  simp only [feedFailure_iff]
  by_cases hs : r.state = .suspect
  · simp only [if_pos hs]
    exact ⟨hs, trivial, trivial⟩
  · simp only [if_neg hs]
    by_cases hf : x.f < e.fmin.toNat
    · simp only [if_pos hf]
      exact ⟨trivial, trivial, trivial⟩
    · simp only [if_neg hf]
      by_cases hn : r.noisy = 8
      · simp only [if_pos hn]
        exact ⟨trivial, trivial, trivial⟩
      · simp only [if_neg hn]
        cases hr : r.state <;> dsimp only
        case clear => split <;> simp_all
        case occupied =>
          repeat' split
          all_goals simp_all
        case pickingUp => split <;> simp_all
        case failed => split <;> simp_all
        case suspect => exact absurd hr hs

variable {now e x r}

/-- The table reads a record's state, cause, timer and what the computation wrote. -/
theorem SampleTable.congr {r1 r' : TrackRec} {p q : Prop} (h : SampleTable now e x r r1 p) (hstate : r'.state = r1.state)
    (hcause : r'.cause = r1.cause) (htimer : r'.timer = r1.timer) (hcore : sampleCore r' = sampleCore r1) (hp : p → q) :
    SampleTable now e x r r' q := by
  obtain ⟨hS, -, hnoisy, hgood⟩ : r'.s = r1.s ∧ r'.q = r1.q ∧ r'.noisy = r1.noisy ∧ r'.good = r1.good := by
    simpa [sampleCore] using hcore
  unfold SampleTable at h ⊢
  rw [hstate, hcause, htimer, hS, hnoisy, hgood]
  cases hr : r.state <;> simp only [hr] at h ⊢
  case occupied =>
    rw [if_neg TrackState.noConfusion] at h ⊢
    split_ifs at h ⊢ with hf hn hbelow hd
    · exact h
    · exact h
    · exact h
    · exact hp h
    · exact h
  all_goals exact h

/-- Where a clearing decision is called for, the table is what that makes of the track. -/
theorem SampleTable.called {r' : TrackRec} {q : Prop} (h : (sampleDecision now e x r).decision = true)
    (hcore : sampleCore r' = sampleCore r) (hq : q) : SampleTable now e x r r' q := by
  obtain ⟨hocc, -, -, hf, hn, hp, hd⟩ := sampleDecision_calls now e x r h
  obtain ⟨hS, -, hnoisy, -⟩ : r'.s = r.s ∧ r'.q = r.q ∧ r'.noisy = r.noisy ∧ r'.good = r.good := by
    simpa [sampleCore] using hcore
  unfold SampleTable
  rw [hocc, hS, hnoisy, if_neg TrackState.noConfusion, if_neg (mt (feedFailure_iff e x).2 hf), if_neg hn, if_neg hp, if_pos hd]
  exact hq

variable (now e x r)

/-- TRACK_FAILED and TRACK_RECOVERED of a sample, each with its cause (R50, R51). -/
theorem sampleDecision_event (k : EventKind) (c : FailCause) : (sampleDecision now e x r).event = some (k, c) ↔
    (k = .trackFailed ∧ r.state ≠ .suspect ∧ (sampleDecision now e x r).record.state = .failed ∧
      (sampleDecision now e x r).record.cause = some c ∧ ¬ (r.state = .failed ∧ r.cause = some c)) ∨
    (k = .trackRecovered ∧ r.state = .failed ∧ (sampleDecision now e x r).record.state = .occupied ∧ r.cause = some c) := by
  have hfailed : ∀ cause, (failedBy cause r).event = some (k, c) ↔
      k = .trackFailed ∧ cause = c ∧ ¬ (r.state = .failed ∧ r.cause = some c) := by
    intro cause
    unfold failedBy
    dsimp only
    split
    · next h => simp only [reduceCtorEq, false_iff, not_and]; rintro - rfl; exact fun hn => hn h.1 h.2
    · next h =>
      rw [Option.some.injEq, Prod.mk.injEq]
      constructor
      · rintro ⟨rfl, rfl⟩; exact ⟨rfl, rfl, h⟩
      · rintro ⟨rfl, rfl, -⟩; exact ⟨rfl, rfl⟩
  unfold sampleDecision
  split
  · next hs => simp [hs]
  · next hs =>
    split
    · rw [hfailed]
      simp [failedBy, hs]
    · split
      · rw [hfailed]
        simp [failedBy, hs]
      · cases hr : r.state <;> dsimp only
        case clear => split <;> simp [hr]
        case occupied => repeat' split
                         all_goals simp [hr]
        case pickingUp => split <;> simp [hr]
        case suspect => exact absurd hr hs
        case failed =>
          split
          · cases hc : r.cause with
            | none => simp
            | some c' => simp [eq_comm]
          · simp only [reduceCtorEq, false_iff, not_or, not_and]
            refine ⟨fun _ _ _ hc => ?_, fun _ _ => ?_⟩
            · simpa using hc
            · simp [hr]

end

/-! ### The samples of a unit (R39) -/

/-- The events of tracks that a sample raises. -/
def trackKinds : List EventKind := [.trackFailed, .trackRecovered, .trackSuspect, .unexpectedOccupation]

/-- What a channel's sample gives for its track, where it has a record. -/
def sampleOutcome (b : Bank) (bytes : List Byte) (now : Time) (ts : Recs TrackRec) (p : Nat × Nat) : Option SampleOutcome :=
  (recAt ts p.2).map fun r => sampleDecision now (b.trackEntry p.2) (sampleAt bytes p.1)
    (computed (b.trackEntry p.2) (sampleAt bytes p.1) r)

/-- The tracks of which samples call for a clearing decision, in channel order (R46). -/
def samplesCall (b : Bank) (bytes : List Byte) (now : Time) (ts : Recs TrackRec) (l : List (Nat × Nat)) : List Nat :=
  l.filterMap fun p => (sampleOutcome b bytes now ts p).bind fun o => if o.decision then some p.2 else none

/-- The events of samples, in channel order (R50, R51). -/
def samplesTell (b : Bank) (bytes : List Byte) (now : Time) (ts : Recs TrackRec) (l : List (Nat × Nat)) :
    List (EventKind × Nat × Nat) :=
  l.filterMap fun p => (sampleOutcome b bytes now ts p).bind fun o => o.event.map fun k => (k.1, p.2, k.2.code)

theorem sampleOutcome_congr {b : Bank} {bytes : List Byte} {now : Time} {ts ts' : Recs TrackRec} {p : Nat × Nat}
    (h : recAt ts' p.2 = recAt ts p.2) : sampleOutcome b bytes now ts' p = sampleOutcome b bytes now ts p := by
  unfold sampleOutcome
  rw [h]

theorem trackTakes_outcome (b : Bank) (bytes : List Byte) (acc : State × List Nat) (p : Nat × Nat) :
    (trackTakes b (sampleAt bytes p.1) acc p.2).2 = acc.2 ++ ((sampleOutcome b bytes acc.1.now acc.1.tracks p).bind fun o =>
      if o.decision then some p.2 else none).toList ∧
    ∀ s base, Tells trackKinds s acc.1 base → Tells trackKinds s (trackTakes b (sampleAt bytes p.1) acc p.2).1
      (base ++ ((sampleOutcome b bytes acc.1.now acc.1.tracks p).bind fun o => o.event.map fun k => (k.1, p.2, k.2.code)).toList) := by
  unfold sampleOutcome trackTakes
  cases hr : recAt acc.1.tracks p.2 with
  | none => exact ⟨by simp, fun s base h => by simpa using h⟩
  | some r =>
    dsimp only [Option.map_some, Option.bind_some]
    have hkinds := sampleDecision_event acc.1.now (b.trackEntry p.2) (sampleAt bytes p.1)
      (computed (b.trackEntry p.2) (sampleAt bytes p.1) r)
    generalize sampleDecision acc.1.now (b.trackEntry p.2) (sampleAt bytes p.1)
      (computed (b.trackEntry p.2) (sampleAt bytes p.1) r) = o at hkinds
    refine ⟨by split <;> simp, fun s base h => ?_⟩
    have hwritten : Tells trackKinds s (modifyTrack acc.1 p.2 fun _ => o.record) base := h.congr rfl rfl
    cases he : o.event with
    | none => simpa using hwritten
    | some k =>
      obtain ⟨k, c⟩ := k
      have hk : k ∈ trackKinds := by
        rcases (hkinds k c).1 he with ⟨rfl, -⟩ | ⟨rfl, -⟩ <;> decide
      have htold := hwritten.raise (by decide) k p.2 c.code
      rwa [show ofKinds trackKinds [(k, p.2, c.code)] = [(k, p.2, c.code)] by simp [ofKinds, hk]] at htold

/-- The samples of distinct tracks call for their decisions and tell their events, each by the record the track had. -/
theorem trackTakesAll_outcomes {b : Bank} {bytes : List Byte} {l : List (Nat × Nat)} (hd : (l.map Prod.snd).Nodup)
    (acc : State × List Nat) :
    (trackTakesAll b bytes l acc).2 = acc.2 ++ samplesCall b bytes acc.1.now acc.1.tracks l ∧
    ∀ s base, Tells trackKinds s acc.1 base →
      Tells trackKinds s (trackTakesAll b bytes l acc).1 (base ++ samplesTell b bytes acc.1.now acc.1.tracks l) := by
  induction l generalizing acc with
  | nil => exact ⟨(List.append_nil _).symm, fun s base h => by rw [samplesTell, List.filterMap_nil, List.append_nil]; exact h⟩
  | cons p l ih =>
    rw [List.map_cons, List.nodup_cons] at hd
    obtain ⟨hcall, htell⟩ := trackTakes_outcome b bytes acc p
    obtain ⟨hcalls, htells⟩ := ih hd.2 (trackTakes b (sampleAt bytes p.1) acc p.2)
    have hnow : (trackTakes b (sampleAt bytes p.1) acc p.2).1.now = acc.1.now := by simp only [trackTakes_same]
    have hrest : ∀ q ∈ l, sampleOutcome b bytes acc.1.now (trackTakes b (sampleAt bytes p.1) acc p.2).1.tracks q =
        sampleOutcome b bytes acc.1.now acc.1.tracks q := fun q hq =>
      sampleOutcome_congr (trackTakes_other fun h => hd.1 (h ▸ List.mem_map_of_mem hq))
    rw [trackTakesAll_cons]
    rw [hnow] at hcalls htells
    refine ⟨?_, fun s base h => ?_⟩
    · rw [hcalls, hcall, List.append_assoc]
      refine congrArg (acc.2 ++ ·) ?_
      unfold samplesCall
      rw [List.filterMap_cons, List.filterMap_congr fun q hq => by rw [hrest q hq]]
      cases (sampleOutcome b bytes acc.1.now acc.1.tracks p).bind fun o => if o.decision then some p.2 else none <;> rfl
    · have h' := htells s _ (htell s base h)
      rw [List.append_assoc] at h'
      refine (congrArg (Tells trackKinds s _) (congrArg (base ++ ·) ?_)).mp h'
      unfold samplesTell
      rw [List.filterMap_cons, List.filterMap_congr fun q hq => by rw [hrest q hq]]
      cases (sampleOutcome b bytes acc.1.now acc.1.tracks p).bind fun o => o.event.map fun k => (k.1, p.2, k.2.code) <;> rfl

section
variable {b : Bank} {bytes : List Byte} {now : Time} {ts : Recs TrackRec} {l : List (Nat × Nat)}

theorem mem_samplesCall {n : Nat} : n ∈ samplesCall b bytes now ts l ↔
    ∃ ch o, (ch, n) ∈ l ∧ sampleOutcome b bytes now ts (ch, n) = some o ∧ o.decision = true := by
  unfold samplesCall
  rw [List.mem_filterMap]
  constructor
  · rintro ⟨⟨ch, m⟩, hm, ho⟩
    obtain ⟨o, hout, hdecision⟩ := Option.bind_eq_some_iff.1 ho
    split at hdecision
    · next hd =>
      cases hdecision
      exact ⟨ch, o, hm, hout, hd⟩
    · cases hdecision
  · rintro ⟨ch, o, hm, ho, hd⟩
    exact ⟨(ch, n), hm, by rw [ho, Option.bind_some, if_pos hd]⟩

theorem samplesCall_nodup (hd : (l.map Prod.snd).Nodup) : (samplesCall b bytes now ts l).Nodup := by
  refine hd.sublist ?_
  unfold samplesCall
  induction l with
  | nil => exact List.Sublist.slnil
  | cons p l ih =>
    rw [List.map_cons, List.nodup_cons] at hd
    rw [List.filterMap_cons]
    split
    · exact (ih hd.2).cons _
    · next m hm =>
      obtain ⟨o, -, ho⟩ := Option.bind_eq_some_iff.1 hm
      split at ho
      · cases ho
        exact (ih hd.2).cons_cons _
      · cases ho

theorem mem_samplesTell {k : EventKind} {n d : Nat} : (k, n, d) ∈ samplesTell b bytes now ts l ↔
    ∃ ch o c, (ch, n) ∈ l ∧ sampleOutcome b bytes now ts (ch, n) = some o ∧ o.event = some (k, c) ∧ d = c.code := by
  unfold samplesTell
  rw [List.mem_filterMap]
  constructor
  · rintro ⟨⟨ch, m⟩, hm, ho⟩
    obtain ⟨o, hout, hevent⟩ := Option.bind_eq_some_iff.1 ho
    obtain ⟨⟨k', c⟩, hk, he⟩ := Option.map_eq_some_iff.1 hevent
    cases he
    exact ⟨ch, o, c, hm, hout, hk, rfl⟩
  · rintro ⟨ch, o, c, hm, ho, hk, rfl⟩
    exact ⟨(ch, n), hm, by rw [ho, Option.bind_some, hk]; rfl⟩

end

/-! ### The proving judgements (R58, R59, R60) -/

section
variable {old new : Recs TrackRec} {e : TrackEntry} {n : Nat} {r : TrackRec}

theorem entered_iff {from' : List TrackState} (hf : .occupied ∉ from') : entered old new from' n = true ↔
    (∃ x ∈ from', trackState old n = some x) ∧ trackState new n = some .occupied := by
  unfold entered
  rw [trackMove_eq]
  cases hm : (onePass old new).move n with
  | none =>
    simp only [Bool.false_eq_true, false_iff, not_and]
    rintro ⟨x, hx, ho⟩ hn
    have hne : x ≠ .occupied := fun h => hf (h ▸ hx)
    cases hm.symm.trans (TrackPass.move_some.2 ⟨ho, hn, hne⟩)
  | some q =>
    obtain ⟨x, y⟩ := q
    obtain ⟨ho, hn, -⟩ := TrackPass.move_some.1 hm
    simp only [onePass] at ho hn
    simp only [Bool.and_eq_true, decide_eq_true_eq, List.contains_iff_mem, ho, hn, Option.some.injEq, exists_eq_right']
    exact and_comm

theorem standsOccupied_iff : standsOccupied new n = true ↔ Stands (trackState new) n := by
  unfold standsOccupied Stands trackState
  cases recAt new n <;> simp

theorem exitSeenAfter_iff (hr : recAt new n = some r) : exitSeenAfter old new e n r = true ↔
    (r.exitSeen = true ∧ ¬ (trackState new n = some .occupied ∧
      (trackState old n = some .clear ∨ trackState old n = some .failed ∨ trackState old n = some .suspect))) ∨
    (Stands (trackState new) n ∧ ∃ m ∈ e.neighbourNumbers, trackState old m = some .clear ∧ trackState new m = some .occupied) := by
  have hstate : trackState new n = some r.state := by rw [trackState, hr]; rfl
  have hentered : ∀ m, entered old new [.clear] m = true ↔ trackState old m = some .clear ∧ trackState new m = some .occupied :=
    fun m => (entered_iff (by decide)).trans (by simp)
  have hself : entered old new [.clear, .failed, .suspect] n = true ↔ trackState new n = some .occupied ∧
      (trackState old n = some .clear ∨ trackState old n = some .failed ∨ trackState old n = some .suspect) :=
    (entered_iff (by decide)).trans (by simp [and_comm])
  have hstands : Stands (trackState new) n ↔ r.state = .occupied ∨ r.state = .pickingUp := by
    unfold Stands
    rw [hstate, Option.some.injEq, Option.some.injEq]
  unfold exitSeenAfter
  simp only [Bool.or_eq_true, Bool.and_eq_true, decide_eq_true_eq, List.any_eq_true, hentered]
  rw [hstands]
  refine or_congr ?_ Iff.rfl
  rw [← hself]
  split
  · next h => simp [h]
  · next h => simp [h]

theorem unexpectedEntry_iff : unexpectedEntry old new e n r = true ↔ Unexplained e (onePass old new) n r := by
  have hentered : entered old new [.clear] n = true ↔ trackState old n = some .clear ∧ trackState new n = some .occupied :=
    (entered_iff (by decide)).trans (by simp)
  unfold unexpectedEntry Unexplained
  simp only [Bool.and_eq_true, hentered, Bool.not_eq_true', List.any_eq_false, standsOccupied_iff]
  simp only [onePass, and_assoc]

end

theorem provingJudged_tells (old : Recs TrackRec) (b : Bank) {y s : State} {base : List (EventKind × Nat × Nat)}
    (h : Tells trackKinds s y base) : Tells trackKinds s (provingJudged old b y) (base ++
      (y.tracks.filter fun p => unexpectedEntry old y.tracks (b.trackEntry p.1) p.1 p.2).map fun p =>
        (EventKind.unexpectedOccupation, p.1, p.2.s)) := by
  have htold : ∀ es : List (Nat × TrackRec), ofKinds trackKinds (es.map fun p => (EventKind.unexpectedOccupation, p.1, p.2.s)) =
      es.map fun p => (EventKind.unexpectedOccupation, p.1, p.2.s) := fun es =>
    List.filter_eq_self.2 fun x hx => by
      obtain ⟨p, -, rfl⟩ := List.mem_map.1 hx
      rfl
  have hraise : ∀ (z : State) (es : List (Nat × TrackRec)), Tells trackKinds s z base →
      Tells trackKinds s (raiseAll z (es.map fun p => (EventKind.unexpectedOccupation, p.1, p.2.s)))
        (base ++ es.map fun p => (EventKind.unexpectedOccupation, p.1, p.2.s)) := fun z es hz => by
    have hz' := hz.raiseAll (by decide) (es.map fun p => (EventKind.unexpectedOccupation, p.1, p.2.s))
    rwa [htold] at hz'
  exact hraise _ _ (h.congr rfl rfl)

end Sys2Proof.Machine
end

section
/-! PROOF. The second pass of a TRACK_SAMPLE, and both passes together: the records, the events and what the readers of tracks make
of them (R39, R46, R53, R61, R62, R84, R135, R141). -/

namespace Sys2Proof.Machine

/-! ### The clearing decisions (R61, R62) -/

/-- A track's record after its clearing decision. -/
def clearingRec (neighbours : Recs TrackRec) (e : TrackEntry) (r : TrackRec) : TrackRec :=
  if clearingGivesClear neighbours e r then cleared r else { r with state := .suspect, timer := none }

theorem clearingDecision_recAt (neighbours : Recs TrackRec) (b : Bank) (y : State) (t n : Nat) :
    recAt (clearingDecision neighbours b y t).tracks n =
      if n = t then (recAt y.tracks n).map (clearingRec neighbours (b.trackEntry n)) else recAt y.tracks n := by
  cases hr : recAt y.tracks t with
  | none =>
    have hnone : clearingDecision neighbours b y t = y := by
      unfold clearingDecision
      rw [hr]
    rw [hnone]
    split
    · next h => rw [h, hr]; rfl
    · rfl
  | some r =>
    by_cases hc : clearingGivesClear neighbours (b.trackEntry t) r = true
    · rw [clearingDecision_clears hr hc]
      refine (recAt_modifyRec y.tracks t n cleared).trans ?_
      split
      · next h => rw [h, hr, Option.map_some, Option.map_some, clearingRec, if_pos hc]
      · rfl
    · rw [clearingDecision_suspects hr hc]
      simp only [raise_same]
      refine (recAt_modifyRec y.tracks t n fun x : TrackRec => { x with state := .suspect, timer := none }).trans ?_
      split
      · next h => rw [h, hr, Option.map_some, Option.map_some, clearingRec, if_neg hc]
      · rfl

/-- The TRACK_SUSPECT of a clearing decision that does not give CLEAR (R62). -/
def clearingTells (neighbours : Recs TrackRec) (b : Bank) (ts : Recs TrackRec) (t : Nat) : Option (EventKind × Nat × Nat) :=
  (recAt ts t).bind fun r => if clearingGivesClear neighbours (b.trackEntry t) r then none else some (.trackSuspect, t, r.s)

theorem clearingDecision_tells {neighbours : Recs TrackRec} {b : Bank} {s y : State} {base : List (EventKind × Nat × Nat)}
    (h : Tells trackKinds s y base) (t : Nat) : Tells trackKinds s (clearingDecision neighbours b y t)
      (base ++ (clearingTells neighbours b y.tracks t).toList) := by
  unfold clearingDecision clearingTells
  cases recAt y.tracks t with
  | none => simpa using h
  | some r =>
    dsimp only [Option.bind_some]
    split
    · exact (congrArg (Tells trackKinds s _) (List.append_nil base).symm).mp (h.congr rfl rfl)
    · have hwritten : Tells trackKinds s (modifyTrack y t fun x => { x with state := .suspect, timer := none }) base := h.congr rfl rfl
      exact hwritten.raise (by decide) .trackSuspect t r.s

/-- The clearing decisions of distinct tracks, each on the record that the first pass left. -/
theorem clearingDecisions {neighbours : Recs TrackRec} {b : Bank} {ws : List Nat} (hd : ws.Nodup) (y : State) :
    (∀ n, recAt (ws.foldl (clearingDecision neighbours b) y).tracks n =
      if n ∈ ws then (recAt y.tracks n).map (clearingRec neighbours (b.trackEntry n)) else recAt y.tracks n) ∧
    ∀ s base, Tells trackKinds s y base → Tells trackKinds s (ws.foldl (clearingDecision neighbours b) y)
      (base ++ ws.filterMap (clearingTells neighbours b y.tracks)) := by
  induction ws generalizing y with
  | nil => exact ⟨fun n => (if_neg List.not_mem_nil).symm, fun s base h => by rw [List.filterMap_nil, List.append_nil]; exact h⟩
  | cons t ws ih =>
    rw [List.nodup_cons] at hd
    obtain ⟨hrec, htells⟩ := ih hd.2 (clearingDecision neighbours b y t)
    have hrest : ∀ m ∈ ws, recAt (clearingDecision neighbours b y t).tracks m = recAt y.tracks m := fun m hm =>
      (clearingDecision_recAt neighbours b y t m).trans (if_neg fun h : m = t => hd.1 (h ▸ hm))
    refine ⟨fun n => ?_, fun s base h => ?_⟩
    · rw [List.foldl_cons, hrec, clearingDecision_recAt]
      by_cases hnt : n = t
      · subst hnt
        simp [hd.1]
      · simp [hnt]
    · have h' := htells s _ (clearingDecision_tells h t)
      rw [List.append_assoc] at h'
      refine (congrArg (Tells trackKinds s _) (congrArg (base ++ ·) ?_)).mp h'
      rw [List.filterMap_cons, List.filterMap_congr fun m hm => show clearingTells neighbours b _ m = clearingTells neighbours b y.tracks m by
        unfold clearingTells
        rw [hrest m hm]]
      cases clearingTells neighbours b y.tracks t <;> rfl

/-! ### The two passes of an arrival -/

section
variable (b : Bank) (a : Nat) (bytes : List Byte) (y : State)

/-- The records as the samples leave them. -/
def sampled : State := (trackTakesAll b bytes (b.assignedChannels a) (y, [])).1

/-- The part between the passes: LE has concluded and DG has computed the modes. -/
def betweenState : State := modesComputed b (concludeLevers [] (firstPass b a bytes y).1)

/-- The part with the second pass made. -/
def sampledTwice : State := secondPass b (firstPass b a bytes y).2 (betweenState b a bytes y)

theorem firstPass_eq : firstPass b a bytes y =
    (tracksHanded y.tracks b (provingJudged y.tracks b (sampled b a bytes y)),
      (trackTakesAll b bytes (b.assignedChannels a) (y, [])).2) := rfl

theorem samplesTaken_eq (old : State) : concluded old (samplesTaken b a bytes y) =
    finishWith [] (y :: leverReadings [] (firstPass b a bytes y).1 ++ [betweenState b a bytes y]) old (sampledTwice b a bytes y) := rfl

/-- The records between the passes. -/
theorem betweenState_tracks : (betweenState b a bytes y).tracks = (provingJudged y.tracks b (sampled b a bytes y)).tracks := by
  unfold betweenState modesComputed
  simp only [concludeLevers_same, firstPass_eq, tracksHanded_same]

theorem betweenState_trackState : trackState (betweenState b a bytes y).tracks = trackState (sampled b a bytes y).tracks := by
  funext n
  unfold trackState
  rw [betweenState_tracks, provingJudged_recAt, Option.map_map]
  rfl

theorem samplesTaken_tracks (old : State) :
    (concluded old (samplesTaken b a bytes y)).tracks = (sampledTwice b a bytes y).tracks := by
  rw [samplesTaken_eq]
  simp only [finishWith_same]

end

/-! ### One track over the two passes -/

/-- A track's record after the proving judgements on the pass from `old` to `mid` (R58, R59, R60). -/
def judgedRec (old mid : Recs TrackRec) (e : TrackEntry) (n : Nat) (r : TrackRec) : TrackRec :=
  { r with exitSeen := exitSeenAfter old mid e n r, unexpected := r.unexpected || unexpectedEntry old mid e n r }

/-- A track's record `r` has become `r1` in the first pass from `old` to `mid`, and `r3` in the end: either no clearing decision was
called for, and the samples took it neither into CLEAR nor into SUSPECT, or one was, of a track that stood OCCUPIED (R46). -/
structure TrackRun (old mid neighbours : Recs TrackRec) (e : TrackEntry) (n : Nat) (r r1 r3 : TrackRec) : Prop where
  before : recAt old n = some r
  middle : recAt mid n = some r1
  flags : r1.exitSeen = r.exitSeen ∧ r1.provedOnce = r.provedOnce ∧ r1.unexpected = r.unexpected
  ends : (r3 = judgedRec old mid e n r1 ∧ (r1.state = .clear ∨ r1.state = .suspect → r.state = r1.state)) ∨
    (r.state = .occupied ∧ r1.state = .occupied ∧ r3 = clearingRec neighbours e (judgedRec old mid e n r1))

section
variable {old mid neighbours : Recs TrackRec} {e : TrackEntry} {n : Nat} {r r1 r3 : TrackRec}

theorem clearingRec_cases (neighbours : Recs TrackRec) (e : TrackEntry) (r : TrackRec) :
    clearingRec neighbours e r = cleared r ∨ clearingRec neighbours e r = { r with state := .suspect, timer := none } := by
  unfold clearingRec
  split
  · exact .inl rfl
  · exact .inr rfl

/-- The state between the passes is told by the states before and after the arrival (R39, R46). -/
theorem TrackRun.between (h : TrackRun old mid neighbours e n r r1 r3) {new : Recs TrackRec} (hnew : recAt new n = some r3) :
    betweenPasses old new n = trackState mid n := by
  have hold : trackState old n = some r.state := by rw [trackState, h.before]; rfl
  have hmid : trackState mid n = some r1.state := by rw [trackState, h.middle]; rfl
  have hend : trackState new n = some r3.state := by rw [trackState, hnew]; rfl
  unfold betweenPasses
  dsimp only
  rw [hold, hmid, hend]
  rcases h.ends with ⟨rfl, hreach⟩ | ⟨hocc, hstill, rfl⟩
  · refine if_neg ?_
    rintro ⟨ho, hn⟩
    have hstate : r.state = r1.state := hreach (by simpa [judgedRec] using hn)
    rw [Option.some.injEq] at ho
    rw [hstate] at ho
    simp [judgedRec, ho] at hn
  · rw [hstill]
    refine if_pos ⟨congrArg some hocc, ?_⟩
    rcases clearingRec_cases neighbours e (judgedRec old mid e n r1) with hc | hc <;> rw [hc]
    · exact .inl rfl
    · exact .inr rfl

/-- The track reaches CLEAR by a clearing decision, or not at all. -/
theorem TrackRun.clears_iff (h : TrackRun old mid neighbours e n r r1 r3) : (r.state ≠ .clear ∧ r3.state = .clear) ↔
    (r.state = .occupied ∧ r3 = cleared (judgedRec old mid e n r1)) := by
  constructor
  · rintro ⟨hne, hclear⟩
    rcases h.ends with ⟨rfl, hreach⟩ | ⟨hocc, -, rfl⟩
    · exact absurd ((hreach (.inl hclear)).trans hclear) hne
    · refine ⟨hocc, ?_⟩
      rcases clearingRec_cases neighbours e (judgedRec old mid e n r1) with hc | hc
      · exact hc
      · rw [hc] at hclear
        cases hclear
  · rintro ⟨hocc, rfl⟩
    exact ⟨by rw [hocc]; exact TrackState.noConfusion, rfl⟩

/-- Away from a clearing decision that gives CLEAR the flags are those judged on the pass. -/
theorem TrackRun.unclears (h : TrackRun old mid neighbours e n r r1 r3) (hn : ¬ (r.state ≠ .clear ∧ r3.state = .clear)) :
    r3.provedOnce = r1.provedOnce ∧ r3.unexpected = (judgedRec old mid e n r1).unexpected := by
  rcases h.ends with ⟨rfl, -⟩ | ⟨hocc, -, rfl⟩
  · exact ⟨rfl, rfl⟩
  · rcases clearingRec_cases neighbours e (judgedRec old mid e n r1) with hc | hc
    · exact absurd (h.clears_iff.2 ⟨hocc, hc⟩) hn
    · rw [hc]
      exact ⟨rfl, rfl⟩

theorem TrackRun.exitSeen (h : TrackRun old mid neighbours e n r r1 r3) : r3.exitSeen = exitSeenAfter old mid e n r1 := by
  rcases h.ends with ⟨rfl, -⟩ | ⟨-, -, rfl⟩
  · rfl
  · rcases clearingRec_cases neighbours e (judgedRec old mid e n r1) with hc | hc <;> rw [hc] <;> rfl

theorem unexplained_flags {p : TrackPass} (h : r1.provedOnce = r.provedOnce) : Unexplained e p n r1 ↔ Unexplained e p n r := by
  unfold Unexplained
  rw [h]

end

/-- Where every track has run through both passes, the flags follow the first (R58, R59, R60, R62). -/
theorem flagsFollow_of {b : Bank} {old mid new : Recs TrackRec} {nb : Recs TrackRec}
    (h : ∀ n r r', recAt old n = some r → recAt new n = some r' → ∃ r1, TrackRun old mid nb (b.trackEntry n) n r r1 r') :
    FlagsFollow b (onePass old mid) old new := by
  refine ⟨fun n r r' hr hr' => ?_, fun n r r' hr hr' => ?_, fun n r r' hr hr' => ?_⟩
  · obtain ⟨r1, hrun⟩ := h n r r' hr hr'
    rw [hrun.exitSeen, exitSeenAfter_iff hrun.middle, hrun.flags.1]
    rfl
  · obtain ⟨r1, hrun⟩ := h n r r' hr hr'
    by_cases hc : r.state ≠ .clear ∧ r'.state = .clear
    · rw [(hrun.clears_iff.1 hc).2]
      exact ⟨fun _ => .inr ⟨hc.1, rfl⟩, fun _ => rfl⟩
    · rw [(hrun.unclears hc).1, hrun.flags.2.1]
      exact ⟨.inl, fun hd => hd.resolve_right hc⟩
  · obtain ⟨r1, hrun⟩ := h n r r' hr hr'
    by_cases hc : r.state ≠ .clear ∧ r'.state = .clear
    · have hfalse : r'.unexpected = false := by rw [(hrun.clears_iff.1 hc).2]; rfl
      rw [hfalse]
      exact ⟨fun hf => Bool.noConfusion hf, fun hd => absurd hc hd.2⟩
    · rw [(hrun.unclears hc).2]
      unfold judgedRec
      dsimp only
      rw [Bool.or_eq_true, unexpectedEntry_iff, hrun.flags.2.2, unexplained_flags hrun.flags.2.1]
      exact ⟨fun hd => ⟨hd, hc⟩, And.left⟩

/-! ### The records of an arrival -/

section
variable {b : Bank} {a : Nat} {bytes : List Byte} {y : State}

theorem trackTakesAll_absent {l : List (Nat × Nat)} {n : Nat} (acc : State × List Nat) (hn : recAt acc.1.tracks n = none) :
    recAt (trackTakesAll b bytes l acc).1.tracks n = none := by
  induction l generalizing acc with
  | nil => exact hn
  | cons p l ih =>
    rw [trackTakesAll_cons]
    refine ih _ ?_
    by_cases hp : n = p.2
    · subst hp
      unfold trackTakes
      rw [hn]
      exact hn
    · exact (trackTakes_other hp).trans hn

theorem sampledTwice_recAt (hd : ((b.assignedChannels a).map Prod.snd).Nodup) (n : Nat) :
    recAt (sampledTwice b a bytes y).tracks n =
      if n ∈ samplesCall b bytes y.now y.tracks (b.assignedChannels a) then
        (recAt (sampled b a bytes y).tracks n).map fun r =>
          clearingRec (betweenState b a bytes y).tracks (b.trackEntry n) (judgedRec y.tracks (sampled b a bytes y).tracks (b.trackEntry n) n r)
      else (recAt (sampled b a bytes y).tracks n).map (judgedRec y.tracks (sampled b a bytes y).tracks (b.trackEntry n) n) := by
  have hcall : (firstPass b a bytes y).2 = samplesCall b bytes y.now y.tracks (b.assignedChannels a) := by
    rw [firstPass_eq, (trackTakesAll_outcomes hd (y, [])).1, List.nil_append]
  have hjudged : recAt (betweenState b a bytes y).tracks n =
      (recAt (sampled b a bytes y).tracks n).map (judgedRec y.tracks (sampled b a bytes y).tracks (b.trackEntry n) n) := by
    rw [betweenState_tracks, provingJudged_recAt]
    rfl
  unfold sampledTwice secondPass
  simp only [tracksHanded_same]
  rw [hcall, (clearingDecisions (samplesCall_nodup hd) _).1 n, hjudged, Option.map_map]
  rfl

/-- The run of a track that a channel of the unit serves. -/
theorem sampled_run (hd : ((b.assignedChannels a).map Prod.snd).Nodup) {ch n : Nat} (hm : (ch, n) ∈ b.assignedChannels a)
    {r : TrackRec} (hr : recAt y.tracks n = some r) :
    let o := sampleDecision y.now (b.trackEntry n) (sampleAt bytes ch) (computed (b.trackEntry n) (sampleAt bytes ch) r)
    let judged := judgedRec y.tracks (sampled b a bytes y).tracks (b.trackEntry n) n o.record
    let ended := if o.decision then clearingRec (betweenState b a bytes y).tracks (b.trackEntry n) judged else judged
    recAt (sampledTwice b a bytes y).tracks n = some ended ∧
      TrackRun y.tracks (sampled b a bytes y).tracks (betweenState b a bytes y).tracks (b.trackEntry n) n r o.record ended := by
  intro o judged ended
  have hmid : recAt (sampled b a bytes y).tracks n = some o.record := trackTakesAll_self hd hm (y, []) hr
  have hcalled : n ∈ samplesCall b bytes y.now y.tracks (b.assignedChannels a) ↔ o.decision = true := by
    rw [mem_samplesCall]
    have hout : sampleOutcome b bytes y.now y.tracks (ch, n) = some o := by
      unfold sampleOutcome
      rw [hr]
      rfl
    constructor
    · rintro ⟨ch', o', hm', ho', hdecision⟩
      have hsame : (ch', n) = (ch, n) := List.inj_on_of_nodup_map hd hm' hm rfl
      cases hsame
      cases hout.symm.trans ho'
      exact hdecision
    · exact fun hdecision => ⟨ch, o, hm, hout, hdecision⟩
  have hflags := sampleDecision_flags y.now (b.trackEntry n) (sampleAt bytes ch) (computed (b.trackEntry n) (sampleAt bytes ch) r)
  refine ⟨?_, hr, hmid, hflags, ?_⟩
  · rw [sampledTwice_recAt hd, hmid]
    simp only [hcalled]
    split
    · next hdecision => exact congrArg some (if_pos hdecision).symm
    · next hdecision => exact congrArg some (if_neg hdecision).symm
  · by_cases hdecision : o.decision = true
    · obtain ⟨hocc, hrecord, -⟩ := sampleDecision_calls _ _ _ _ hdecision
      exact .inr ⟨hocc, (congrArg TrackRec.state hrecord).trans hocc, if_pos hdecision⟩
    · refine .inl ⟨if_neg hdecision, fun hreach => ?_⟩
      exact sampleDecision_reaches y.now (b.trackEntry n) (sampleAt bytes ch) (computed (b.trackEntry n) (sampleAt bytes ch) r)
        hreach rfl

/-- A track that no channel of the unit serves only has its flags judged (R39, R58). -/
theorem unsampled_run (hd : ((b.assignedChannels a).map Prod.snd).Nodup) {n : Nat}
    (hn : n ∉ (b.assignedChannels a).map Prod.snd) {r : TrackRec} (hr : recAt y.tracks n = some r) :
    recAt (sampledTwice b a bytes y).tracks n = some (judgedRec y.tracks (sampled b a bytes y).tracks (b.trackEntry n) n r) ∧
      TrackRun y.tracks (sampled b a bytes y).tracks (betweenState b a bytes y).tracks (b.trackEntry n) n r r
        (judgedRec y.tracks (sampled b a bytes y).tracks (b.trackEntry n) n r) := by
  have hmid : recAt (sampled b a bytes y).tracks n = some r := (trackTakesAll_other hn (y, [])).trans hr
  refine ⟨?_, hr, hmid, ⟨rfl, rfl, rfl⟩, .inl ⟨rfl, fun _ => rfl⟩⟩
  rw [sampledTwice_recAt hd, hmid, if_neg, Option.map_some]
  intro hc
  obtain ⟨ch, o, hm, -⟩ := mem_samplesCall.1 hc
  exact hn (List.mem_map.2 ⟨_, hm, rfl⟩)

/-- Every track runs through both passes. -/
theorem sampledTwice_run (hd : ((b.assignedChannels a).map Prod.snd).Nodup) {n : Nat} {r : TrackRec}
    (hr : recAt y.tracks n = some r) : ∃ r1 r3, recAt (sampledTwice b a bytes y).tracks n = some r3 ∧
      TrackRun y.tracks (sampled b a bytes y).tracks (betweenState b a bytes y).tracks (b.trackEntry n) n r r1 r3 := by
  by_cases hn : n ∈ (b.assignedChannels a).map Prod.snd
  · obtain ⟨⟨ch, m⟩, hm, rfl⟩ := List.mem_map.1 hn
    exact ⟨_, _, sampled_run hd hm hr⟩
  · exact ⟨_, _, unsampled_run hd hn hr⟩

theorem sampledTwice_between (hd : ((b.assignedChannels a).map Prod.snd).Nodup) :
    betweenPasses y.tracks (sampledTwice b a bytes y).tracks = trackState (sampled b a bytes y).tracks := by
  funext n
  cases hr : recAt y.tracks n with
  | some r =>
    obtain ⟨r1, r3, hnew, hrun⟩ := sampledTwice_run (bytes := bytes) hd hr
    exact hrun.between hnew
  | none =>
    have hmid : recAt (sampled b a bytes y).tracks n = none := trackTakesAll_absent (y, []) hr
    have hnew : recAt (sampledTwice b a bytes y).tracks n = none := by
      rw [sampledTwice_recAt hd, hmid]
      exact ite_self none
    unfold betweenPasses trackState
    rw [hr, hmid, hnew]
    rfl

theorem sampledTwice_flags (hd : ((b.assignedChannels a).map Prod.snd).Nodup) :
    FlagsFollow b (samplePass y.tracks (sampledTwice b a bytes y).tracks) y.tracks (sampledTwice b a bytes y).tracks := by
  unfold samplePass
  rw [sampledTwice_between hd]
  refine flagsFollow_of (nb := (betweenState b a bytes y).tracks) fun n r r' hr hr' => ?_
  obtain ⟨r1, r3, hnew, hrun⟩ := sampledTwice_run (bytes := bytes) hd hr
  cases hnew.symm.trans hr'
  exact ⟨r1, hrun⟩

end

end Sys2Proof.Machine
end

section
/-! PROOF. What a TRACK_SAMPLE makes of a sampled track, and the events that it raises (R44 to R51, R60, R61, R62). -/

namespace Sys2Proof.Machine

/-! ### The events of both passes -/

/-- The UNEXPECTED_OCCUPATION of the records `mid` that a pass leaves (R60). -/
def entriesTell (b : Bank) (old mid : Recs TrackRec) : List (EventKind × Nat × Nat) :=
  (mid.filter fun p => unexpectedEntry old mid (b.trackEntry p.1) p.1 p.2).map fun p => (.unexpectedOccupation, p.1, p.2.s)

/-- The events of tracks that a TRACK_SAMPLE raises: of its samples, of the proving judgements, of its clearing decisions. -/
def sampleEvents (b : Bank) (a : Nat) (bytes : List Byte) (y : State) : List (EventKind × Nat × Nat) :=
  samplesTell b bytes y.now y.tracks (b.assignedChannels a) ++ entriesTell b y.tracks (sampled b a bytes y).tracks ++
    (samplesCall b bytes y.now y.tracks (b.assignedChannels a)).filterMap
      (clearingTells (betweenState b a bytes y).tracks b (betweenState b a bytes y).tracks)

theorem Tells.tracksHanded {s y : State} {base : List (EventKind × Nat × Nat)} (h : Tells trackKinds s y base)
    (old : Recs TrackRec) (b : Bank) : Tells trackKinds s (Machine.tracksHanded old b y) base :=
  h.congr (by simp) (by simp)

/-- What DG and LE do between the passes tells of no track. -/
theorem Tells.passConcluded {s y : State} {base : List (EventKind × Nat × Nat)} (h : Tells trackKinds s y base) (b : Bank) :
    Tells trackKinds s (modesComputed b (concludeLevers [] y)) base := by
  have hread : Tells trackKinds s (concludeLevers [] y) base :=
    (Tells.endKeeps (ks := trackKinds) (by decide) (by decide)).concludeLevers [] h
  unfold modesComputed
  exact hread.congr rfl rfl

section
variable {b : Bank} {a : Nat} {bytes : List Byte} {y : State}

theorem firstPass_calls (hd : ((b.assignedChannels a).map Prod.snd).Nodup) :
    (firstPass b a bytes y).2 = samplesCall b bytes y.now y.tracks (b.assignedChannels a) := by
  rw [firstPass_eq, (trackTakesAll_outcomes hd (y, [])).1, List.nil_append]

theorem betweenState_tells (hd : ((b.assignedChannels a).map Prod.snd).Nodup) {s : State} {base : List (EventKind × Nat × Nat)}
    (h : Tells trackKinds s y base) : Tells trackKinds s (betweenState b a bytes y)
      (base ++ samplesTell b bytes y.now y.tracks (b.assignedChannels a) ++ entriesTell b y.tracks (sampled b a bytes y).tracks) := by
  have hsampled : Tells trackKinds s (sampled b a bytes y) _ := (trackTakesAll_outcomes (b := b) (bytes := bytes) hd (y, [])).2 s base h
  have hfirst := (provingJudged_tells y.tracks b hsampled).tracksHanded y.tracks b
  unfold betweenState
  rw [firstPass_eq]
  exact hfirst.passConcluded b

theorem sampledTwice_tells (hd : ((b.assignedChannels a).map Prod.snd).Nodup) {s : State} {base : List (EventKind × Nat × Nat)}
    (h : Tells trackKinds s y base) : Tells trackKinds s (sampledTwice b a bytes y) (base ++ sampleEvents b a bytes y) := by
  have hbetween := betweenState_tells (bytes := bytes) hd h
  have hcalls : (samplesCall b bytes y.now y.tracks (b.assignedChannels a)).Nodup := samplesCall_nodup hd
  unfold sampledTwice secondPass sampleEvents
  rw [firstPass_calls hd, ← List.append_assoc, ← List.append_assoc]
  exact ((clearingDecisions hcalls (betweenState b a bytes y)).2 s _ hbetween).tracksHanded _ b

/-- Each entry of the records that a sample wrote holds the record of its decision. -/
theorem trackTakesAll_entries {l : List (Nat × Nat)} {ch n : Nat} {r : TrackRec} (hd : (l.map Prod.snd).Nodup) (hm : (ch, n) ∈ l)
    (acc : State × List Nat) (hr : recAt acc.1.tracks n = some r) :
    ∀ p ∈ (trackTakesAll b bytes l acc).1.tracks, p.1 = n →
      recAt (trackTakesAll b bytes l acc).1.tracks n = some p.2 := by
  have hkeeps : ∀ (l : List (Nat × Nat)) (acc : State × List Nat), n ∉ l.map Prod.snd →
      (∀ p ∈ acc.1.tracks, p.1 = n → recAt acc.1.tracks n = some p.2) →
      ∀ p ∈ (trackTakesAll b bytes l acc).1.tracks, p.1 = n → recAt (trackTakesAll b bytes l acc).1.tracks n = some p.2 := by
    intro l
    induction l with
    | nil => exact fun acc _ h => h
    | cons q l ih =>
      intro acc hn h
      rw [List.map_cons, List.mem_cons, not_or] at hn
      rw [trackTakesAll_cons]
      refine ih _ hn.2 fun p hp hpn => ?_
      rw [trackTakes_other hn.1]
      refine h p ?_ hpn
      cases hq : recAt acc.1.tracks q.2 with
      | none =>
        unfold trackTakes at hp
        rw [hq] at hp
        exact hp
      | some x =>
        rw [trackTakes_tracks hq, modifyRec, List.mem_map] at hp
        obtain ⟨p', hp', rfl⟩ := hp
        split at hpn
        · next hpq => exact absurd (hpn.symm.trans hpq) hn.1
        · next hpq => rwa [if_neg hpq]
  induction l generalizing acc with
  | nil => cases hm
  | cons q l ih =>
    rw [List.map_cons, List.nodup_cons] at hd
    rw [trackTakesAll_cons]
    rcases List.mem_cons.1 hm with rfl | hm
    · refine hkeeps l _ hd.1 fun p hp hpn => ?_
      rw [trackTakes_self hr]
      rw [trackTakes_tracks hr, modifyRec, List.mem_map] at hp
      obtain ⟨p', -, rfl⟩ := hp
      split at hpn
      · next hpq => rw [if_pos hpq]
      · next hpq => exact absurd hpn hpq
    · have hq : n ≠ q.2 := fun h => hd.1 (h ▸ List.mem_map_of_mem (f := Prod.snd) hm)
      exact ih hd.2 hm _ ((trackTakes_other hq).trans hr)

/-- The events that a sampled track gives cause for. -/
theorem mem_sampleEvents (hd : ((b.assignedChannels a).map Prod.snd).Nodup) {ch n : Nat} (hm : (ch, n) ∈ b.assignedChannels a)
    {r : TrackRec} (hr : recAt y.tracks n = some r) (k : EventKind) (d : Nat) :
    let e := b.trackEntry n
    let o := sampleDecision y.now e (sampleAt bytes ch) (computed e (sampleAt bytes ch) r)
    let judged := judgedRec y.tracks (sampled b a bytes y).tracks e n o.record
    (k, n, d) ∈ sampleEvents b a bytes y ↔ (∃ c, o.event = some (k, c) ∧ d = c.code) ∨
      (k = .unexpectedOccupation ∧ Unexplained e (onePass y.tracks (sampled b a bytes y).tracks) n r ∧ d = o.record.s) ∨
      (k = .trackSuspect ∧ o.decision = true ∧ ¬ clearingGivesClear (betweenState b a bytes y).tracks e judged = true ∧
        d = o.record.s) := by
  intro e o judged
  obtain ⟨hnew, hrun⟩ := sampled_run (bytes := bytes) hd hm hr
  have hmid : recAt (sampled b a bytes y).tracks n = some o.record := hrun.middle
  have hout : sampleOutcome b bytes y.now y.tracks (ch, n) = some o := by
    unfold sampleOutcome
    rw [hr]
    rfl
  have honly : ∀ ch' o', (ch', n) ∈ b.assignedChannels a → sampleOutcome b bytes y.now y.tracks (ch', n) = some o' → o' = o := by
    intro ch' o' hm' ho'
    have hsame : (ch', n) = (ch, n) := List.inj_on_of_nodup_map hd hm' hm rfl
    cases hsame
    exact (Option.some.inj (hout.symm.trans ho')).symm
  have hjudged : recAt (betweenState b a bytes y).tracks n = some judged := by
    rw [betweenState_tracks, provingJudged_recAt, hmid]
    rfl
  have hsample : (k, n, d) ∈ samplesTell b bytes y.now y.tracks (b.assignedChannels a) ↔ ∃ c, o.event = some (k, c) ∧ d = c.code := by
    rw [mem_samplesTell]
    constructor
    · rintro ⟨ch', o', c, hm', ho', hk, hc⟩
      exact ⟨c, honly ch' o' hm' ho' ▸ hk, hc⟩
    · rintro ⟨c, hk, hc⟩
      exact ⟨ch, o, c, hm, hout, hk, hc⟩
  have hentry : (k, n, d) ∈ entriesTell b y.tracks (sampled b a bytes y).tracks ↔ k = .unexpectedOccupation ∧
      Unexplained e (onePass y.tracks (sampled b a bytes y).tracks) n r ∧ d = o.record.s := by
    unfold entriesTell
    simp only [List.mem_map, List.mem_filter, Prod.mk.injEq]
    constructor
    · rintro ⟨p, ⟨hp, hu⟩, rfl, hpn, rfl⟩
      have hrec : p.2 = o.record :=
        (Option.some.inj (hmid.symm.trans (trackTakesAll_entries hd hm (y, []) hr p hp hpn))).symm
      rw [hpn, hrec, unexpectedEntry_iff, unexplained_flags hrun.flags.2.1] at hu
      exact ⟨rfl, hu, congrArg TrackRec.s hrec⟩
    · rintro ⟨rfl, hu, rfl⟩
      refine ⟨(n, o.record), ⟨recAt_mem hmid, ?_⟩, rfl, rfl, rfl⟩
      exact unexpectedEntry_iff.2 ((unexplained_flags hrun.flags.2.1).2 hu)
  have hclearing : (k, n, d) ∈ (samplesCall b bytes y.now y.tracks (b.assignedChannels a)).filterMap
      (clearingTells (betweenState b a bytes y).tracks b (betweenState b a bytes y).tracks) ↔ k = .trackSuspect ∧
      o.decision = true ∧ ¬ clearingGivesClear (betweenState b a bytes y).tracks e judged = true ∧ d = o.record.s := by
    have htells : ∀ t, clearingTells (betweenState b a bytes y).tracks b (betweenState b a bytes y).tracks t = some (k, n, d) ↔
        t = n ∧ k = .trackSuspect ∧ ¬ clearingGivesClear (betweenState b a bytes y).tracks e judged = true ∧ d = o.record.s := by
      intro t
      unfold clearingTells
      constructor
      · intro ht
        obtain ⟨x, hx, htold⟩ := Option.bind_eq_some_iff.1 ht
        split at htold
        · cases htold
        · next hn =>
          cases htold
          cases hjudged.symm.trans hx
          exact ⟨rfl, rfl, hn, rfl⟩
      · rintro ⟨rfl, rfl, hn, rfl⟩
        rw [hjudged]
        exact if_neg hn
    simp only [List.mem_filterMap, htells, mem_samplesCall]
    constructor
    · rintro ⟨t, ⟨ch', o', hm', ho', hdec⟩, rfl, hrest⟩
      obtain ⟨hk, hn, hd'⟩ := hrest
      exact ⟨hk, honly ch' o' hm' ho' ▸ hdec, hn, hd'⟩
    · rintro ⟨hk, hdec, hn, hd'⟩
      exact ⟨n, ⟨ch, o, hm, hout, hdec⟩, rfl, hk, hn, hd'⟩
  unfold sampleEvents
  rw [List.mem_append, List.mem_append, hsample, hentry, hclearing, or_assoc]

end

/-! ### A sampled track -/

theorem clearingGivesClear_clears (neighbours : Recs TrackRec) (e : TrackEntry) (r : TrackRec) :
    clearingGivesClear neighbours e r = true ↔ Clears e (trackState neighbours) r.exitSeen r := by
  rw [clearingGivesClear_iff]
  unfold Clears Stands trackState
  simp only [Option.map_eq_some_iff, ← exists_or, ← and_or_left]

/-- What a sampled track with the record `r` becomes, and the events for which it gives cause. -/
structure SampleEnds (now : Time) (e : TrackEntry) (x : Sample) (states : Nat → Option TrackState) (r r' : TrackRec) : Prop where
  table : SampleTable now e x r r' (r'.timer = none ∧ (Clears e states r'.exitSeen r → r'.state = .clear) ∧
    (¬ Clears e states r'.exitSeen r → r'.state = .suspect))
  failed : ∀ c, (sampleDecision now e x (computed e x r)).event = some (.trackFailed, c) ↔
    r.state ≠ .suspect ∧ r'.state = .failed ∧ r'.cause = some c ∧ ¬ (r.state = .failed ∧ r.cause = some c)
  recovered : ∀ c, (sampleDecision now e x (computed e x r)).event = some (.trackRecovered, c) ↔
    r.state = .failed ∧ r'.state = .occupied ∧ r.cause = some c
  filtered : r'.s = (sampleDecision now e x (computed e x r)).record.s

section
variable {now : Time} {e : TrackEntry} {x : Sample} {r : TrackRec} {nb : Recs TrackRec}

/-- Without a clearing decision the record is the sample's, but for the flags judged. -/
theorem sampleEnds_quiet (hdec : ¬ (sampleDecision now e x (computed e x r)).decision = true) (states : Nat → Option TrackState)
    {r' : TrackRec} (hr : r' = { (sampleDecision now e x (computed e x r)).record with exitSeen := r'.exitSeen, unexpected := r'.unexpected }) :
    SampleEnds now e x states r r' := by
  have hevent := sampleDecision_event now e x (computed e x r)
  have hstate : r'.state = (sampleDecision now e x (computed e x r)).record.state := by rw [hr]
  have hcause : r'.cause = (sampleDecision now e x (computed e x r)).record.cause := by rw [hr]
  have hs : r'.s = (sampleDecision now e x (computed e x r)).record.s := by rw [hr]
  refine ⟨?_, fun c => ?_, fun c => ?_, hs⟩
  · refine (sampleDecision_table now e x (computed e x r)).congr hstate hcause ?_ ?_ fun h => absurd h hdec
    · rw [hr]
    · rw [hr]; rfl
  · rw [hevent, hstate, hcause]
    simp only [true_and, reduceCtorEq, false_and, or_false]
    rfl
  · rw [hevent, hstate]
    simp only [reduceCtorEq, false_and, false_or, true_and]
    rfl

/-- A clearing decision takes an OCCUPIED track to CLEAR or to SUSPECT. -/
theorem sampleEnds_called (hdec : (sampleDecision now e x (computed e x r)).decision = true) {judged : TrackRec}
    (hj : judged = { (sampleDecision now e x (computed e x r)).record with
      exitSeen := judged.exitSeen, unexpected := judged.unexpected }) :
    SampleEnds now e x (trackState nb) r (clearingRec nb e judged) := by
  obtain ⟨hocc, hrecord, hnone, -⟩ := sampleDecision_calls now e x (computed e x r) hdec
  have hocc : r.state = .occupied := hocc
  have hproved : judged.provedOnce = r.provedOnce := by rw [hj, hrecord]; rfl
  have hgives : clearingGivesClear nb e judged = true ↔ Clears e (trackState nb) judged.exitSeen r := by
    rw [clearingGivesClear_clears]
    unfold Clears
    rw [hproved]
  have hcore : sampleCore judged = sampleCore (computed e x r) := by rw [hj, hrecord]; rfl
  have hended : (clearingRec nb e judged).exitSeen = judged.exitSeen ∧ (clearingRec nb e judged).timer = none ∧
      sampleCore (clearingRec nb e judged) = sampleCore judged ∧
      (Clears e (trackState nb) judged.exitSeen r → (clearingRec nb e judged).state = .clear) ∧
      (¬ Clears e (trackState nb) judged.exitSeen r → (clearingRec nb e judged).state = .suspect) := by
    rw [← hgives]
    unfold clearingRec
    split
    · next h => exact ⟨rfl, rfl, rfl, fun _ => rfl, fun hn => absurd h hn⟩
    · next h => exact ⟨rfl, rfl, rfl, fun hc => absurd hc h, fun _ => rfl⟩
  obtain ⟨hseen, htimer, hrest, hclear, hsuspect⟩ := hended
  have hstates : (clearingRec nb e judged).state = .clear ∨ (clearingRec nb e judged).state = .suspect :=
    (em _).imp hclear hsuspect
  refine ⟨?_, fun c => ?_, fun c => ?_, ?_⟩
  · rw [hseen]
    show SampleTable now e x (computed e x r) _ _
    exact SampleTable.called hdec (hrest.trans hcore) ⟨htimer, hclear, hsuspect⟩
  · rw [hnone]
    refine ⟨nofun, fun h => ?_⟩
    rcases hstates with hc | hc <;> cases hc.symm.trans h.2.1
  · rw [hnone, hocc]
    exact ⟨nofun, fun h => nomatch h.1⟩
  · rw [hrecord]
    exact (congrArg (fun z : TrackRec => z.s) (hrest.trans hcore) :)

theorem sampleEnds_judged {judged : TrackRec} (hj : judged = { (sampleDecision now e x (computed e x r)).record with
      exitSeen := judged.exitSeen, unexpected := judged.unexpected }) :
    SampleEnds now e x (trackState nb) r
      (if (sampleDecision now e x (computed e x r)).decision then clearingRec nb e judged else judged) := by
  split
  · next hdec => exact sampleEnds_called hdec hj
  · next hdec => exact sampleEnds_quiet hdec _ hj

/-- A track reaches SUSPECT by a clearing decision that does not give CLEAR (R62). -/
theorem judged_suspects {judged : TrackRec} (hj : judged = { (sampleDecision now e x (computed e x r)).record with
      exitSeen := judged.exitSeen, unexpected := judged.unexpected }) :
    (sampleDecision now e x (computed e x r)).decision = true ∧ ¬ clearingGivesClear nb e judged = true ↔ r.state ≠ .suspect ∧
      (if (sampleDecision now e x (computed e x r)).decision then clearingRec nb e judged else judged).state = .suspect := by
  split
  · next hdec =>
    have hocc : r.state = .occupied := (sampleDecision_calls now e x (computed e x r) hdec).1
    rw [hocc]
    unfold clearingRec
    split
    · next hc => exact ⟨fun h => absurd hc h.2, nofun⟩
    · next hc => exact ⟨fun _ => ⟨nofun, rfl⟩, fun _ => ⟨hdec, hc⟩⟩
  · next hdec =>
    have hreaches := sampleDecision_reaches now e x (computed e x r) (.inr rfl)
    rw [hj]
    exact ⟨fun h => absurd h.1 hdec, fun h => absurd (hreaches h.2) h.1⟩

end

section
variable {b : Bank} {a : Nat} {bytes : List Byte} {y : State}

/-- What a sampled track becomes, and its events. -/
theorem sampled_ends (hd : ((b.assignedChannels a).map Prod.snd).Nodup) {ch n : Nat} (hm : (ch, n) ∈ b.assignedChannels a)
    {r : TrackRec} (hr : recAt y.tracks n = some r) :
    let e := b.trackEntry n
    let states := betweenPasses y.tracks (sampledTwice b a bytes y).tracks
    ∃ r', recAt (sampledTwice b a bytes y).tracks n = some r' ∧ SampleEnds y.now e (sampleAt bytes ch) states r r' ∧
      ∀ k d, (k, n, d) ∈ sampleEvents b a bytes y ↔
        (∃ c, (sampleDecision y.now e (sampleAt bytes ch) (computed e (sampleAt bytes ch) r)).event = some (k, c) ∧ d = c.code) ∨
        (k = .unexpectedOccupation ∧ Unexplained e (samplePass y.tracks (sampledTwice b a bytes y).tracks) n r ∧ d = r'.s) ∨
        (k = .trackSuspect ∧ r.state ≠ .suspect ∧ r'.state = .suspect ∧ d = r'.s) := by
  intro e states
  obtain ⟨hnew, hrun⟩ := sampled_run (bytes := bytes) hd hm hr
  have hevents := mem_sampleEvents (bytes := bytes) hd hm hr
  have hstates : trackState (betweenState b a bytes y).tracks = states :=
    (betweenState_trackState b a bytes y).trans (sampledTwice_between hd).symm
  have hpass : onePass y.tracks (sampled b a bytes y).tracks = samplePass y.tracks (sampledTwice b a bytes y).tracks := by
    unfold samplePass
    rw [sampledTwice_between hd]
    rfl
  dsimp only at hnew hevents
  simp only [hpass] at hevents
  generalize hjudged : judgedRec y.tracks (sampled b a bytes y).tracks (b.trackEntry n) n
    (sampleDecision y.now (b.trackEntry n) (sampleAt bytes ch) (computed (b.trackEntry n) (sampleAt bytes ch) r)).record = judged
    at hnew hevents
  have hj : judged = { (sampleDecision y.now e (sampleAt bytes ch) (computed e (sampleAt bytes ch) r)).record with
      exitSeen := judged.exitSeen, unexpected := judged.unexpected } := by
    rw [← hjudged]
    rfl
  have hends : SampleEnds y.now e (sampleAt bytes ch) states r _ := hstates ▸ sampleEnds_judged (nb := (betweenState b a bytes y).tracks) hj
  refine ⟨_, hnew, hends, fun k d => (hevents k d).trans ?_⟩
  rw [hends.filtered]
  refine or_congr_right (or_congr_right (and_congr_right fun _ => ?_))
  rw [← and_assoc, ← and_assoc]
  exact and_congr_left fun _ => judged_suspects hj

end

end Sys2Proof.Machine
end

section
/-! PROOF. What a TRACK_SAMPLE leaves: the readers of tracks over both passes, and all that it does not touch (R39, R53, R84, R135,
R141). -/

namespace Sys2Proof.Machine

/-! ### What the readers of tracks may lose -/

/-- From `s` to `t` a section moves in its consumption and its progress alone, and a lever, LE's conclusions apart, only by the end
of its approach lock. -/
structure ReadersMove (s t : State) : Prop where
  sections : ∀ n r, recAt s.sections n = some r → ∃ r', recAt t.sections n = some r' ∧
    r' = { r with consumed := r'.consumed, progress := r'.progress }
  levers : ∀ n l, recAt s.levers n = some l → ∃ l', recAt t.levers n = some l' ∧ l'.position = l.position ∧
    l'.catchUp = l.catchUp ∧ l'.violation = l.violation ∧ (l'.approach = l.approach ∨ l'.approach = none)

theorem ReadersMove.of_same {s t : State} (hs : t.sections = s.sections) (hl : t.levers = s.levers) : ReadersMove s t :=
  ⟨fun _ r hr => ⟨r, hs ▸ hr, rfl⟩, fun _ l h => ⟨l, hl ▸ h, rfl, rfl, rfl, .inl rfl⟩⟩

theorem ReadersMove.trans {s t r : State} (h : ReadersMove s t) (h' : ReadersMove t r) : ReadersMove s r := by
  refine ⟨fun n x hx => ?_, fun n l hl => ?_⟩
  · obtain ⟨y, hy, hxy⟩ := h.sections n x hx
    obtain ⟨z, hz, hyz⟩ := h'.sections n y hy
    exact ⟨z, hz, by rw [hyz, hxy]⟩
  · obtain ⟨y, hy, hp, hc, hv, ha⟩ := h.levers n l hl
    obtain ⟨z, hz, hp', hc', hv', ha'⟩ := h'.levers n y hy
    refine ⟨z, hz, hp'.trans hp, hc'.trans hc, hv'.trans hv, ?_⟩
    rcases ha' with ha' | ha'
    · rw [ha']
      exact ha
    · exact .inr ha'

theorem ReadersMove.concluded {x t : State} (h : Concluded x t) : ReadersMove x t := by
  refine ⟨fun n r hr => ⟨r, ?_, rfl⟩, fun n l hl => ?_⟩
  · rw [h.rest]
    exact hr
  · obtain ⟨l', hl', hp, hc, hv, ha⟩ := h.lever hl
    exact ⟨l', hl', hp, hc, hv, .inl ha⟩

theorem ReadersMove.handed (old : Recs TrackRec) (b : Bank) (s : State) : ReadersMove s (tracksHanded old b s) := by
  refine ⟨fun n r hr => ⟨_, (tracksHanded_section old b s n).trans (congrArg _ hr), rfl⟩, fun n l hl => ?_⟩
  refine ⟨_, (tracksHanded_lever old b s n).trans (congrArg _ hl), ?_⟩
  unfold approachAfter
  dsimp only
  split
  · exact ⟨rfl, rfl, rfl, .inr rfl⟩
  · exact ⟨rfl, rfl, rfl, .inl rfl⟩

/-! ### Passes one after the other -/

theorem progressAfter_append {count : Nat} {l l' : List (Nat × TrackState × TrackState)} {p m q : Progress}
    (h : ProgressAfter count l p m) (h' : ProgressAfter count l' m q) : ProgressAfter count (l ++ l') p q := by
  induction l generalizing p with
  | nil =>
    have hm : m = p := h
    exact hm ▸ h'
  | cons c l ih =>
    obtain ⟨k, hk, hrest⟩ := h
    exact ⟨k, hk, ih hrest⟩

/-- The readers follow passes handed on after others. -/
theorem ReadersFollow.append {b : Bank} {ps qs : List TrackPass} {s m t : State} (h : ReadersFollow b ps s m)
    (h' : ReadersFollow b qs m t) (hmove : ReadersMove s m) : ReadersFollow b (ps ++ qs) s t := by
  refine ⟨fun n r hr => ?_, fun n r hr => ?_, fun n l hl => ?_⟩
  · obtain ⟨y, hy, hfirst⟩ := h.consumed n r hr
    obtain ⟨y', hy', hform⟩ := hmove.sections n r hr
    cases hy.symm.trans hy'
    obtain ⟨z, hz, hsecond⟩ := h'.consumed n y hy
    have hfar : y.far = r.far := by rw [hform]
    refine ⟨z, hz, ?_⟩
    rw [hsecond, hfirst, hfar]
    simp only [List.mem_append, or_and_right, exists_or, and_or_left, or_assoc]
  · obtain ⟨y, hy, hfirst⟩ := h.progress n r hr
    obtain ⟨y', hy', hform⟩ := hmove.sections n r hr
    cases hy.symm.trans hy'
    obtain ⟨z, hz, hsecond⟩ := h'.progress n y hy
    have hown : y.own = r.own := by rw [hform]
    rw [hown] at hsecond
    refine ⟨z, hz, fun ho hd => ?_, fun hn => (hsecond.2 hn).trans (hfirst.2 hn)⟩
    rw [List.flatMap_append]
    exact progressAfter_append (hfirst.1 ho hd) (hsecond.1 ho hd)
  · obtain ⟨y, hy, hends, hstays⟩ := h.approach n l hl
    obtain ⟨z, hz, hends', hstays'⟩ := h'.approach n y hy
    refine ⟨z, hz, ?_, fun hn => ?_⟩
    · rintro ⟨p, hp, hleaves⟩
      by_cases hq : ∃ p ∈ qs, LeavesAllClear (b.leverEntry n).approachTracks p
      · exact hends' hq
      · rw [hstays' fun p hp hc => hq ⟨p, hp, hc⟩]
        refine hends ((List.mem_append.1 hp).elim (fun hp => ⟨p, hp, hleaves⟩) fun hp => absurd ⟨p, hp, hleaves⟩ hq)
    · rw [hstays' fun p hp => hn p (List.mem_append_right ps hp), hstays fun p hp => hn p (List.mem_append_left qs hp)]

/-! ### What a pass may write -/

/-- Tracks are written and events told. -/
def TracksTold (s t : State) : Prop := ∃ ts, Told { s with tracks := ts } t

theorem TracksTold.trans {s t r : State} (h : TracksTold s t) (h' : TracksTold t r) : TracksTold s r := by
  obtain ⟨ts, v, q, n, z, p, rfl⟩ := h
  obtain ⟨ts', v', q', n', z', p', rfl⟩ := h'
  exact ⟨ts', v', q', n', z', p', rfl⟩

theorem TracksTold.readers {s t : State} (h : TracksTold s t) : t.sections = s.sections ∧ t.levers = s.levers := by
  obtain ⟨ts, v, q, n, z, p, rfl⟩ := h
  exact ⟨rfl, rfl⟩

theorem provingJudged_told (old : Recs TrackRec) (b : Bank) (s : State) : TracksTold s (provingJudged old b s) :=
  ⟨_, raiseAll_form _ _⟩

theorem clearingDecision_told (neighbours : Recs TrackRec) (b : Bank) (s : State) (t : Nat) :
    TracksTold s (clearingDecision neighbours b s t) := by
  unfold clearingDecision
  split
  · split
    · exact ⟨_, .refl _⟩
    · exact ⟨_, raise_form _ _ _ _⟩
  · exact ⟨s.tracks, .refl s⟩

theorem clearingDecisions_told (neighbours : Recs TrackRec) (b : Bank) (ws : List Nat) (s : State) :
    TracksTold s (ws.foldl (clearingDecision neighbours b) s) :=
  foldl_rel TracksTold (fun s => ⟨s.tracks, .refl s⟩) (fun _ _ _ => TracksTold.trans) _ (clearingDecision_told neighbours b) ws s

/-- What a TRACK_SAMPLE may write before the end of its arrival. -/
def PassWrites (s t : State) : Prop := ∃ ts ls ns os v q n y p, t = { s with
  tracks := ts, levers := ls, sections := ns, outputs := os, events := v, outQueue := q, seq := n, sending := y, pendingReturns := p }

theorem PassWrites.trans {s t r : State} (h : PassWrites s t) (h' : PassWrites t r) : PassWrites s r := by
  obtain ⟨_, _, _, _, _, _, _, _, _, rfl⟩ := h
  obtain ⟨_, _, _, _, _, _, _, _, _, rfl⟩ := h'
  exact ⟨_, _, _, _, _, _, _, _, _, rfl⟩

theorem TracksTold.writes {s t : State} (h : TracksTold s t) : PassWrites s t := by
  obtain ⟨ts, v, q, n, z, p, rfl⟩ := h
  exact ⟨ts, s.levers, s.sections, s.outputs, v, q, n, z, p, rfl⟩

theorem tracksHanded_writes (old : Recs TrackRec) (b : Bank) (s : State) : PassWrites s (tracksHanded old b s) :=
  ⟨_, _, _, _, _, _, _, _, _, rfl⟩

theorem modesComputed_writes (b : Bank) (s : State) : PassWrites s (modesComputed b s) := ⟨_, _, _, _, _, _, _, _, _, rfl⟩

theorem SameReaders.modes (b : Bank) (s : State) : SameReaders s (modesComputed b s) := .of_same rfl rfl

theorem ReadersMove.modes (b : Bank) (s : State) : ReadersMove s (modesComputed b s) := .of_same rfl rfl

theorem concludeLevers_writes (s : State) : PassWrites s (concludeLevers [] s) := by
  obtain ⟨ls, ⟨v, q, n, z, p, h⟩, -⟩ := concludeLevers_read [] s
  exact ⟨s.tracks, ls, s.sections, s.outputs, v, q, n, z, p, h⟩

/-! ### The readers of a TRACK_SAMPLE -/

section
variable (b : Bank) (a : Nat) (bytes : List Byte) (y : State)

/-- The first pass before it is handed on. -/
def firstJudged : State := provingJudged y.tracks b (sampled b a bytes y)

/-- The second pass before it is handed on. -/
def secondDecided : State := (firstPass b a bytes y).2.foldl (clearingDecision (betweenState b a bytes y).tracks b) (betweenState b a bytes y)

theorem betweenState_eq : betweenState b a bytes y =
    modesComputed b (concludeLevers [] (tracksHanded y.tracks b (firstJudged b a bytes y))) := rfl

theorem sampledTwice_eq : sampledTwice b a bytes y =
    tracksHanded (betweenState b a bytes y).tracks b (secondDecided b a bytes y) := rfl

theorem firstJudged_told : TracksTold y (firstJudged b a bytes y) :=
  TracksTold.trans (trackTakesAll_same b bytes (b.assignedChannels a) (y, [])) (provingJudged_told y.tracks b _)

theorem secondDecided_told : TracksTold (betweenState b a bytes y) (secondDecided b a bytes y) :=
  clearingDecisions_told _ b _ _

/-- What LE and DG make of a first pass that is handed on. -/
theorem betweenState_same : SameReaders (tracksHanded y.tracks b (firstJudged b a bytes y)) (betweenState b a bytes y) := by
  rw [betweenState_eq]
  exact (SameReaders.concluded (concludeLevers_concluded [] _)).trans (.modes b _)

theorem betweenState_move : ReadersMove y (betweenState b a bytes y) := by
  obtain ⟨hsections, hlevers⟩ := (firstJudged_told b a bytes y).readers
  rw [betweenState_eq]
  exact (((ReadersMove.of_same hsections hlevers).trans (.handed y.tracks b _)).trans
    (.concluded (concludeLevers_concluded [] _))).trans (.modes b _)

theorem sampledTwice_move : ReadersMove y (sampledTwice b a bytes y) := by
  obtain ⟨hsections, hlevers⟩ := (secondDecided_told b a bytes y).readers
  rw [sampledTwice_eq]
  exact ((betweenState_move b a bytes y).trans (.of_same hsections hlevers)).trans (.handed _ b _)

theorem sampledTwice_writes : PassWrites y (sampledTwice b a bytes y) := by
  have hbetween : PassWrites y (betweenState b a bytes y) := by
    rw [betweenState_eq]
    exact (((firstJudged_told b a bytes y).writes.trans (tracksHanded_writes _ b _)).trans (concludeLevers_writes _)).trans
      (modesComputed_writes b _)
  rw [sampledTwice_eq]
  exact (hbetween.trans (secondDecided_told b a bytes y).writes).trans (tracksHanded_writes _ b _)

variable {b a bytes y}

/-- Sections and approach locks follow the tracks pass by pass (R53). -/
theorem sampledTwice_readers (hd : ((b.assignedChannels a).map Prod.snd).Nodup) {t : State}
    (ht : Concluded (sampledTwice b a bytes y) t) (htracks : t.tracks = (sampledTwice b a bytes y).tracks) :
    ReadersFollow b (samplePasses y.tracks t.tracks) y t := by
  obtain ⟨hsections, hlevers⟩ := (firstJudged_told b a bytes y).readers
  obtain ⟨hsections', hlevers'⟩ := (secondDecided_told b a bytes y).readers
  have hfirst := readersFollow_handed (old := y.tracks) (.of_same hsections hlevers) (betweenState_same b a bytes y)
  have hsecond := readersFollow_handed (b := b) (old := (betweenState b a bytes y).tracks) (.of_same hsections' hlevers')
    (SameReaders.concluded (sampledTwice_eq b a bytes y ▸ ht))
  have hpasses : samplePasses y.tracks t.tracks = [onePass y.tracks (firstJudged b a bytes y).tracks] ++
      [onePass (betweenState b a bytes y).tracks (secondDecided b a bytes y).tracks] := by
    have hmid : (firstJudged b a bytes y).tracks = (betweenState b a bytes y).tracks := (betweenState_tracks b a bytes y).symm
    have hlast : (secondDecided b a bytes y).tracks = t.tracks := by
      rw [htracks, sampledTwice_eq]
      simp only [tracksHanded_same]
    unfold samplePasses samplePass onePass
    rw [hmid, hlast, htracks, sampledTwice_between hd, betweenState_trackState]
    rfl
  rw [hpasses]
  exact hfirst.append hsecond (betweenState_move b a bytes y)

end

/-! ### Tracks of other units -/

section
variable {b : Bank} {a : Nat} {bytes : List Byte} {y : State}

theorem trackTakesAll_calls {l : List (Nat × Nat)} {n : Nat} (hn : n ∉ l.map Prod.snd) {acc : State × List Nat} (ha : n ∉ acc.2) :
    n ∉ (trackTakesAll b bytes l acc).2 := by
  induction l generalizing acc with
  | nil => exact ha
  | cons p l ih =>
    rw [List.map_cons, List.mem_cons, not_or] at hn
    rw [trackTakesAll_cons]
    refine ih hn.2 fun hc => ?_
    rw [(trackTakes_outcome b bytes acc p).1, List.mem_append] at hc
    refine hc.elim ha fun hc => ?_
    obtain ⟨o, -, ho⟩ := Option.bind_eq_some_iff.1 (Option.mem_toList.1 hc)
    split at ho
    · exact hn.1 (Option.some.inj ho).symm
    · cases ho

theorem clearingDecisions_other {neighbours : Recs TrackRec} {ws : List Nat} {n : Nat} (hn : n ∉ ws) (x : State) :
    recAt (ws.foldl (clearingDecision neighbours b) x).tracks n = recAt x.tracks n := by
  induction ws generalizing x with
  | nil => rfl
  | cons t ws ih =>
    rw [List.mem_cons, not_or] at hn
    rw [List.foldl_cons, ih hn.2, clearingDecision_recAt, if_neg hn.1]

/-- A track that no channel of the unit serves is judged in its exit-seen flag alone (R39, R58). -/
theorem sampledTwice_unsampled {n : Nat} (hn : n ∉ (b.assignedChannels a).map Prod.snd) {r : TrackRec}
    (hr : recAt y.tracks n = some r) :
    ∃ r', recAt (sampledTwice b a bytes y).tracks n = some r' ∧ r' = { r with exitSeen := r'.exitSeen } := by
  have hmid : recAt (sampled b a bytes y).tracks n = some r := (trackTakesAll_other hn (y, [])).trans hr
  have hentry : unexpectedEntry y.tracks (sampled b a bytes y).tracks (b.trackEntry n) n r = false := by
    refine Bool.eq_false_iff.2 fun h => ?_
    obtain ⟨-, -, hbefore, hafter, -⟩ := unexpectedEntry_iff.1 h
    have hsame : trackState y.tracks n = trackState (sampled b a bytes y).tracks n := by
      unfold trackState
      rw [hr, hmid]
    cases hbefore.symm.trans (hsame.trans hafter)
  have hcalls : n ∉ (firstPass b a bytes y).2 := trackTakesAll_calls hn List.not_mem_nil
  have hjudged : recAt (sampledTwice b a bytes y).tracks n =
      some (judgedRec y.tracks (sampled b a bytes y).tracks (b.trackEntry n) n r) := by
    rw [sampledTwice_eq]
    simp only [tracksHanded_same]
    rw [secondDecided, clearingDecisions_other hcalls, betweenState_tracks, provingJudged_recAt, hmid]
    rfl
  refine ⟨_, hjudged, ?_⟩
  unfold judgedRec
  rw [hentry, Bool.or_false]

end

/-! ### The arrival -/

theorem ReadersFollow.congr {b : Bank} {ps : List TrackPass} {s y t : State} (h : ReadersFollow b ps y t)
    (hs : y.sections = s.sections) (hl : y.levers = s.levers) : ReadersFollow b ps s t :=
  ⟨hs ▸ h.consumed, hs ▸ h.progress, hl ▸ h.approach⟩

section
variable {s : State} {b : Bank} {f : Frame} {u : UnitRec}

/-- The part after a counted TRACK_SAMPLE. -/
def sampleTaken (s : State) (b : Bank) (f : Frame) (dt : Time) : State :=
  concluded (s.advance dt) (samplesTaken b (srcOf f) f.payload (countedState s b f dt))

theorem exec_sample (h : Counted s b .tu 9 f u) (dt : Time) : exec (.trackSample dt f) s = .next (sampleTaken s b f dt) := by
  rw [exec_trackSample, counted_arrival h rfl (.inl (by decide)), reportTaken]
  rfl

theorem sampleTaken_concluded (s : State) (b : Bank) (f : Frame) (dt : Time) :
    Concluded (sampledTwice b (srcOf f) f.payload (countedState s b f dt)) (sampleTaken s b f dt) := by
  unfold sampleTaken
  rw [samplesTaken_eq]
  exact finishWith_concluded ..

theorem countedState_blocks (s : State) (b : Bank) (f : Frame) (dt : Time) :
    (countedState s b f dt).tracks = s.tracks ∧ (countedState s b f dt).sections = s.sections ∧
      (countedState s b f dt).now = s.now + dt := by
  simp [countedState]

theorem sampleTaken_tells (hd : ((b.assignedChannels (srcOf f)).map Prod.snd).Nodup) (dt : Time) :
    Tells trackKinds (s.advance dt) (sampleTaken s b f dt) (sampleEvents b (srcOf f) f.payload (countedState s b f dt)) := by
  have hheard : Tells trackKinds (s.advance dt) (loopHeard (s.advance dt)) [] :=
    (Tells.refl trackKinds (s.advance dt)).loopHeard (by decide) (by decide)
  have hcounted : Tells trackKinds (s.advance dt) (countedState s b f dt) [] := hheard.congr rfl rfl
  have htwice := sampledTwice_tells (bytes := f.payload) hd hcounted
  unfold sampleTaken
  rw [samplesTaken_eq]
  exact htwice.finishWith (by decide) (by decide) _ _ _

theorem mem_trackKinds {new es : List (EventKind × Nat × Nat)} (h : ofKinds trackKinds new = es) {k : EventKind}
    (hk : k ∈ trackKinds) (n d : Nat) : (k, n, d) ∈ new ↔ (k, n, d) ∈ es := by
  rw [← h, ofKinds, List.mem_filter, List.contains_iff_mem]
  exact ⟨fun hm => ⟨hm, hk⟩, And.left⟩

end

/-- Settles O21: the samples, the judgements and the clearing decisions each write the tracks once, and each of the two passes is handed
on once. -/
theorem countedSampleDecision : Obligations.SampleDecision := by
  unfold Obligations.SampleDecision
  refine ⟨fun dt f s b u ch n r h hd hm hr => ?_, fun dt f s b u h hd => ?_, fun dt f s b u h => ?_⟩
  · intro e x
    obtain ⟨htracks, -, hnow⟩ := countedState_blocks s b f dt
    have hfinal : (sampleTaken s b f dt).tracks = _ := samplesTaken_tracks b (srcOf f) f.payload (countedState s b f dt) (s.advance dt)
    obtain ⟨r', hr', hends, hevents⟩ := sampled_ends (bytes := f.payload) hd hm (htracks.symm ▸ hr)
    rw [htracks, hnow] at hends
    rw [htracks, hnow] at hevents
    rw [← hfinal] at hr' hends hevents
    obtain ⟨new, hjoined, hnew⟩ := (sampleTaken_tells (s := s) (b := b) (f := f) hd dt).joined
    have hmem := fun k hk d => (mem_trackKinds hnew (k := k) hk n d).trans (hevents k d)
    refine ⟨_, r', new, exec_sample h dt, hr', hjoined, hends.table, fun d => ?_, fun d => ?_, fun d => ?_, fun d => ?_⟩
    · rw [hmem _ (by decide)]
      simp only [reduceCtorEq, false_and, or_false, hends.failed]
      constructor
      · rintro ⟨c, ⟨hns, hst, hc, hnot⟩, hd⟩
        exact ⟨hns, hst, ⟨c, hc, hd⟩, hc ▸ hnot⟩
      · rintro ⟨hns, hst, ⟨c, hc, hd⟩, hnot⟩
        exact ⟨c, ⟨hns, hst, hc, hc ▸ hnot⟩, hd⟩
    · rw [hmem _ (by decide)]
      simp only [reduceCtorEq, false_and, or_false, hends.recovered]
      constructor
      · rintro ⟨c, ⟨hst, hocc, hc⟩, hd⟩
        exact ⟨hst, hocc, c, hc, hd⟩
      · rintro ⟨hst, hocc, c, hc, hd⟩
        exact ⟨c, ⟨hst, hocc, hc⟩, hd⟩
    · rw [hmem _ (by decide)]
      simp only [sampleDecision_event, reduceCtorEq, false_and, or_false, exists_false, false_or, true_and]
    · rw [hmem _ (by decide)]
      simp only [sampleDecision_event, reduceCtorEq, false_and, or_false, exists_false, false_or, true_and]
      exact Iff.rfl
  · obtain ⟨htracks, hsections, -⟩ := countedState_blocks s b f dt
    have hfinal : (sampleTaken s b f dt).tracks = _ := samplesTaken_tracks b (srcOf f) f.payload (countedState s b f dt) (s.advance dt)
    refine ⟨_, exec_sample h dt, ?_, ?_⟩
    · rw [hfinal, ← htracks]
      exact sampledTwice_flags hd
    · have hread := sampledTwice_readers hd (sampleTaken_concluded s b f dt) hfinal
      rw [htracks] at hread
      exact hread.congr hsections (countedState_levers s b f dt)
  · obtain ⟨htracks, hsections, -⟩ := countedState_blocks s b f dt
    have hfinal : (sampleTaken s b f dt).tracks = _ := samplesTaken_tracks b (srcOf f) f.payload (countedState s b f dt) (s.advance dt)
    have hmove := (sampledTwice_move b (srcOf f) f.payload (countedState s b f dt)).trans (.concluded (sampleTaken_concluded s b f dt))
    refine ⟨_, _, exec_sample h dt, sampleTaken_concluded s b f dt, rfl, ?_, fun n hn r hr => ?_, fun n r hr => ?_, fun n l hl => ?_⟩
    · have hwrites := sampledTwice_writes b (srcOf f) f.payload (countedState s b f dt)
      rw [countedState_eq] at hwrites ⊢
      exact hwrites
    · rw [hfinal]
      exact sampledTwice_unsampled hn (htracks.symm ▸ hr)
    · exact hmove.sections n r (hsections.symm ▸ hr)
    · exact hmove.levers n l ((countedState_levers s b f dt).symm ▸ hl)

end Sys2Proof.Machine
end
